-- ==== Sys2Proof/Word.lean ====
section
/-! DEFINITION. The words of the block: bytes, the 64 B submission entry, and the little-endian reading of
bit vectors (R10). -/
namespace Sys2Proof

/-- A byte. -/
abbrev Byte := BitVec 8

/-- A byte string, lowest address first. -/
abbrev Bytes := List Byte

/-- A 64 B submission entry (R75, R435): byte k is bits 8k+7 to 8k, so a multi-byte field reads little-endian (R10). -/
abbrev Entry := BitVec 512

end Sys2Proof
end

