-- ==== Sys2Proof/RegTypes.lean ====
section
/-! DEFINITION. The register fields of the block, one constructor per field the field tables of spec/ list
(the reserved fields read as 0 by R612 and have no constructor), and the registers that hold them. -/
namespace Sys2Proof

/-- Every register of spec/16_register_reference.md R619 and R620. -/
inductive Reg where
  | hallDeviceInfo -- R27 64 bits
  | hallStallRetired -- R28 32 bits
  | hallRate -- R29 32 bits
  | hallLocalTime -- R30 64 bits
  | pitchLedger -- R87 64 bits
  | pitchLedgerDamaged -- R88 32 bits
  | hallSealStat -- R89 64 bits
  | pitchAttendStat -- R132 64 bits
  | pitchAttendFault -- R133 64 bits
  | stallPasses -- R134 64 bits
  | hallReplayStat -- R135 64 bits
  | stallWeighStat -- R136 64 bits
  | hallTtStatus -- R175 64 bits
  | hallTtLayout -- R176 64 bits
  | hallTtSlot -- R177 256 bits
  | pitchClient -- R178 32 bits
  | pitchDispatchCfg -- R179 64 bits
  | pitchSaveUse -- R180 32 bits
  | stallCtx -- R181 32 bits
  | stallCtxStat -- R182 64 bits
  | pitchTillCtrl -- R183 32 bits
  | pitchTillWait -- R184 128 bits
  | pitchTillHist -- R185 32 bits
  | pitchTillPreempt -- R186 128 bits
  | pitchPrefixCfg -- R226 64 bits
  | pitchPrefixBase -- R227 64 bits
  | pitchPrefixStat -- R228 64 bits
  | pitchPrefixPub -- R229 64 bits
  | hallStockCfg -- R230 64 bits
  | hallStockStat -- R231 64 bits
  | hallStockLost -- R232 32 bits
  | pitchTierCfg -- R274 64 bits
  | pitchTierCap -- R275 64 bits
  | pitchTierUse -- R276 64 bits
  | pitchTierPool -- R277 64 bits
  | pitchHawkStat -- R278 64 bits
  | hallTierStall -- R279 32 bits
  | flashBudget -- R280 64 bits
  | flashHealth -- R281 64 bits
  | flashWear -- R282 64 bits
  | hallLease -- R283 64 bits
  | hallDramRetired -- R284 32 bits
  | hallTableStore -- R320 64 bits
  | pitchPackCfg -- R321 64 bits
  | pitchDeltaPair -- R322 256 bits
  | pitchPackStat -- R323 64 bits
  | pitchDeltaStat -- R324 64 bits
  | hallUnpackStat -- R325 64 bits
  | fabTransportCfg -- R373 64 bits
  | fabConnCfg -- R374 64 bits
  | fabConnState -- R375 64 bits
  | fabWinUse -- R376 64 bits
  | fabRxStat -- R377 64 bits
  | fabOrderStat -- R378 64 bits
  | fabReliability -- R379 64 bits
  | fabCcCfg -- R407 64 bits
  | fabConnCc -- R408 128 bits
  | fabEgressCfg -- R409 64 bits
  | fabShaper -- R410 64 bits
  | fabAssocCfg -- R411 64 bits
  | fabAssocState -- R412 64 bits
  | fabPortCfg -- R413 64 bits
  | fabPortStatus -- R414 64 bits
  | fabPortCtrl -- R415 32 bits
  | fabLaneStat -- R416 64 bits
  | pciLink -- R453 64 bits
  | pciFnStatus -- R454 32 bits
  | pciRingCfg -- R455 128 bits
  | pciRingAddr -- R456 128 bits
  | pciRingState -- R457 64 bits
  | pciHwin -- R458 128 bits
  | pciChitRange -- R459 64 bits
  | pciCxlStat -- R460 64 bits
  | secMode -- R496 64 bits
  | secPitchState -- R497 64 bits
  | secPitchTenant -- R498 256 bits
  | secPitchLayout -- R499 64 bits
  | secPeerTrust -- R500 32 bits
  | secCertBuf -- R501 4 KiB
  | secBoot -- R524 64 bits
  | secImage -- R525 128 bits
  | secFwCtrl -- R526 32 bits
  | hallCore -- R527 64 bits
  | pwrSupply -- R555 64 bits
  | pwrPower -- R556 64 bits
  | pwrLimit -- R557 64 bits
  | pwrStage -- R558 64 bits
  | pwrCtrl -- R559 32 bits
  | pwrState -- R560 64 bits
  | pwrStateStat -- R561 128 bits
  | pwrResetCause -- R562 64 bits
  | errCapture -- R584 256 bits
  | errSourceStat -- R585 64 bits
  | errLogPtr -- R586 64 bits
  | errLog -- R587 32 KiB
  | errAlarm -- R588 32 bits
  | errEvtCfg -- R589 128 bits
  | errEvtState -- R590 64 bits
  | errTelemCtrl -- R591 64 bits
  | errTelemAddr -- R592 128 bits
  deriving DecidableEq, Repr

/-- Every field of every register: register name, then field name. -/
inductive Fld where
  -- R27 HALL_DEVICE_INFO
  | hallDeviceInfoPart
  | hallDeviceInfoStackMask
  | hallDeviceInfoDieStep
  | hallDeviceInfoStallCount
  | hallDeviceInfoDeviceId
  -- R28 HALL_STALL_RETIRED
  | hallStallRetiredRetired
  -- R29 HALL_RATE
  | hallRateRateMeas
  | hallRateRateTarget
  | hallRateLimit
  -- R30 HALL_LOCAL_TIME
  | hallLocalTimeNs
  -- R87 PITCH_LEDGER
  | pitchLedgerQuota
  | pitchLedgerInUse
  | pitchLedgerParked
  -- R88 PITCH_LEDGER_DAMAGED
  | pitchLedgerDamagedDamaged
  -- R89 HALL_SEAL_STAT
  | hallSealStatSeals
  | hallSealStatSealWaits
  | hallSealStatSealsRaw
  -- R132 PITCH_ATTEND_STAT
  | pitchAttendStatParts
  | pitchAttendStatNarrow
  | pitchAttendStatNarrowKeys
  -- R133 PITCH_ATTEND_FAULT
  | pitchAttendFaultEmptyTokens
  | pitchAttendFaultPoisoned
  | pitchAttendFaultPeerLost
  | pitchAttendFaultSaturated
  -- R134 STALL_PASSES
  | stallPassesPasses
  | stallPassesGrouped
  -- R135 HALL_REPLAY_STAT
  | hallReplayStatSharedReads
  | hallReplayStatReplays
  -- R136 STALL_WEIGH_STAT
  | stallWeighStatMerges
  | stallWeighStatStripeMerges
  -- R175 HALL_TT_STATUS
  | hallTtStatusActive
  | hallTtStatusPending
  | hallTtStatusPendingTable
  | hallTtStatusSlot
  | hallTtStatusCycles
  -- R176 HALL_TT_LAYOUT
  | hallTtLayoutSlotsA
  | hallTtLayoutSlotsB
  | hallTtLayoutCycleA
  | hallTtLayoutCycleB
  -- R177 HALL_TT_SLOT
  | hallTtSlotEntry
  -- R178 PITCH_CLIENT
  | pitchClientClientId
  | pitchClientValid
  | pitchClientRt
  -- R179 PITCH_DISPATCH_CFG
  | pitchDispatchCfgSaveSlots
  | pitchDispatchCfgAffSlack
  | pitchDispatchCfgGrace
  | pitchDispatchCfgSwapMin
  -- R180 PITCH_SAVE_USE
  | pitchSaveUseReserved
  | pitchSaveUseSaved
  -- R181 STALL_CTX
  | stallCtxSlotState
  | stallCtxClass
  | stallCtxPitch
  | stallCtxQueued
  -- R182 STALL_CTX_STAT
  | stallCtxStatSavesPreempt
  | stallCtxStatSavesHandover
  | stallCtxStatSavesBlocked
  | stallCtxStatRestores
  -- R183 PITCH_TILL_CTRL
  | pitchTillCtrlSnap
  | pitchTillCtrlClear
  -- R184 PITCH_TILL_WAIT
  | pitchTillWaitWaitSum
  | pitchTillWaitWaitMax
  | pitchTillWaitParts
  -- R185 PITCH_TILL_HIST
  | pitchTillHistCount
  -- R186 PITCH_TILL_PREEMPT
  | pitchTillPreemptPreempts
  | pitchTillPreemptBlockedSwaps
  | pitchTillPreemptSaveTime
  -- R226 PITCH_PREFIX_CFG
  | pitchPrefixCfgScope
  | pitchPrefixCfgResultSlots
  | pitchPrefixCfgResultKib
  -- R227 PITCH_PREFIX_BASE
  | pitchPrefixBaseResultBase
  -- R228 PITCH_PREFIX_STAT
  | pitchPrefixStatLookups
  | pitchPrefixStatPagesHit
  -- R229 PITCH_PREFIX_PUB
  | pitchPrefixPubPagesAdded
  | pitchPrefixPubDiffers
  | pitchPrefixPubPeerLost
  -- R230 HALL_STOCK_CFG
  | hallStockCfgEpoch
  | hallStockCfgHotPop
  | hallStockCfgPopHalf
  | hallStockCfgOrphan
  -- R231 HALL_STOCK_STAT
  | hallStockStatEntries
  | hallStockStatReplicas
  | hallStockStatEpochMiss
  -- R232 HALL_STOCK_LOST
  | hallStockLostLost
  -- R274 PITCH_TIER_CFG
  | pitchTierCfgPolicy
  | pitchTierCfgPinClass
  | pitchTierCfgPromoteRefs
  | pitchTierCfgBorrowMax
  | pitchTierCfgLendGib
  | pitchTierCfgLeadInit
  | pitchTierCfgEvictFreeMib
  -- R275 PITCH_TIER_CAP
  | pitchTierCapCrateGib
  | pitchTierCapFetchReserve
  | pitchTierCapFlashGib
  -- R276 PITCH_TIER_USE
  | pitchTierUseDramUsed
  | pitchTierUsePinned
  | pitchTierUseFlashUsed
  | pitchTierUseLeases
  -- R277 PITCH_TIER_POOL
  | pitchTierPoolPoolSize
  | pitchTierPoolPoolUsed
  | pitchTierPoolDropped
  -- R278 PITCH_HAWK_STAT
  | pitchHawkStatLead
  | pitchHawkStatLate
  | pitchHawkStatFetches
  -- R279 HALL_TIER_STALL
  | hallTierStallWaits
  -- R280 FLASH_BUDGET
  | flashBudgetDailyGib
  | flashBudgetTokensGib
  | flashBudgetOverdraftGib
  -- R281 FLASH_HEALTH
  | flashHealthRetries
  | flashHealthSoft
  | flashHealthUncorrectable
  | flashHealthBlocksMarked
  -- R282 FLASH_WEAR
  | flashWearEraseMin
  | flashWearEraseMax
  | flashWearFreeZones
  | flashWearGcZones
  -- R283 HALL_LEASE
  | hallLeaseLent
  | hallLeaseBorrowed
  | hallLeaseRecalls
  | hallLeaseDeadlineMissed
  | hallLeaseDirtyMib
  -- R284 HALL_DRAM_RETIRED
  | hallDramRetiredFrames
  | hallDramRetiredFull
  -- R320 HALL_TABLE_STORE
  | hallTableStoreUsed
  | hallTableStoreRestored
  | hallTableStoreRefused
  | hallTableStoreFetched
  -- R321 PITCH_PACK_CFG
  | pitchPackCfgTableQuota
  | pitchPackCfgActiveMax
  | pitchPackCfgDeltaPairs
  | pitchPackCfgDeltaBaseGib
  -- R322 PITCH_DELTA_PAIR
  | pitchDeltaPairVarFp
  | pitchDeltaPairVarAdapter
  | pitchDeltaPairBaseFp
  | pitchDeltaPairBaseAdapter
  | pitchDeltaPairValid
  -- R323 PITCH_PACK_STAT
  | pitchPackStatCoded
  | pitchPackStatRawK
  | pitchPackStatTablesMade
  -- R324 PITCH_DELTA_STAT
  | pitchDeltaStatDependants
  | pitchDeltaStatBases
  | pitchDeltaStatRebased
  -- R325 HALL_UNPACK_STAT
  | hallUnpackStatStarve
  | hallUnpackStatLaneBound
  -- R373 FAB_TRANSPORT_CFG
  | fabTransportCfgUdpPort
  | fabTransportCfgMaxPayload
  | fabTransportCfgIpv4
  | fabTransportCfgStrangerThresh
  | fabTransportCfgRetryMax
  -- R374 FAB_CONN_CFG
  | fabConnCfgPeer
  | fabConnCfgPeerConn
  | fabConnCfgPitch
  | fabConnCfgMode
  | fabConnCfgValid
  | fabConnCfgService
  | fabConnCfgPathsM1
  | fabConnCfgPortMask
  | fabConnCfgEgressQueue
  -- R375 FAB_CONN_STATE
  | fabConnStateState
  | fabConnStateHot
  | fabConnStateEpochDrops
  | fabConnStateInflight
  | fabConnStateRetx
  | fabConnStateRtoUs
  -- R376 FAB_WIN_USE
  | fabWinUseQuota
  | fabWinUseOpen
  | fabWinUseRevokes
  -- R377 FAB_RX_STAT
  | fabRxStatFrames
  | fabRxStatIngressOvf
  | fabRxStatStrangers
  -- R378 FAB_ORDER_STAT
  | fabOrderStatPfHeld
  | fabOrderStatPfFull
  | fabOrderStatRoHeld
  | fabOrderStatRoDrops
  -- R379 FAB_RELIABILITY
  | fabReliabilityRetx
  | fabReliabilityRtoExpiries
  | fabReliabilityNaksSent
  -- R407 FAB_CC_CFG
  | fabCcCfgTarget
  | fabCcCfgAi
  | fabCcCfgBeta
  | fabCcCfgHoldUs
  | fabCcCfgAvoidN
  | fabCcCfgCwndMax
  | fabCcCfgInit
  -- R408 FAB_CONN_CC
  | fabConnCcCwnd
  | fabConnCcBaseRtt
  | fabConnCcQdelay
  | fabConnCcAvoided
  -- R409 FAB_EGRESS_CFG
  | fabEgressCfgWeight
  | fabEgressCfgDscp
  | fabEgressCfgPcp
  | fabEgressCfgBurstKib
  -- R410 FAB_SHAPER
  | fabShaperRateMbps
  | fabShaperBurst
  -- R411 FAB_ASSOC_CFG
  | fabAssocCfgRekeyAt
  | fabAssocCfgRekeyAge
  -- R412 FAB_ASSOC_STATE
  | fabAssocStateState
  | fabAssocStateKeyPhase
  | fabAssocStateRekeying
  | fabAssocStateRekeys
  | fabAssocStateAuthFail
  | fabAssocStateReplayDup
  | fabAssocStateReplayOld
  -- R413 FAB_PORT_CFG
  | fabPortCfgSpeed
  | fabPortCfgLaneClass
  | fabPortCfgLinkTrain
  | fabPortCfgUncorrMax
  -- R414 FAB_PORT_STATUS
  | fabPortStatusState
  | fabPortStatusCause
  | fabPortStatusFailedLane
  | fabPortStatusEqSettled
  | fabPortStatusLinkDowns
  | fabPortStatusMacCtrl
  -- R415 FAB_PORT_CTRL
  | fabPortCtrlReset
  -- R416 FAB_LANE_STAT
  | fabLaneStatFecCorr
  | fabLaneStatFecUncorr
  | fabLaneStatEyeMargin
  -- R453 PCI_LINK
  | pciLinkUp
  | pciLinkRate
  | pciLinkWidth
  | pciLinkCxl
  | pciLinkBif
  | pciLinkDowns
  -- R454 PCI_FN_STATUS
  | pciFnStatusWedged
  | pciFnStatusBmeOff
  | pciFnStatusVectors
  -- R455 PCI_RING_CFG
  | pciRingCfgEnable
  | pciRingCfgSubLoc
  | pciRingCfgCompLoc
  | pciRingCfgFabric
  | pciRingCfgSizeLog2
  | pciRingCfgVector
  | pciRingCfgCoalN
  | pciRingCfgCoalUs
  | pciRingCfgConn
  | pciRingCfgCompWin
  | pciRingCfgCompOffset
  -- R456 PCI_RING_ADDR
  | pciRingAddrSubAddr
  | pciRingAddrCompAddr
  -- R457 PCI_RING_STATE
  | pciRingStateHead
  | pciRingStateState
  | pciRingStateTail
  | pciRingStateCompTail
  | pciRingStatePhase
  | pciRingStateCause
  | pciRingStateHeld
  -- R458 PCI_HWIN
  | pciHwinBase
  | pciHwinLength
  | pciHwinRead
  | pciHwinWrite
  -- R459 PCI_CHIT_RANGE
  | pciChitRangeBase
  | pciChitRangeCount
  | pciChitRangeTrigQuota
  | pciChitRangeTrigArmed
  -- R460 PCI_CXL_STAT
  | pciCxlStatTracked
  | pciCxlStatPoisoned
  | pciCxlStatLosses
  -- R496 SEC_MODE
  | secModeConf
  | secModeConfChanged
  | secModeRotSvn
  -- R497 SEC_PITCH_STATE
  | secPitchStateState
  | secPitchStateVolatile
  | secPitchStateStep
  | secPitchStateEpoch
  | secPitchStateUntrusted
  | secPitchStateReleaseMs
  -- R498 SEC_PITCH_TENANT
  | secPitchTenantTenantId
  -- R499 SEC_PITCH_LAYOUT
  | secPitchLayoutStalls
  | secPitchLayoutStacks
  | secPitchLayoutGranules
  | secPitchLayoutHallBanks
  | secPitchLayoutRingArea
  -- R500 SEC_PEER_TRUST
  | secPeerTrustTrusted
  | secPeerTrustCause
  | secPeerTrustFails
  -- R501 SEC_CERT_BUF
  | secCertBufData
  -- R524 SEC_BOOT
  | secBootStage
  | secBootCode
  | secBootFallbackRot
  | secBootFallbackFw
  | secBootFallbackPlan
  | secBootBootMs
  | secBootReplayMs
  | secBootFatalHoldMs
  -- R525 SEC_IMAGE
  | secImageVersion
  | secImageSvn
  | secImageFusedSvn
  | secImageSlot
  | secImageTrial
  | secImageStaged
  | secImageStagedVersion
  | secImageStagedSvn
  -- R526 SEC_FW_CTRL
  | secFwCtrlLiveActivate
  | secFwCtrlConfirm
  | secFwCtrlActState
  | secFwCtrlActCore
  -- R527 HALL_CORE
  | hallCoreState
  | hallCoreRestarts
  | hallCoreCause
  | hallCoreLastUs
  -- R555 PWR_SUPPLY
  | pwrSupplyVinMv
  | pwrSupplyVauxMv
  | pwrSupplyVcoreMv
  | pwrSupplyTj
  -- R556 PWR_POWER
  | pwrPowerInput100us
  | pwrPowerInput1s
  | pwrPowerStall
  | pwrPowerDram
  -- R557 PWR_LIMIT
  | pwrLimitBurst
  | pwrLimitSustained
  | pwrLimitStallCap
  | pwrLimitThermal
  -- R558 PWR_STAGE
  | pwrStageStage
  | pwrStageDips
  | pwrStageStageD
  | pwrStageBusyPower
  -- R559 PWR_CTRL
  | pwrCtrlMaxState
  | pwrCtrlDeepIdle
  | pwrCtrlP3PollMs
  -- R560 PWR_STATE
  | pwrStateState
  | pwrStateLateWakes
  | pwrStateNextEventUs
  -- R561 PWR_STATE_STAT
  | pwrStateStatP1Entries
  | pwrStateStatP2Entries
  | pwrStateStatP3Entries
  | pwrStateStatResidencyMs
  -- R562 PWR_RESET_CAUSE
  | pwrResetCauseCause
  | pwrResetCauseFullResets
  | pwrResetCauseSupplyResets
  -- R584 ERR_CAPTURE
  | errCaptureValid
  | errCaptureSeverity
  | errCaptureOverwrote
  | errCaptureCode
  | errCapturePitch
  | errCapturePitchValid
  | errCaptureMore
  | errCaptureBoot
  | errCaptureTime
  | errCaptureDetail0
  | errCaptureDetail1
  -- R585 ERR_SOURCE_STAT
  | errSourceStatSuppressed
  | errSourceStatDropped
  | errSourceStatLogged
  -- R586 ERR_LOG_PTR
  | errLogPtrWrite
  | errLogPtrRead
  | errLogPtrOverwritten
  | errLogPtrMarkers
  -- R588 ERR_ALARM
  | errAlarmAlert
  | errAlarmFatal
  | errAlarmAlarmVector
  -- R589 ERR_EVT_CFG
  | errEvtCfgEnable
  | errEvtCfgLoc
  | errEvtCfgSizeLog2
  | errEvtCfgVector
  | errEvtCfgAddr
  -- R590 ERR_EVT_STATE
  | errEvtStateHead
  | errEvtStateTail
  | errEvtStatePhase
  | errEvtStateLost
  -- R591 ERR_TELEM_CTRL
  | errTelemCtrlLevel
  | errTelemCtrlTrace
  | errTelemCtrlShed
  | errTelemCtrlTelemSizeLog2
  | errTelemCtrlTraceSizeLog2
  | errTelemCtrlMissed
  | errTelemCtrlTraceDrops
  -- R592 ERR_TELEM_ADDR
  | errTelemAddrTelemAddr
  | errTelemAddrTraceAddr
  deriving DecidableEq, Repr

/-- Access codes of R11. A lock bit is in no register of the part, so RWL has no use. -/
inductive Access where
  | ro | rw | rw1c | wo
  deriving DecidableEq, Repr

/-- The narrowest reset that restores a field (R12, R13). -/
inductive ResetKind where
  | fuse | powerOn | full | pitch | port
  deriving DecidableEq, Repr

/-- Where a field's reset value comes from (R611). -/
inductive ResetSrc where
  | const (n : Nat)
  | plan
  | fuse
  | init      -- INIT of FAB_CC_CFG (R408)
  | leadInit  -- LEAD_INIT of PITCH_TIER_CFG (R278)
  deriving DecidableEq, Repr

/-- What happens at the top of a counting field: its table says it wraps or saturates. -/
inductive Top where
  | wrap | sat
  deriving DecidableEq, Repr

/-- One row of a field table. -/
structure FldDesc where
  reg  : Reg
  lo   : Nat
  w    : Nat
  acc  : Access
  src  : ResetSrc
  kind : ResetKind
  top  : Top
  deriving DecidableEq, Repr

/-- A field of one instance of an array register. -/
structure RegKey where
  fld : Fld
  idx : Nat
  deriving DecidableEq, Repr

/-- Values by field and instance. An unlisted field holds its reset value. -/
abbrev RegFile := List (RegKey × Nat)

end Sys2Proof
end

