-- ==== Sys2Proof/Plan.lean ====
section
/-! DEFINITION. The stall plan as content (R508 to R510): the values its sections give to the plan fields of the
registers, and the parts of it that no register reports. -/
namespace Sys2Proof

/-- One slot entry of a timetable (R153). -/
structure TtSlot where
  duration : Nat
  classMap : Nat
  reserved : Nat
  deriving DecidableEq, Repr

/-- What a party of the peer table is. -/
inductive PeerKind where
  | ly9 | ly7 | client
  deriving DecidableEq, Repr

/-- A row of the peer table (R331): kind, device id, market, and the roles the plan gives the peer (R367). -/
structure PeerPlan where
  kind     : PeerKind
  deviceId : Nat
  market   : Nat
  stripes  : Bool
  stock    : Bool
  lends    : Bool
  fetches  : Bool
  deriving DecidableEq, Repr

/-- A CXL segment (R448): LEDGER when `data` is none, else the granule offsets of a DATA segment. -/
structure CxlSeg where
  half  : Nat
  base  : Nat
  size  : Nat
  data  : Option Nat
  deriving DecidableEq, Repr

/-- What the PITCHES, POLICIES and FLASH sections give one pitch beyond its register fields. -/
structure PitchPlan where
  laidOut   : Bool
  /-- The stack of each granule, in listed order (R464). -/
  granules  : List Nat
  /-- First hall offset of the pitch's share, in bytes. -/
  hallBase  : Nat
  /-- First ring number and count (R423). -/
  ringLo    : Nat
  ringCount : Nat
  /-- Half of the host port on which PF(n + 1) appears (R419). -/
  half      : Nat
  /-- Dies of the namespace as (channel, die) (R256). -/
  dies      : List (Nat × Nat)
  /-- Zones of the namespace, and 16 KiB units in a zone (R258). -/
  zones     : Nat
  zoneUnits : Nat
  segments  : List CxlSeg
  deriving DecidableEq, Repr

/-- A row of the shard map (R194). -/
structure ShardRow where
  market : Nat
  home   : Nat
  deriving DecidableEq, Repr

/-- A request of the OWNER_KEYS section (R506). -/
inductive OwnerKeyOp where
  | burn (slot digest : Nat)
  | revoke (slot : Nat)
  deriving DecidableEq, Repr

/-- An entry of the section directory (R508). -/
structure PlanSection where
  type     : Nat
  critical : Bool
  offset   : Nat
  length   : Nat
  deriving DecidableEq, Repr

/-- The stall plan. `fields` holds the value of every register field whose reset column reads "from stall plan". -/
structure Plan where
  fields    : RegFile
  /-- PLAN_FMT and the section directory of the body (R508). -/
  planFmt   : Nat
  bodyLen   : Nat
  sections  : List PlanSection
  straps    : Nat
  pitches   : List PitchPlan
  pf0RingLo : Nat
  pf0Rings  : Nat
  tableA    : List TtSlot
  tableB    : List TtSlot
  peers     : List PeerPlan
  /-- The ports whose frames carry an 802.1Q tag (R327, R391). -/
  tagged    : List Nat
  shard     : List ShardRow
  stockEntries   : Nat
  replicaEntries : Nat
  /-- Market of this device. -/
  market    : Nat
  /-- LEASE_DIRTY_MAX in MiB (R268). -/
  leaseDirtyMax  : Nat
  /-- Listed flash dies as (channel, die) (R256). -/
  dies      : List (Nat × Nat)
  ownerKeys : List OwnerKeyOp
  deriving DecidableEq, Repr

/-- The plan before any boot has read one: it gives nothing. -/
def Plan.empty : Plan :=
  { fields := [], planFmt := 0, bodyLen := 0, sections := [], straps := 0, pitches := [], pf0RingLo := 0, pf0Rings := 0, tableA := [], tableB := [],
    peers := [], tagged := [], shard := [], stockEntries := 0, replicaEntries := 0, market := 0, leaseDirtyMax := 0, dies := [],
    ownerKeys := [] }

/-- PLAN_FMT is 1, every section lies within the body, no CRITICAL section has an unknown type (R508, R509, code 0x20). -/
def Plan.formOk (p : Plan) : Bool :=
  p.planFmt == 1 && p.sections.all (fun x => decide (x.offset + x.length ≤ p.bodyLen)
    && (!x.critical || (decide (1 ≤ x.type) && decide (x.type ≤ 13))))

end Sys2Proof
end

