-- ==== Sys2Proof/Syntax.lean ====
section
/-! DEFINITION. The commands of the block: one constructor per row of spec/opcode_table.json, in the table's order.
A ring command carries its ring and its 64 B entry; a packet carries its decrypted header and payload and what the
link protection found; an event of a unit carries which unit and what that unit found. -/
namespace Sys2Proof

/-- What a read of DRAM, flash or a lease found (R262, R270, R271, R272, R318): `frame` 2 MiB frames name themselves by
number. Where the finding retires its frame, `gone` names the crates whose copies in the frame could not be read when they
were to be moved (R271, R272). (DESIGN CHOICE: log entry 74.) -/
inductive ReadResult where
  | ok
  /-- Corrected ECC of a DRAM frame. -/
  | corrected (stack frame : Nat) (gone : List Nat)
  /-- A flash read that needed one to three threshold retries, and soft decoding after the third or not, in the block that
  its zone has on the given channel (R258, R262). -/
  | retried (retries : Nat) (soft : Bool) (channel : Nat)
  /-- A flash codeword that soft decoding could not correct, in the block of a channel (R262). -/
  | lostBlock (channel : Nat)
  /-- Uncorrectable, in the given DRAM frame. -/
  | lostFrame (stack frame : Nat) (gone : List Nat)
  /-- A coded block, or its chunk directory, does not decode (R318). -/
  | undecodable (block : Nat)
  /-- Unreadable for another reason: a NAK, an unreachable source. -/
  | lost
  /-- The copy is good; beside it one of the two ledger copies of a pitch showed an uncorrectable error (R270). -/
  | ledgerCopy (pitch : Nat) (second : Bool) (frame : Nat) (gone : List Nat)
  /-- The copy is good; a page-table segment or key list of a sequence is uncorrectable (R271). -/
  | lostList (seq stack frame : Nat) (gone : List Nat)
  deriving DecidableEq, Repr

/-- What a stall's pass found: the read of its crate, and the handshakes it waited for the unpacker (R313).
(DESIGN CHOICE: log entry 74.) -/
structure TileObs where
  read      : ReadResult
  starve    : Nat
  laneBound : Nat
  deriving DecidableEq, Repr

/-- An Etlos frame after the association layer (R327, R328, R396). `src` is the peer whose address the frame carries,
none when the address is in no peer-table row; `tagOk` is what AES-256-GCM found (R397). (DESIGN CHOICE: log entry 74.) -/
structure Frame where
  port     : Nat
  src      : Option Nat
  udpSrc   : Nat
  keyPhase : Nat
  counter  : Nat
  tagOk    : Bool
  ver      : Nat
  opcode   : Nat
  first    : Bool
  last     : Bool
  final    : Bool
  ackreq   : Bool
  ordered  : Bool
  conn     : Nat
  psn      : Nat
  msgId    : Nat
  pktIndex : Nat
  window   : Nat
  offset   : Nat
  length   : Nat
  sendTs   : Nat
  epoch    : Nat
  payload  : Bytes
  deriving DecidableEq, Repr

/-- The shape of a stored page (R202): layers, format, latent, KV heads, D / 32. -/
structure Shape where
  layers   : Nat
  format   : Nat
  latent   : Bool
  kvHeads  : Nat
  headDim32 : Nat
  deriving DecidableEq, Repr

/-- One copy slot of a stock-book entry (R196). -/
structure Copy where
  device  : Nat
  pitch   : Nat
  durable : Bool
  record  : Nat
  deriving DecidableEq, Repr

/-- A stock-book entry (R196), also as probe answers, inserts and replicas carry it. -/
structure StockEntry where
  key        : Bytes
  scope      : Nat
  page       : Nat
  shape      : Shape
  hot        : Bool
  pageDigest : Bytes
  modelFp    : Nat
  adapter    : Nat
  pop        : Nat
  /-- The four copy slots; none is an invalid slot. -/
  copies     : List (Option Copy)
  deriving DecidableEq, Repr

/-- What a home answers to an insert (R215). -/
inductive InsertAnswer where
  | copyAdded
  | dedup (holder : Copy)
  | okNoSlot
  | busy
  | noSpace
  | differs (winner : Option Copy) (winnerHandle : Nat)
  | peerLost
  deriving DecidableEq, Repr

/-- An FP32 partial of one query token and head (R53): O, m and l as bit patterns. -/
structure PartialRow where
  o : List (BitVec 32)
  m : BitVec 32
  l : BitVec 32
  deriving DecidableEq, Repr

/-- A forwarded part of an ATTEND (R124): the submission parameters, the sequence's entry and data as the lead sends
them; for another command of R76 only `pitch` and `entry` count. `entry` is the 64 B submission entry; `seqEntry` its 32 B
sequence entry; `query` and `mask` the bytes. A bitmap is not sent: the member reads its columns from the lead. -/
structure Forward where
  /-- The pitch of the connection that carries the forward (R333). -/
  pitch    : Nat
  /-- The submission entry; its opcode says which command is forwarded (R76, R124). -/
  entry    : Entry
  seqEntry : Bytes
  query    : Bytes
  mask     : Bytes
  /-- The new tokens whose pages the member owns: first global position and their barrow bytes. -/
  newFirst : Nat
  newToks  : List Bytes
  /-- Positions that exist for this ATTEND on every member, and the query base position (R94). -/
  held     : Nat
  qBase    : Nat
  deriving DecidableEq, Repr

/-- What ended at a stripe member (R76, R125): the status it answers. -/
structure MemberDone where
  member : Nat
  status : Nat
  narrow : Bool
  /-- The member's committed layer length after its append, for an append step. -/
  layerLen : Nat
  deriving DecidableEq, Repr

/-- The outcome of a mutual attestation, condition by condition (R487). (DESIGN CHOICE: log entry 74.) -/
structure AttestOutcome where
  chainOk    : Bool
  lmsOk      : Bool
  deviceIdOk : Bool
  measuresOk : Bool
  confEqual  : Bool
  deriving DecidableEq, Repr

/-- What the boot finds around the die (R511): the mask of stacks that trained, the mask of flash channels with a listed die
that did not answer, whether a die answered that the plan does not list (R26), the mask of stalls and the frames that the
power-on self-test retires (R28, R272), and how long the boot took. (DESIGN CHOICE: log entry 74.) -/
structure BootEnv where
  stacksTrained  : Nat
  silentChannels : Nat
  unlistedDie    : Bool
  stallsFailed   : Nat
  framesFailed   : List (Nat × Nat)
  bootMs         : Nat
  deriving DecidableEq, Repr

/-- A firmware or plan image as the Abtoser sees it in a slot (R504, R505): the header fields and what each check of
R505 found, and for KIND 3 the plan itself. (DESIGN CHOICE: log entry 74.) -/
structure Image where
  kind       : Nat
  svn        : Nat
  version    : Nat
  bodyLen    : Nat
  parts      : Nat
  commitSvn  : Bool
  liveOk     : Bool
  keySlot    : Nat
  ecdsaOk    : Bool
  lmsOk      : Bool
  /-- SHA-384 over the two public keys (R505). -/
  keyDigest  : Nat
  digestOk   : Bool
  bodyDigest : Nat
  buildId    : Nat
  plan       : Option Plan
  deriving DecidableEq, Repr

/-- Who sends a register access that both hosts and the sideband may make (R615, R628). -/
inductive Requester where
  | fn (n : Nat)
  | sideband
  deriving DecidableEq, Repr

/-- What arrives while the device rests in a power state (R548). -/
inductive Arrival where
  | dataFrame (f : Frame)
  | controlPacket (port : Nat)
  | doorbell
  | registerAccess
  | cxlAccess
  | sidebandRequest
  | alarm
  deriving DecidableEq, Repr

/-- Which measure of R540 the power controller acts on. -/
inductive PowerMeasure where
  | input100us | stretch10ms | input1s | stall100us
  deriving DecidableEq, Repr

/-- A CXL access of the host (R448): read or write of a 64 B line or part of it. -/
structure CxlAccess where
  half      : Nat
  addr      : Nat
  isWrite   : Bool
  exclusive : Bool
  data      : Bytes
  deriving DecidableEq, Repr

/-- Work that is done on a seal or on a crate, and what reading its data found (R271). -/
structure DoneRead where
  id   : Nat
  read : ReadResult
  deriving DecidableEq, Repr

/-- A recode that is done: the crate, what reading its copy found and what reading its base found (R308). -/
structure RecodeRead where
  crate : Nat
  read  : ReadResult
  base  : ReadResult
  deriving DecidableEq, Repr

/-- The device and the pitch that hold a copy of a page (R215). -/
structure Holder where
  device : Nat
  pitch  : Nat
  deriving DecidableEq, Repr

/-- How a rekey exchange with a peer ends without keys: it failed, or its time passed (R400). -/
structure RekeyEnd where
  peer   : Nat
  failed : Bool
  deriving DecidableEq, Repr

/-- One command or event: a row of spec/opcode_table.json. -/
inductive Instr where
  | seqOpen (ring : Nat) (entry : Entry)
  | seqClose (ring : Nat) (entry : Entry)
  | seqPark (ring : Nat) (entry : Entry)
  | seqFork (ring : Nat) (entry : Entry)
  | attend (ring : Nat) (entry : Entry)
  | accept (ring : Nat) (entry : Entry)
  | hintStep (ring : Nat) (entry : Entry)
  | prefixLookup (ring : Nat) (entry : Entry)
  | prefixPublish (ring : Nat) (entry : Entry)
  | prefixDrop (ring : Nat) (entry : Entry)
  | winOpen (ring : Nat) (entry : Entry)
  | winRevoke (ring : Nat) (entry : Entry)
  | winRevokeDone (index : Nat)
  | chitSet (ring : Nat) (entry : Entry)
  | chitAdd (ring : Nat) (entry : Entry)
  | chitWait (ring : Nat) (entry : Entry)
  | chitDeadline (cmd : Nat)
  | pitchBind (ring : Nat) (entry : Entry)
  | pitchRelease (ring : Nat) (entry : Entry)
  | releaseDrainDone (pitch : Nat)
  | pitchScrubDone (pitch : Nat)
  | pitchClean (pitch : Nat)
  | timetableSelect (ring : Nat) (entry : Entry)
  | shaperSet (ring : Nat) (entry : Entry)
  | attest (ring : Nat) (entry : Entry)
  | fullReset (ring : Nat) (entry : Entry)
  | badOpcodeEntry (ring : Nat) (entry : Entry)
  | sealCrateWritten (done : DoneRead)
  | sealSwap (sealId : Nat)
  | tileBoundary (stall : Nat) (obs : TileObs)
  | runComplete (stall : Nat)
  | attendResult (cmd : Nat)
  | contextSaveDone (ctx : Nat)
  | contextRestoreDone (ctx : Nat) (readable : Bool)
  | slotBoundary
  | graceExpiry (stall : Nat)
  | stallFail (stall : Nat)
  | fetchScheduleStart (seq : Nat)
  | fetchDone (crate : Nat) (read : ReadResult)
  | evictionCopyDone (crate : Nat) (read : ReadResult)
  | promotionDone (done : DoneRead)
  | recodeDone (done : RecodeRead)
  | rebaseDone (done : DoneRead)
  | flashCopyWritten (crate : Nat) (read : ReadResult)
  | gcZoneDone (pitch zone : Nat) (lost : List Nat)
  | catalogueReplayDone (pitch ms : Nat) (failed : List (Nat × Nat × Nat))
  | leaseAsk (peer peerPitch pitch : Nat)
  | leaseGrant (peer pitch window : Nat)
  | leaseRefuse (peer pitch : Nat)
  | leaseRecall (peer window : Nat)
  | leaseRelease (lease : Nat)
  | leaseRecallDeadline (lease : Nat)
  | leaseReturn (lease : Nat)
  | leaseBorrowerOrphan (peer : Nat)
  | recallDrop (lease : Nat)
  | recallDropConfirm (lease : Nat)
  | recallDropTimeout (lease : Nat)
  | stockProbe (peer epoch scope : Nat) (key : Bytes)
  | stockProbeAnswer (cmd page : Nat) (entry : Option StockEntry)
  | stockInsert (peer epoch : Nat) (entry : StockEntry) (copy : Copy)
  | stockInsertAnswer (record : Nat) (answer : InsertAnswer)
  | stockDrop (peer epoch scope : Nat) (key : Bytes) (holder : Holder)
  | stockDropAnswer (cmd index : Nat) (busy : Bool)
  | stockDurableMark (scope : Nat) (key : Bytes) (device pitch : Nat)
  | replicaPush (entry : StockEntry)
  | replicaHitReport (received : Option (List (Nat × Bytes × Nat)))
  | popHalving
  | insertRetry (record : Nat)
  | orphanRelease (peer : Nat)
  | holdRequest (peer : Nat) (pitch record : Nat)
  | holdAnswer (cmd page : Nat) (handles : Option (List Nat))
  | tableFetchRequest (peer fingerprint : Nat)
  | tableFetchAnswer (crate fingerprint : Nat) (lengths : Option (List Nat))
  | stripeForwardReceive (peer : Nat) (fwd : Forward)
  | stripePartialReceive (cmd part member : Nat) (rows : List PartialRow) (narrow : Bool)
  | stripeMemberComplete (cmd part : Nat) (done : MemberDone)
  | rxWrite (f : Frame)
  | rxReadReq (f : Frame)
  | rxReadResp (f : Frame)
  | rxAck (f : Frame)
  | rxNak (f : Frame)
  | rxProbe (f : Frame)
  | rxProbeReply (f : Frame)
  | rxResync (f : Frame)
  | rxResyncAck (f : Frame)
  | macControlFrame (port : Nat)
  | rtoExpiry (conn psn : Nat)
  | delayedAck (conn : Nat)
  | silenceProbe (peer : Nat)
  | peerUnreachable (peer : Nat)
  | unreachableProbe (peer : Nat)
  | avoidHoldExpiry (conn path : Nat)
  | baseRttInterval
  | egressFrameStart (port : Nat)
  | rekeyStart (peer : Nat)
  | rekeyExchangeDone (peer : Nat)
  | rxInstalled (peer : Nat)
  | oldKeyRetire (peer : Nat)
  | rekeyTimeout (outcome : RekeyEnd)
  | rekeyRetry (peer : Nat)
  | peerAttestation (peer : Nat) (outcome : AttestOutcome)
  | portLinkUp (port speed : Nat)
  | portLaneFail (port lane : Nat)
  | portLinkRetry (port : Nat)
  | portReset (fn port : Nat)
  | subTailWrite (fn ring value : Nat)
  | compHeadWrite (fn ring value : Nat)
  | ringEnable (fn ring value : Nat)
  | ringDisable (fn ring value : Nat)
  | ringFetchError (ring : Nat)
  | dmaTimeout (fn : Nat)
  | dmaCompleterAbort (fn : Nat)
  | coalTimer (ring : Nat)
  | chitHostWrite (fn offset size value : Nat)
  | pcieLinkUp (half rate width cxl : Nat)
  | pcieSurpriseDown (half : Nat)
  | pcieHotReset (half : Nat)
  | perstAssert
  | perstDeassert (straps : Nat)
  | cxlMemAccess (access : CxlAccess)
  | cxlSnoopTimeout (half line : Nat)
  | cxlViral (half : Nat)
  | sessionKeyExpiry (scope : Nat)
  | attestBusyTimeout (cmd : Nat)
  | boot (env : BootEnv)
  | coreWatchdog (core : Nat)
  | coreException (core : Nat)
  | coreSramError (core : Nat)
  | coreReady (core : Nat)
  | coreReadyTimeout (core : Nat)
  | fatalHoldExpiry
  | trialConfirmTimer
  | fwConfirm (fn : Nat)
  | liveActivate (fn : Nat)
  | liveCopyDone (verified : Bool)
  | pldmFwComponent (image : Image)
  | pldmActivateFirmware (selfContained : Bool)
  | pldmBaseRequest (command : Nat)
  | pldmPlatformRequest (sensor : Nat)
  | pldmFruRequest (command : Nat)
  | sidebandRegisterRead (offset length : Nat)
  | powerOn
  | tileStart
  | vauxFail
  | supplyStageEnter (stage vinMv : Nat)
  | supplyStageEnd (stage vinMv : Nat)
  | supplyReset (high : Bool)
  | powerCapAction (measure : PowerMeasure) (input100us input1s stall : Nat)
  | powerCapRelease
  | thermalStep (tj : Nat)
  | thermalRecover (tj : Nat)
  | thermalTrip (tj : Nat)
  | thermalTripRelease
  | deviceQuiet
  | quietIdleTimer
  | powerStateEntryDone
  | knownEventWake
  | p3PollWake
  | p3PollHoldEnd
  | wakeArrival (arrival : Arrival)
  | wakeDone
  | pwrCtrlWrite (fn value : Nat)
  | srefclkLoss
  | auxclkLoss
  | hrefclkLoss (half : Nat)
  | logBudgetWindow
  | telemetrySnapshot (begun : Bool)
  | captureClear (by_ : Requester) (source : Nat)
  | alertClear (by_ : Requester)
  | logReadAdvance (by_ : Requester) (read : Nat)
  | evtRingEnable (fn value : Nat)
  | evtRingDisable (fn value : Nat)
  | tillSnap (fn pitch : Nat)
  | tillClear (fn pitch : Nat) (snapFirst : Bool)
  | registerWrite (fn offset size value : Nat)
  | abtoserFault
  | liveActivationTimeout (core : Nat)
  | onfiVccqOvercurrent
  | remoteHoldRelease (peer pitch record : Nat)
  | replicaWithdraw (scope : Nat) (key : Bytes)
  | busMasterEnableWrite (fn : Nat) (on : Bool)
  | cxlBisnpResponse (half line : Nat) (data : Option Bytes)
  | serdesEqSettled (port : Nat)
  | registerRead (by_ : Requester) (offset size : Nat)
  deriving DecidableEq, Repr

end Sys2Proof
end

