-- ==== Sys2Proof/Machine/RegTable.lean ====
section
/-! DEFINITION. The field tables: for every field its register, lowest bit, width, access code, reset source,
reset kind and what its counter does at the top, as the table of its rule in spec/ gives them. -/
namespace Sys2Proof

/-- The row of the field table of each field. (DESIGN CHOICE: log entry 1.) -/
def Fld.desc : Fld → FldDesc
  | .hallDeviceInfoPart => ⟨.hallDeviceInfo, 0, 8, .ro, .fuse, .fuse, .wrap⟩
  | .hallDeviceInfoStackMask => ⟨.hallDeviceInfo, 8, 8, .ro, .fuse, .fuse, .wrap⟩
  | .hallDeviceInfoDieStep => ⟨.hallDeviceInfo, 16, 8, .ro, .fuse, .fuse, .wrap⟩
  | .hallDeviceInfoStallCount => ⟨.hallDeviceInfo, 24, 8, .ro, .fuse, .fuse, .wrap⟩
  | .hallDeviceInfoDeviceId => ⟨.hallDeviceInfo, 32, 10, .ro, .plan, .full, .wrap⟩
  | .hallStallRetiredRetired => ⟨.hallStallRetired, 0, 32, .ro, .const 0, .powerOn, .wrap⟩
  | .hallRateRateMeas => ⟨.hallRate, 0, 12, .ro, .const 0, .full, .wrap⟩
  | .hallRateRateTarget => ⟨.hallRate, 12, 12, .ro, .const 2000, .full, .wrap⟩
  | .hallRateLimit => ⟨.hallRate, 24, 4, .ro, .const 0, .full, .wrap⟩
  | .hallLocalTimeNs => ⟨.hallLocalTime, 0, 64, .ro, .const 0, .full, .wrap⟩
  | .pitchLedgerQuota => ⟨.pitchLedger, 0, 17, .ro, .plan, .full, .wrap⟩
  | .pitchLedgerInUse => ⟨.pitchLedger, 17, 17, .ro, .const 0, .pitch, .wrap⟩
  | .pitchLedgerParked => ⟨.pitchLedger, 34, 17, .ro, .const 0, .pitch, .wrap⟩
  | .pitchLedgerDamagedDamaged => ⟨.pitchLedgerDamaged, 0, 17, .ro, .const 0, .pitch, .wrap⟩
  | .hallSealStatSeals => ⟨.hallSealStat, 0, 32, .ro, .const 0, .full, .wrap⟩
  | .hallSealStatSealWaits => ⟨.hallSealStat, 32, 16, .ro, .const 0, .full, .sat⟩
  | .hallSealStatSealsRaw => ⟨.hallSealStat, 48, 16, .ro, .const 0, .full, .sat⟩
  | .pitchAttendStatParts => ⟨.pitchAttendStat, 0, 32, .ro, .const 0, .pitch, .wrap⟩
  | .pitchAttendStatNarrow => ⟨.pitchAttendStat, 32, 16, .ro, .const 0, .pitch, .sat⟩
  | .pitchAttendStatNarrowKeys => ⟨.pitchAttendStat, 48, 16, .ro, .const 0, .pitch, .sat⟩
  | .pitchAttendFaultEmptyTokens => ⟨.pitchAttendFault, 0, 16, .ro, .const 0, .pitch, .sat⟩
  | .pitchAttendFaultPoisoned => ⟨.pitchAttendFault, 16, 16, .ro, .const 0, .pitch, .sat⟩
  | .pitchAttendFaultPeerLost => ⟨.pitchAttendFault, 32, 16, .ro, .const 0, .pitch, .sat⟩
  | .pitchAttendFaultSaturated => ⟨.pitchAttendFault, 48, 16, .ro, .const 0, .pitch, .sat⟩
  | .stallPassesPasses => ⟨.stallPasses, 0, 32, .ro, .const 0, .full, .wrap⟩
  | .stallPassesGrouped => ⟨.stallPasses, 32, 32, .ro, .const 0, .full, .wrap⟩
  | .hallReplayStatSharedReads => ⟨.hallReplayStat, 0, 32, .ro, .const 0, .full, .wrap⟩
  | .hallReplayStatReplays => ⟨.hallReplayStat, 32, 32, .ro, .const 0, .full, .wrap⟩
  | .stallWeighStatMerges => ⟨.stallWeighStat, 0, 32, .ro, .const 0, .full, .wrap⟩
  | .stallWeighStatStripeMerges => ⟨.stallWeighStat, 32, 16, .ro, .const 0, .full, .wrap⟩
  | .hallTtStatusActive => ⟨.hallTtStatus, 0, 1, .ro, .plan, .full, .wrap⟩
  | .hallTtStatusPending => ⟨.hallTtStatus, 1, 1, .ro, .const 0, .full, .wrap⟩
  | .hallTtStatusPendingTable => ⟨.hallTtStatus, 2, 1, .ro, .const 0, .full, .wrap⟩
  | .hallTtStatusSlot => ⟨.hallTtStatus, 4, 6, .ro, .const 0, .full, .wrap⟩
  | .hallTtStatusCycles => ⟨.hallTtStatus, 32, 32, .ro, .const 0, .full, .wrap⟩
  | .hallTtLayoutSlotsA => ⟨.hallTtLayout, 0, 7, .ro, .plan, .full, .wrap⟩
  | .hallTtLayoutSlotsB => ⟨.hallTtLayout, 8, 7, .ro, .plan, .full, .wrap⟩
  | .hallTtLayoutCycleA => ⟨.hallTtLayout, 16, 14, .ro, .plan, .full, .wrap⟩
  | .hallTtLayoutCycleB => ⟨.hallTtLayout, 32, 14, .ro, .plan, .full, .wrap⟩
  | .hallTtSlotEntry => ⟨.hallTtSlot, 0, 256, .ro, .plan, .full, .wrap⟩
  | .pitchClientClientId => ⟨.pitchClient, 0, 16, .ro, .plan, .full, .wrap⟩
  | .pitchClientValid => ⟨.pitchClient, 16, 1, .ro, .plan, .full, .wrap⟩
  | .pitchClientRt => ⟨.pitchClient, 17, 1, .ro, .plan, .full, .wrap⟩
  | .pitchDispatchCfgSaveSlots => ⟨.pitchDispatchCfg, 0, 16, .ro, .plan, .full, .wrap⟩
  | .pitchDispatchCfgAffSlack => ⟨.pitchDispatchCfg, 16, 8, .ro, .plan, .full, .wrap⟩
  | .pitchDispatchCfgGrace => ⟨.pitchDispatchCfg, 24, 8, .ro, .plan, .full, .wrap⟩
  | .pitchDispatchCfgSwapMin => ⟨.pitchDispatchCfg, 32, 16, .ro, .plan, .full, .wrap⟩
  | .pitchSaveUseReserved => ⟨.pitchSaveUse, 0, 16, .ro, .const 0, .pitch, .wrap⟩
  | .pitchSaveUseSaved => ⟨.pitchSaveUse, 16, 16, .ro, .const 0, .pitch, .wrap⟩
  | .stallCtxSlotState => ⟨.stallCtx, 0, 8, .ro, .const 0, .full, .wrap⟩
  | .stallCtxClass => ⟨.stallCtx, 8, 4, .ro, .const 15, .full, .wrap⟩
  | .stallCtxPitch => ⟨.stallCtx, 12, 4, .ro, .plan, .full, .wrap⟩
  | .stallCtxQueued => ⟨.stallCtx, 16, 16, .ro, .const 0, .full, .sat⟩
  | .stallCtxStatSavesPreempt => ⟨.stallCtxStat, 0, 16, .ro, .const 0, .full, .sat⟩
  | .stallCtxStatSavesHandover => ⟨.stallCtxStat, 16, 16, .ro, .const 0, .full, .sat⟩
  | .stallCtxStatSavesBlocked => ⟨.stallCtxStat, 32, 16, .ro, .const 0, .full, .sat⟩
  | .stallCtxStatRestores => ⟨.stallCtxStat, 48, 16, .ro, .const 0, .full, .sat⟩
  | .pitchTillCtrlSnap => ⟨.pitchTillCtrl, 0, 1, .wo, .const 0, .pitch, .wrap⟩
  | .pitchTillCtrlClear => ⟨.pitchTillCtrl, 1, 1, .wo, .const 0, .pitch, .wrap⟩
  | .pitchTillWaitWaitSum => ⟨.pitchTillWait, 0, 64, .ro, .const 0, .pitch, .wrap⟩
  | .pitchTillWaitWaitMax => ⟨.pitchTillWait, 64, 32, .ro, .const 0, .pitch, .sat⟩
  | .pitchTillWaitParts => ⟨.pitchTillWait, 96, 32, .ro, .const 0, .pitch, .wrap⟩
  | .pitchTillHistCount => ⟨.pitchTillHist, 0, 32, .ro, .const 0, .pitch, .sat⟩
  | .pitchTillPreemptPreempts => ⟨.pitchTillPreempt, 0, 32, .ro, .const 0, .pitch, .wrap⟩
  | .pitchTillPreemptBlockedSwaps => ⟨.pitchTillPreempt, 32, 32, .ro, .const 0, .pitch, .wrap⟩
  | .pitchTillPreemptSaveTime => ⟨.pitchTillPreempt, 64, 64, .ro, .const 0, .pitch, .wrap⟩
  | .pitchPrefixCfgScope => ⟨.pitchPrefixCfg, 0, 16, .ro, .plan, .full, .wrap⟩
  | .pitchPrefixCfgResultSlots => ⟨.pitchPrefixCfg, 16, 7, .ro, .plan, .full, .wrap⟩
  | .pitchPrefixCfgResultKib => ⟨.pitchPrefixCfg, 32, 14, .ro, .plan, .full, .wrap⟩
  | .pitchPrefixBaseResultBase => ⟨.pitchPrefixBase, 0, 32, .ro, .plan, .full, .wrap⟩
  | .pitchPrefixStatLookups => ⟨.pitchPrefixStat, 0, 32, .ro, .const 0, .pitch, .wrap⟩
  | .pitchPrefixStatPagesHit => ⟨.pitchPrefixStat, 32, 32, .ro, .const 0, .pitch, .wrap⟩
  | .pitchPrefixPubPagesAdded => ⟨.pitchPrefixPub, 0, 32, .ro, .const 0, .pitch, .wrap⟩
  | .pitchPrefixPubDiffers => ⟨.pitchPrefixPub, 32, 16, .ro, .const 0, .pitch, .sat⟩
  | .pitchPrefixPubPeerLost => ⟨.pitchPrefixPub, 48, 16, .ro, .const 0, .pitch, .sat⟩
  | .hallStockCfgEpoch => ⟨.hallStockCfg, 0, 32, .ro, .plan, .full, .wrap⟩
  | .hallStockCfgHotPop => ⟨.hallStockCfg, 32, 16, .ro, .plan, .full, .wrap⟩
  | .hallStockCfgPopHalf => ⟨.hallStockCfg, 48, 8, .ro, .plan, .full, .wrap⟩
  | .hallStockCfgOrphan => ⟨.hallStockCfg, 56, 8, .ro, .plan, .full, .wrap⟩
  | .hallStockStatEntries => ⟨.hallStockStat, 0, 28, .ro, .const 0, .full, .wrap⟩
  | .hallStockStatReplicas => ⟨.hallStockStat, 28, 24, .ro, .const 0, .full, .wrap⟩
  | .hallStockStatEpochMiss => ⟨.hallStockStat, 52, 12, .ro, .const 0, .full, .sat⟩
  | .hallStockLostLost => ⟨.hallStockLost, 0, 32, .ro, .const 0, .full, .wrap⟩
  | .pitchTierCfgPolicy => ⟨.pitchTierCfg, 0, 1, .ro, .plan, .full, .wrap⟩
  | .pitchTierCfgPinClass => ⟨.pitchTierCfg, 4, 4, .ro, .plan, .full, .wrap⟩
  | .pitchTierCfgPromoteRefs => ⟨.pitchTierCfg, 8, 8, .ro, .plan, .full, .wrap⟩
  | .pitchTierCfgBorrowMax => ⟨.pitchTierCfg, 16, 8, .ro, .plan, .full, .wrap⟩
  | .pitchTierCfgLendGib => ⟨.pitchTierCfg, 24, 8, .ro, .plan, .full, .wrap⟩
  | .pitchTierCfgLeadInit => ⟨.pitchTierCfg, 32, 15, .ro, .plan, .full, .wrap⟩
  | .pitchTierCfgEvictFreeMib => ⟨.pitchTierCfg, 48, 16, .ro, .plan, .full, .wrap⟩
  | .pitchTierCapCrateGib => ⟨.pitchTierCap, 0, 16, .ro, .plan, .full, .wrap⟩
  | .pitchTierCapFetchReserve => ⟨.pitchTierCap, 16, 8, .ro, .plan, .full, .wrap⟩
  | .pitchTierCapFlashGib => ⟨.pitchTierCap, 24, 24, .ro, .plan, .full, .wrap⟩
  | .pitchTierUseDramUsed => ⟨.pitchTierUse, 0, 16, .ro, .const 0, .pitch, .wrap⟩
  | .pitchTierUsePinned => ⟨.pitchTierUse, 16, 16, .ro, .const 0, .pitch, .wrap⟩
  | .pitchTierUseFlashUsed => ⟨.pitchTierUse, 32, 24, .ro, .const 0, .pitch, .wrap⟩
  | .pitchTierUseLeases => ⟨.pitchTierUse, 56, 8, .ro, .const 0, .pitch, .wrap⟩
  | .pitchTierPoolPoolSize => ⟨.pitchTierPool, 0, 24, .ro, .const 0, .pitch, .wrap⟩
  | .pitchTierPoolPoolUsed => ⟨.pitchTierPool, 24, 24, .ro, .const 0, .pitch, .wrap⟩
  | .pitchTierPoolDropped => ⟨.pitchTierPool, 48, 16, .ro, .const 0, .pitch, .sat⟩
  | .pitchHawkStatLead => ⟨.pitchHawkStat, 0, 15, .ro, .leadInit, .full, .wrap⟩
  | .pitchHawkStatLate => ⟨.pitchHawkStat, 16, 16, .ro, .const 0, .pitch, .sat⟩
  | .pitchHawkStatFetches => ⟨.pitchHawkStat, 32, 32, .ro, .const 0, .pitch, .wrap⟩
  | .hallTierStallWaits => ⟨.hallTierStall, 0, 32, .ro, .const 0, .full, .wrap⟩
  | .flashBudgetDailyGib => ⟨.flashBudget, 0, 24, .ro, .plan, .full, .wrap⟩
  | .flashBudgetTokensGib => ⟨.flashBudget, 24, 24, .ro, .const 0, .full, .wrap⟩
  | .flashBudgetOverdraftGib => ⟨.flashBudget, 48, 16, .ro, .const 0, .full, .sat⟩
  | .flashHealthRetries => ⟨.flashHealth, 0, 16, .ro, .const 0, .full, .sat⟩
  | .flashHealthSoft => ⟨.flashHealth, 16, 16, .ro, .const 0, .full, .sat⟩
  | .flashHealthUncorrectable => ⟨.flashHealth, 32, 16, .ro, .const 0, .full, .sat⟩
  | .flashHealthBlocksMarked => ⟨.flashHealth, 48, 16, .ro, .const 0, .full, .sat⟩
  | .flashWearEraseMin => ⟨.flashWear, 0, 16, .ro, .const 0, .full, .sat⟩
  | .flashWearEraseMax => ⟨.flashWear, 16, 16, .ro, .const 0, .full, .sat⟩
  | .flashWearFreeZones => ⟨.flashWear, 32, 16, .ro, .const 0, .full, .sat⟩
  | .flashWearGcZones => ⟨.flashWear, 48, 16, .ro, .const 0, .full, .wrap⟩
  | .hallLeaseLent => ⟨.hallLease, 0, 8, .ro, .const 0, .full, .wrap⟩
  | .hallLeaseBorrowed => ⟨.hallLease, 8, 8, .ro, .const 0, .full, .wrap⟩
  | .hallLeaseRecalls => ⟨.hallLease, 16, 16, .ro, .const 0, .full, .sat⟩
  | .hallLeaseDeadlineMissed => ⟨.hallLease, 32, 16, .ro, .const 0, .full, .sat⟩
  | .hallLeaseDirtyMib => ⟨.hallLease, 48, 16, .ro, .const 0, .full, .wrap⟩
  | .hallDramRetiredFrames => ⟨.hallDramRetired, 0, 10, .ro, .const 0, .powerOn, .wrap⟩
  | .hallDramRetiredFull => ⟨.hallDramRetired, 10, 1, .ro, .const 0, .powerOn, .wrap⟩
  | .hallTableStoreUsed => ⟨.hallTableStore, 0, 10, .ro, .const 0, .full, .wrap⟩
  | .hallTableStoreRestored => ⟨.hallTableStore, 10, 10, .ro, .const 0, .full, .wrap⟩
  | .hallTableStoreRefused => ⟨.hallTableStore, 20, 16, .ro, .const 0, .full, .sat⟩
  | .hallTableStoreFetched => ⟨.hallTableStore, 36, 16, .ro, .const 0, .full, .sat⟩
  | .pitchPackCfgTableQuota => ⟨.pitchPackCfg, 0, 10, .ro, .plan, .full, .wrap⟩
  | .pitchPackCfgActiveMax => ⟨.pitchPackCfg, 10, 4, .ro, .plan, .full, .wrap⟩
  | .pitchPackCfgDeltaPairs => ⟨.pitchPackCfg, 16, 4, .ro, .plan, .full, .wrap⟩
  | .pitchPackCfgDeltaBaseGib => ⟨.pitchPackCfg, 32, 8, .ro, .plan, .full, .wrap⟩
  | .pitchDeltaPairVarFp => ⟨.pitchDeltaPair, 0, 64, .ro, .plan, .full, .wrap⟩
  | .pitchDeltaPairVarAdapter => ⟨.pitchDeltaPair, 64, 16, .ro, .plan, .full, .wrap⟩
  | .pitchDeltaPairBaseFp => ⟨.pitchDeltaPair, 80, 64, .ro, .plan, .full, .wrap⟩
  | .pitchDeltaPairBaseAdapter => ⟨.pitchDeltaPair, 144, 16, .ro, .plan, .full, .wrap⟩
  | .pitchDeltaPairValid => ⟨.pitchDeltaPair, 160, 1, .ro, .plan, .full, .wrap⟩
  | .pitchPackStatCoded => ⟨.pitchPackStat, 0, 32, .ro, .const 0, .pitch, .wrap⟩
  | .pitchPackStatRawK => ⟨.pitchPackStat, 32, 16, .ro, .const 0, .pitch, .sat⟩
  | .pitchPackStatTablesMade => ⟨.pitchPackStat, 48, 16, .ro, .const 0, .pitch, .sat⟩
  | .pitchDeltaStatDependants => ⟨.pitchDeltaStat, 0, 32, .ro, .const 0, .pitch, .wrap⟩
  | .pitchDeltaStatBases => ⟨.pitchDeltaStat, 32, 16, .ro, .const 0, .pitch, .sat⟩
  | .pitchDeltaStatRebased => ⟨.pitchDeltaStat, 48, 16, .ro, .const 0, .pitch, .sat⟩
  | .hallUnpackStatStarve => ⟨.hallUnpackStat, 0, 32, .ro, .const 0, .full, .wrap⟩
  | .hallUnpackStatLaneBound => ⟨.hallUnpackStat, 32, 32, .ro, .const 0, .full, .wrap⟩
  | .fabTransportCfgUdpPort => ⟨.fabTransportCfg, 0, 16, .ro, .plan, .full, .wrap⟩
  | .fabTransportCfgMaxPayload => ⟨.fabTransportCfg, 16, 2, .ro, .plan, .full, .wrap⟩
  | .fabTransportCfgIpv4 => ⟨.fabTransportCfg, 18, 1, .ro, .plan, .full, .wrap⟩
  | .fabTransportCfgStrangerThresh => ⟨.fabTransportCfg, 32, 16, .ro, .plan, .full, .wrap⟩
  | .fabTransportCfgRetryMax => ⟨.fabTransportCfg, 48, 8, .ro, .plan, .full, .wrap⟩
  | .fabConnCfgPeer => ⟨.fabConnCfg, 0, 12, .ro, .plan, .full, .wrap⟩
  | .fabConnCfgPeerConn => ⟨.fabConnCfg, 12, 16, .ro, .plan, .full, .wrap⟩
  | .fabConnCfgPitch => ⟨.fabConnCfg, 28, 4, .ro, .plan, .full, .wrap⟩
  | .fabConnCfgMode => ⟨.fabConnCfg, 32, 1, .ro, .plan, .full, .wrap⟩
  | .fabConnCfgValid => ⟨.fabConnCfg, 33, 1, .ro, .plan, .full, .wrap⟩
  | .fabConnCfgService => ⟨.fabConnCfg, 34, 1, .ro, .plan, .full, .wrap⟩
  | .fabConnCfgPathsM1 => ⟨.fabConnCfg, 35, 6, .ro, .plan, .full, .wrap⟩
  | .fabConnCfgPortMask => ⟨.fabConnCfg, 41, 8, .ro, .plan, .full, .wrap⟩
  | .fabConnCfgEgressQueue => ⟨.fabConnCfg, 49, 5, .ro, .plan, .full, .wrap⟩
  | .fabConnStateState => ⟨.fabConnState, 0, 2, .ro, .const 0, .full, .wrap⟩
  | .fabConnStateHot => ⟨.fabConnState, 2, 1, .ro, .const 0, .full, .wrap⟩
  | .fabConnStateEpochDrops => ⟨.fabConnState, 3, 13, .ro, .const 0, .full, .sat⟩
  | .fabConnStateInflight => ⟨.fabConnState, 16, 9, .ro, .const 0, .full, .wrap⟩
  | .fabConnStateRetx => ⟨.fabConnState, 32, 16, .ro, .const 0, .full, .sat⟩
  | .fabConnStateRtoUs => ⟨.fabConnState, 48, 16, .ro, .const 20, .full, .sat⟩
  | .fabWinUseQuota => ⟨.fabWinUse, 0, 19, .ro, .plan, .full, .wrap⟩
  | .fabWinUseOpen => ⟨.fabWinUse, 19, 19, .ro, .const 0, .pitch, .wrap⟩
  | .fabWinUseRevokes => ⟨.fabWinUse, 38, 16, .ro, .const 0, .pitch, .sat⟩
  | .fabRxStatFrames => ⟨.fabRxStat, 0, 32, .ro, .const 0, .port, .wrap⟩
  | .fabRxStatIngressOvf => ⟨.fabRxStat, 32, 16, .ro, .const 0, .port, .sat⟩
  | .fabRxStatStrangers => ⟨.fabRxStat, 48, 16, .ro, .const 0, .port, .sat⟩
  | .fabOrderStatPfHeld => ⟨.fabOrderStat, 0, 12, .ro, .const 0, .full, .wrap⟩
  | .fabOrderStatPfFull => ⟨.fabOrderStat, 16, 16, .ro, .const 0, .full, .sat⟩
  | .fabOrderStatRoHeld => ⟨.fabOrderStat, 32, 9, .ro, .const 0, .full, .wrap⟩
  | .fabOrderStatRoDrops => ⟨.fabOrderStat, 48, 16, .ro, .const 0, .port, .sat⟩
  | .fabReliabilityRetx => ⟨.fabReliability, 0, 32, .ro, .const 0, .port, .wrap⟩
  | .fabReliabilityRtoExpiries => ⟨.fabReliability, 32, 16, .ro, .const 0, .port, .sat⟩
  | .fabReliabilityNaksSent => ⟨.fabReliability, 48, 16, .ro, .const 0, .port, .sat⟩
  | .fabCcCfgTarget => ⟨.fabCcCfg, 0, 10, .ro, .plan, .full, .wrap⟩
  | .fabCcCfgAi => ⟨.fabCcCfg, 10, 6, .ro, .plan, .full, .wrap⟩
  | .fabCcCfgBeta => ⟨.fabCcCfg, 16, 8, .ro, .plan, .full, .wrap⟩
  | .fabCcCfgHoldUs => ⟨.fabCcCfg, 24, 10, .ro, .plan, .full, .wrap⟩
  | .fabCcCfgAvoidN => ⟨.fabCcCfg, 34, 4, .ro, .plan, .full, .wrap⟩
  | .fabCcCfgCwndMax => ⟨.fabCcCfg, 38, 12, .ro, .plan, .full, .wrap⟩
  | .fabCcCfgInit => ⟨.fabCcCfg, 50, 12, .ro, .plan, .full, .wrap⟩
  | .fabConnCcCwnd => ⟨.fabConnCc, 0, 32, .ro, .init, .full, .wrap⟩
  | .fabConnCcBaseRtt => ⟨.fabConnCc, 32, 16, .ro, .const 0, .full, .sat⟩
  | .fabConnCcQdelay => ⟨.fabConnCc, 48, 16, .ro, .const 0, .full, .sat⟩
  | .fabConnCcAvoided => ⟨.fabConnCc, 64, 64, .ro, .const 0, .full, .wrap⟩
  | .fabEgressCfgWeight => ⟨.fabEgressCfg, 0, 8, .ro, .plan, .full, .wrap⟩
  | .fabEgressCfgDscp => ⟨.fabEgressCfg, 8, 6, .ro, .plan, .full, .wrap⟩
  | .fabEgressCfgPcp => ⟨.fabEgressCfg, 14, 3, .ro, .plan, .full, .wrap⟩
  | .fabEgressCfgBurstKib => ⟨.fabEgressCfg, 32, 11, .ro, .plan, .full, .wrap⟩
  | .fabShaperRateMbps => ⟨.fabShaper, 0, 20, .ro, .plan, .full, .wrap⟩
  | .fabShaperBurst => ⟨.fabShaper, 32, 25, .ro, .plan, .full, .wrap⟩
  | .fabAssocCfgRekeyAt => ⟨.fabAssocCfg, 0, 6, .ro, .plan, .full, .wrap⟩
  | .fabAssocCfgRekeyAge => ⟨.fabAssocCfg, 8, 8, .ro, .plan, .full, .wrap⟩
  | .fabAssocStateState => ⟨.fabAssocState, 0, 2, .ro, .const 0, .full, .wrap⟩
  | .fabAssocStateKeyPhase => ⟨.fabAssocState, 2, 1, .ro, .const 0, .full, .wrap⟩
  | .fabAssocStateRekeying => ⟨.fabAssocState, 3, 1, .ro, .const 0, .full, .wrap⟩
  | .fabAssocStateRekeys => ⟨.fabAssocState, 16, 16, .ro, .const 0, .full, .sat⟩
  | .fabAssocStateAuthFail => ⟨.fabAssocState, 32, 16, .ro, .const 0, .full, .sat⟩
  | .fabAssocStateReplayDup => ⟨.fabAssocState, 48, 8, .ro, .const 0, .full, .sat⟩
  | .fabAssocStateReplayOld => ⟨.fabAssocState, 56, 8, .ro, .const 0, .full, .sat⟩
  | .fabPortCfgSpeed => ⟨.fabPortCfg, 0, 3, .ro, .plan, .full, .wrap⟩
  | .fabPortCfgLaneClass => ⟨.fabPortCfg, 3, 1, .ro, .plan, .full, .wrap⟩
  | .fabPortCfgLinkTrain => ⟨.fabPortCfg, 4, 1, .ro, .plan, .full, .wrap⟩
  | .fabPortCfgUncorrMax => ⟨.fabPortCfg, 8, 8, .ro, .plan, .full, .wrap⟩
  | .fabPortStatusState => ⟨.fabPortStatus, 0, 3, .ro, .const 0, .port, .wrap⟩
  | .fabPortStatusCause => ⟨.fabPortStatus, 3, 3, .ro, .const 0, .full, .wrap⟩
  | .fabPortStatusFailedLane => ⟨.fabPortStatus, 6, 2, .ro, .const 0, .full, .wrap⟩
  | .fabPortStatusEqSettled => ⟨.fabPortStatus, 8, 1, .ro, .const 0, .port, .wrap⟩
  | .fabPortStatusLinkDowns => ⟨.fabPortStatus, 16, 16, .ro, .const 0, .full, .sat⟩
  | .fabPortStatusMacCtrl => ⟨.fabPortStatus, 32, 16, .ro, .const 0, .port, .sat⟩
  | .fabPortCtrlReset => ⟨.fabPortCtrl, 0, 1, .wo, .const 0, .full, .wrap⟩
  | .fabLaneStatFecCorr => ⟨.fabLaneStat, 0, 32, .ro, .const 0, .port, .wrap⟩
  | .fabLaneStatFecUncorr => ⟨.fabLaneStat, 32, 16, .ro, .const 0, .port, .sat⟩
  | .fabLaneStatEyeMargin => ⟨.fabLaneStat, 48, 8, .ro, .const 0, .port, .wrap⟩
  | .pciLinkUp => ⟨.pciLink, 0, 1, .ro, .const 0, .full, .wrap⟩
  | .pciLinkRate => ⟨.pciLink, 1, 3, .ro, .const 0, .full, .wrap⟩
  | .pciLinkWidth => ⟨.pciLink, 4, 5, .ro, .const 0, .full, .wrap⟩
  | .pciLinkCxl => ⟨.pciLink, 9, 2, .ro, .const 0, .full, .wrap⟩
  | .pciLinkBif => ⟨.pciLink, 11, 1, .ro, .const 0, .full, .wrap⟩
  | .pciLinkDowns => ⟨.pciLink, 32, 16, .ro, .const 0, .full, .sat⟩
  | .pciFnStatusWedged => ⟨.pciFnStatus, 0, 1, .ro, .const 0, .full, .wrap⟩
  | .pciFnStatusBmeOff => ⟨.pciFnStatus, 1, 1, .ro, .const 0, .full, .wrap⟩
  | .pciFnStatusVectors => ⟨.pciFnStatus, 2, 11, .ro, .plan, .full, .wrap⟩
  | .pciRingCfgEnable => ⟨.pciRingCfg, 0, 1, .rw, .const 0, .pitch, .wrap⟩
  | .pciRingCfgSubLoc => ⟨.pciRingCfg, 1, 1, .rw, .const 0, .pitch, .wrap⟩
  | .pciRingCfgCompLoc => ⟨.pciRingCfg, 2, 1, .rw, .const 0, .pitch, .wrap⟩
  | .pciRingCfgFabric => ⟨.pciRingCfg, 3, 1, .rw, .const 0, .pitch, .wrap⟩
  | .pciRingCfgSizeLog2 => ⟨.pciRingCfg, 4, 4, .rw, .const 6, .pitch, .wrap⟩
  | .pciRingCfgVector => ⟨.pciRingCfg, 8, 11, .rw, .const 2047, .pitch, .wrap⟩
  | .pciRingCfgCoalN => ⟨.pciRingCfg, 19, 8, .rw, .const 0, .pitch, .wrap⟩
  | .pciRingCfgCoalUs => ⟨.pciRingCfg, 32, 16, .rw, .const 0, .pitch, .wrap⟩
  | .pciRingCfgConn => ⟨.pciRingCfg, 48, 16, .rw, .const 0, .pitch, .wrap⟩
  | .pciRingCfgCompWin => ⟨.pciRingCfg, 64, 32, .rw, .const 0, .pitch, .wrap⟩
  | .pciRingCfgCompOffset => ⟨.pciRingCfg, 96, 32, .rw, .const 0, .pitch, .wrap⟩
  | .pciRingAddrSubAddr => ⟨.pciRingAddr, 0, 64, .rw, .const 0, .pitch, .wrap⟩
  | .pciRingAddrCompAddr => ⟨.pciRingAddr, 64, 64, .rw, .const 0, .pitch, .wrap⟩
  | .pciRingStateHead => ⟨.pciRingState, 0, 14, .ro, .const 0, .pitch, .wrap⟩
  | .pciRingStateState => ⟨.pciRingState, 14, 2, .ro, .const 0, .pitch, .wrap⟩
  | .pciRingStateTail => ⟨.pciRingState, 16, 14, .ro, .const 0, .pitch, .wrap⟩
  | .pciRingStateCompTail => ⟨.pciRingState, 32, 14, .ro, .const 0, .pitch, .wrap⟩
  | .pciRingStatePhase => ⟨.pciRingState, 46, 1, .ro, .const 1, .pitch, .wrap⟩
  | .pciRingStateCause => ⟨.pciRingState, 48, 3, .ro, .const 0, .pitch, .wrap⟩
  | .pciRingStateHeld => ⟨.pciRingState, 51, 13, .ro, .const 0, .pitch, .wrap⟩
  | .pciHwinBase => ⟨.pciHwin, 0, 64, .rw, .const 0, .pitch, .wrap⟩
  | .pciHwinLength => ⟨.pciHwin, 64, 48, .rw, .const 0, .pitch, .wrap⟩
  | .pciHwinRead => ⟨.pciHwin, 112, 1, .rw, .const 0, .pitch, .wrap⟩
  | .pciHwinWrite => ⟨.pciHwin, 113, 1, .rw, .const 0, .pitch, .wrap⟩
  | .pciChitRangeBase => ⟨.pciChitRange, 0, 14, .ro, .plan, .full, .wrap⟩
  | .pciChitRangeCount => ⟨.pciChitRange, 14, 14, .ro, .plan, .full, .wrap⟩
  | .pciChitRangeTrigQuota => ⟨.pciChitRange, 32, 13, .ro, .plan, .full, .wrap⟩
  | .pciChitRangeTrigArmed => ⟨.pciChitRange, 48, 13, .ro, .const 0, .pitch, .wrap⟩
  | .pciCxlStatTracked => ⟨.pciCxlStat, 0, 21, .ro, .const 0, .full, .wrap⟩
  | .pciCxlStatPoisoned => ⟨.pciCxlStat, 32, 16, .ro, .const 0, .full, .sat⟩
  | .pciCxlStatLosses => ⟨.pciCxlStat, 48, 16, .ro, .const 0, .full, .sat⟩
  | .secModeConf => ⟨.secMode, 0, 1, .ro, .plan, .full, .wrap⟩
  | .secModeConfChanged => ⟨.secMode, 1, 1, .ro, .const 0, .full, .wrap⟩
  | .secModeRotSvn => ⟨.secMode, 8, 8, .ro, .fuse, .fuse, .wrap⟩
  | .secPitchStateState => ⟨.secPitchState, 0, 3, .ro, .const 0, .full, .wrap⟩
  | .secPitchStateVolatile => ⟨.secPitchState, 3, 1, .ro, .const 0, .full, .wrap⟩
  | .secPitchStateStep => ⟨.secPitchState, 4, 3, .ro, .const 0, .full, .wrap⟩
  | .secPitchStateEpoch => ⟨.secPitchState, 8, 32, .ro, .const 0, .full, .wrap⟩
  | .secPitchStateUntrusted => ⟨.secPitchState, 40, 8, .ro, .const 0, .full, .sat⟩
  | .secPitchStateReleaseMs => ⟨.secPitchState, 48, 16, .ro, .const 0, .full, .sat⟩
  | .secPitchTenantTenantId => ⟨.secPitchTenant, 0, 256, .ro, .const 0, .full, .wrap⟩
  | .secPitchLayoutStalls => ⟨.secPitchLayout, 0, 32, .ro, .plan, .full, .wrap⟩
  | .secPitchLayoutStacks => ⟨.secPitchLayout, 32, 8, .ro, .plan, .full, .wrap⟩
  | .secPitchLayoutGranules => ⟨.secPitchLayout, 40, 10, .ro, .plan, .full, .wrap⟩
  | .secPitchLayoutHallBanks => ⟨.secPitchLayout, 50, 7, .ro, .plan, .full, .wrap⟩
  | .secPitchLayoutRingArea => ⟨.secPitchLayout, 57, 7, .ro, .plan, .full, .wrap⟩
  | .secPeerTrustTrusted => ⟨.secPeerTrust, 0, 1, .ro, .const 0, .full, .wrap⟩
  | .secPeerTrustCause => ⟨.secPeerTrust, 1, 2, .ro, .const 0, .full, .wrap⟩
  | .secPeerTrustFails => ⟨.secPeerTrust, 16, 16, .ro, .const 0, .full, .sat⟩
  | .secCertBufData => ⟨.secCertBuf, 0, 32768, .rw, .const 0, .full, .wrap⟩
  | .secBootStage => ⟨.secBoot, 0, 4, .ro, .const 0, .full, .wrap⟩
  | .secBootCode => ⟨.secBoot, 4, 8, .ro, .const 0, .full, .wrap⟩
  | .secBootFallbackRot => ⟨.secBoot, 12, 1, .ro, .const 0, .full, .wrap⟩
  | .secBootFallbackFw => ⟨.secBoot, 13, 1, .ro, .const 0, .full, .wrap⟩
  | .secBootFallbackPlan => ⟨.secBoot, 14, 1, .ro, .const 0, .full, .wrap⟩
  | .secBootBootMs => ⟨.secBoot, 16, 16, .ro, .const 0, .full, .wrap⟩
  | .secBootReplayMs => ⟨.secBoot, 32, 16, .ro, .const 0, .full, .sat⟩
  | .secBootFatalHoldMs => ⟨.secBoot, 48, 16, .ro, .plan, .full, .wrap⟩
  | .secImageVersion => ⟨.secImage, 0, 32, .ro, .const 0, .full, .wrap⟩
  | .secImageSvn => ⟨.secImage, 32, 8, .ro, .const 0, .full, .wrap⟩
  | .secImageFusedSvn => ⟨.secImage, 40, 8, .ro, .fuse, .fuse, .wrap⟩
  | .secImageSlot => ⟨.secImage, 48, 1, .ro, .const 0, .full, .wrap⟩
  | .secImageTrial => ⟨.secImage, 49, 1, .ro, .const 0, .full, .wrap⟩
  | .secImageStaged => ⟨.secImage, 50, 1, .ro, .const 0, .powerOn, .wrap⟩
  | .secImageStagedVersion => ⟨.secImage, 64, 32, .ro, .const 0, .powerOn, .wrap⟩
  | .secImageStagedSvn => ⟨.secImage, 96, 8, .ro, .const 0, .powerOn, .wrap⟩
  | .secFwCtrlLiveActivate => ⟨.secFwCtrl, 0, 1, .wo, .const 0, .full, .wrap⟩
  | .secFwCtrlConfirm => ⟨.secFwCtrl, 1, 1, .wo, .const 0, .full, .wrap⟩
  | .secFwCtrlActState => ⟨.secFwCtrl, 4, 4, .ro, .const 0, .full, .wrap⟩
  | .secFwCtrlActCore => ⟨.secFwCtrl, 8, 8, .ro, .const 0, .full, .wrap⟩
  | .hallCoreState => ⟨.hallCore, 0, 2, .ro, .const 0, .full, .wrap⟩
  | .hallCoreRestarts => ⟨.hallCore, 8, 8, .ro, .const 0, .full, .sat⟩
  | .hallCoreCause => ⟨.hallCore, 16, 4, .ro, .const 0, .full, .wrap⟩
  | .hallCoreLastUs => ⟨.hallCore, 32, 16, .ro, .const 0, .full, .sat⟩
  | .pwrSupplyVinMv => ⟨.pwrSupply, 0, 16, .ro, .const 0, .full, .wrap⟩
  | .pwrSupplyVauxMv => ⟨.pwrSupply, 16, 12, .ro, .const 0, .full, .wrap⟩
  | .pwrSupplyVcoreMv => ⟨.pwrSupply, 28, 12, .ro, .const 0, .full, .wrap⟩
  | .pwrSupplyTj => ⟨.pwrSupply, 40, 8, .ro, .const 0, .full, .wrap⟩
  | .pwrPowerInput100us => ⟨.pwrPower, 0, 16, .ro, .const 0, .full, .wrap⟩
  | .pwrPowerInput1s => ⟨.pwrPower, 16, 16, .ro, .const 0, .full, .wrap⟩
  | .pwrPowerStall => ⟨.pwrPower, 32, 16, .ro, .const 0, .full, .wrap⟩
  | .pwrPowerDram => ⟨.pwrPower, 48, 16, .ro, .const 0, .full, .wrap⟩
  | .pwrLimitBurst => ⟨.pwrLimit, 0, 16, .ro, .const 0, .full, .sat⟩
  | .pwrLimitSustained => ⟨.pwrLimit, 16, 16, .ro, .const 0, .full, .sat⟩
  | .pwrLimitStallCap => ⟨.pwrLimit, 32, 16, .ro, .const 0, .full, .sat⟩
  | .pwrLimitThermal => ⟨.pwrLimit, 48, 16, .ro, .const 0, .full, .sat⟩
  | .pwrStageStage => ⟨.pwrStage, 0, 3, .ro, .const 0, .full, .wrap⟩
  | .pwrStageDips => ⟨.pwrStage, 8, 16, .ro, .const 0, .full, .sat⟩
  | .pwrStageStageD => ⟨.pwrStage, 24, 16, .ro, .const 0, .full, .sat⟩
  | .pwrStageBusyPower => ⟨.pwrStage, 40, 16, .ro, .const 0, .full, .sat⟩
  | .pwrCtrlMaxState => ⟨.pwrCtrl, 0, 2, .rw, .const 2, .full, .wrap⟩
  | .pwrCtrlDeepIdle => ⟨.pwrCtrl, 2, 2, .rw, .const 1, .full, .wrap⟩
  | .pwrCtrlP3PollMs => ⟨.pwrCtrl, 4, 12, .rw, .const 100, .full, .wrap⟩
  | .pwrStateState => ⟨.pwrState, 0, 2, .ro, .const 0, .full, .wrap⟩
  | .pwrStateLateWakes => ⟨.pwrState, 16, 16, .ro, .const 0, .full, .sat⟩
  | .pwrStateNextEventUs => ⟨.pwrState, 32, 32, .ro, .const 0, .full, .sat⟩
  | .pwrStateStatP1Entries => ⟨.pwrStateStat, 0, 32, .ro, .const 0, .full, .wrap⟩
  | .pwrStateStatP2Entries => ⟨.pwrStateStat, 32, 32, .ro, .const 0, .full, .wrap⟩
  | .pwrStateStatP3Entries => ⟨.pwrStateStat, 64, 32, .ro, .const 0, .full, .wrap⟩
  | .pwrStateStatResidencyMs => ⟨.pwrStateStat, 96, 32, .ro, .const 0, .full, .wrap⟩
  | .pwrResetCauseCause => ⟨.pwrResetCause, 0, 4, .ro, .const 0, .powerOn, .wrap⟩
  | .pwrResetCauseFullResets => ⟨.pwrResetCause, 16, 16, .ro, .const 0, .powerOn, .sat⟩
  | .pwrResetCauseSupplyResets => ⟨.pwrResetCause, 32, 16, .ro, .const 0, .powerOn, .sat⟩
  | .errCaptureValid => ⟨.errCapture, 0, 1, .rw1c, .const 0, .powerOn, .wrap⟩
  | .errCaptureSeverity => ⟨.errCapture, 1, 3, .ro, .const 0, .powerOn, .wrap⟩
  | .errCaptureOverwrote => ⟨.errCapture, 4, 1, .ro, .const 0, .powerOn, .wrap⟩
  | .errCaptureCode => ⟨.errCapture, 8, 16, .ro, .const 0, .powerOn, .wrap⟩
  | .errCapturePitch => ⟨.errCapture, 24, 4, .ro, .const 0, .powerOn, .wrap⟩
  | .errCapturePitchValid => ⟨.errCapture, 28, 1, .ro, .const 0, .powerOn, .wrap⟩
  | .errCaptureMore => ⟨.errCapture, 32, 16, .ro, .const 0, .powerOn, .sat⟩
  | .errCaptureBoot => ⟨.errCapture, 48, 16, .ro, .const 0, .powerOn, .wrap⟩
  | .errCaptureTime => ⟨.errCapture, 64, 64, .ro, .const 0, .powerOn, .wrap⟩
  | .errCaptureDetail0 => ⟨.errCapture, 128, 64, .ro, .const 0, .powerOn, .wrap⟩
  | .errCaptureDetail1 => ⟨.errCapture, 192, 64, .ro, .const 0, .powerOn, .wrap⟩
  | .errSourceStatSuppressed => ⟨.errSourceStat, 0, 32, .ro, .const 0, .powerOn, .wrap⟩
  | .errSourceStatDropped => ⟨.errSourceStat, 32, 16, .ro, .const 0, .powerOn, .sat⟩
  | .errSourceStatLogged => ⟨.errSourceStat, 48, 16, .ro, .const 0, .powerOn, .sat⟩
  | .errLogPtrWrite => ⟨.errLogPtr, 0, 11, .ro, .const 0, .powerOn, .wrap⟩
  | .errLogPtrRead => ⟨.errLogPtr, 16, 11, .rw, .const 0, .powerOn, .wrap⟩
  | .errLogPtrOverwritten => ⟨.errLogPtr, 32, 16, .ro, .const 0, .powerOn, .sat⟩
  | .errLogPtrMarkers => ⟨.errLogPtr, 48, 16, .ro, .const 0, .powerOn, .sat⟩
  | .errAlarmAlert => ⟨.errAlarm, 0, 1, .rw1c, .const 0, .powerOn, .wrap⟩
  | .errAlarmFatal => ⟨.errAlarm, 1, 1, .ro, .const 0, .full, .wrap⟩
  | .errAlarmAlarmVector => ⟨.errAlarm, 16, 11, .ro, .plan, .full, .wrap⟩
  | .errEvtCfgEnable => ⟨.errEvtCfg, 0, 1, .rw, .const 0, .pitch, .wrap⟩
  | .errEvtCfgLoc => ⟨.errEvtCfg, 1, 1, .rw, .const 0, .pitch, .wrap⟩
  | .errEvtCfgSizeLog2 => ⟨.errEvtCfg, 2, 4, .rw, .const 6, .pitch, .wrap⟩
  | .errEvtCfgVector => ⟨.errEvtCfg, 6, 11, .rw, .const 2047, .pitch, .wrap⟩
  | .errEvtCfgAddr => ⟨.errEvtCfg, 64, 64, .rw, .const 0, .pitch, .wrap⟩
  | .errEvtStateHead => ⟨.errEvtState, 0, 14, .rw, .const 0, .pitch, .wrap⟩
  | .errEvtStateTail => ⟨.errEvtState, 16, 14, .ro, .const 0, .pitch, .wrap⟩
  | .errEvtStatePhase => ⟨.errEvtState, 30, 1, .ro, .const 1, .pitch, .wrap⟩
  | .errEvtStateLost => ⟨.errEvtState, 32, 16, .ro, .const 0, .pitch, .sat⟩
  | .errTelemCtrlLevel => ⟨.errTelemCtrl, 0, 2, .rw, .plan, .full, .wrap⟩
  | .errTelemCtrlTrace => ⟨.errTelemCtrl, 2, 1, .rw, .plan, .full, .wrap⟩
  | .errTelemCtrlShed => ⟨.errTelemCtrl, 3, 1, .ro, .const 0, .full, .wrap⟩
  | .errTelemCtrlTelemSizeLog2 => ⟨.errTelemCtrl, 4, 4, .rw, .const 0, .full, .wrap⟩
  | .errTelemCtrlTraceSizeLog2 => ⟨.errTelemCtrl, 8, 4, .rw, .const 0, .full, .wrap⟩
  | .errTelemCtrlMissed => ⟨.errTelemCtrl, 16, 16, .ro, .const 0, .full, .sat⟩
  | .errTelemCtrlTraceDrops => ⟨.errTelemCtrl, 32, 16, .ro, .const 0, .full, .sat⟩
  | .errTelemAddrTelemAddr => ⟨.errTelemAddr, 0, 64, .rw, .const 0, .full, .wrap⟩
  | .errTelemAddrTraceAddr => ⟨.errTelemAddr, 64, 64, .rw, .const 0, .full, .wrap⟩

/-- The fields of each register, lowest bit first. -/
def Reg.flds : Reg → List Fld
  | .hallDeviceInfo => [.hallDeviceInfoPart, .hallDeviceInfoStackMask, .hallDeviceInfoDieStep, .hallDeviceInfoStallCount, .hallDeviceInfoDeviceId]
  | .hallStallRetired => [.hallStallRetiredRetired]
  | .hallRate => [.hallRateRateMeas, .hallRateRateTarget, .hallRateLimit]
  | .hallLocalTime => [.hallLocalTimeNs]
  | .pitchLedger => [.pitchLedgerQuota, .pitchLedgerInUse, .pitchLedgerParked]
  | .pitchLedgerDamaged => [.pitchLedgerDamagedDamaged]
  | .hallSealStat => [.hallSealStatSeals, .hallSealStatSealWaits, .hallSealStatSealsRaw]
  | .pitchAttendStat => [.pitchAttendStatParts, .pitchAttendStatNarrow, .pitchAttendStatNarrowKeys]
  | .pitchAttendFault => [.pitchAttendFaultEmptyTokens, .pitchAttendFaultPoisoned, .pitchAttendFaultPeerLost, .pitchAttendFaultSaturated]
  | .stallPasses => [.stallPassesPasses, .stallPassesGrouped]
  | .hallReplayStat => [.hallReplayStatSharedReads, .hallReplayStatReplays]
  | .stallWeighStat => [.stallWeighStatMerges, .stallWeighStatStripeMerges]
  | .hallTtStatus => [.hallTtStatusActive, .hallTtStatusPending, .hallTtStatusPendingTable, .hallTtStatusSlot, .hallTtStatusCycles]
  | .hallTtLayout => [.hallTtLayoutSlotsA, .hallTtLayoutSlotsB, .hallTtLayoutCycleA, .hallTtLayoutCycleB]
  | .hallTtSlot => [.hallTtSlotEntry]
  | .pitchClient => [.pitchClientClientId, .pitchClientValid, .pitchClientRt]
  | .pitchDispatchCfg => [.pitchDispatchCfgSaveSlots, .pitchDispatchCfgAffSlack, .pitchDispatchCfgGrace, .pitchDispatchCfgSwapMin]
  | .pitchSaveUse => [.pitchSaveUseReserved, .pitchSaveUseSaved]
  | .stallCtx => [.stallCtxSlotState, .stallCtxClass, .stallCtxPitch, .stallCtxQueued]
  | .stallCtxStat => [.stallCtxStatSavesPreempt, .stallCtxStatSavesHandover, .stallCtxStatSavesBlocked, .stallCtxStatRestores]
  | .pitchTillCtrl => [.pitchTillCtrlSnap, .pitchTillCtrlClear]
  | .pitchTillWait => [.pitchTillWaitWaitSum, .pitchTillWaitWaitMax, .pitchTillWaitParts]
  | .pitchTillHist => [.pitchTillHistCount]
  | .pitchTillPreempt => [.pitchTillPreemptPreempts, .pitchTillPreemptBlockedSwaps, .pitchTillPreemptSaveTime]
  | .pitchPrefixCfg => [.pitchPrefixCfgScope, .pitchPrefixCfgResultSlots, .pitchPrefixCfgResultKib]
  | .pitchPrefixBase => [.pitchPrefixBaseResultBase]
  | .pitchPrefixStat => [.pitchPrefixStatLookups, .pitchPrefixStatPagesHit]
  | .pitchPrefixPub => [.pitchPrefixPubPagesAdded, .pitchPrefixPubDiffers, .pitchPrefixPubPeerLost]
  | .hallStockCfg => [.hallStockCfgEpoch, .hallStockCfgHotPop, .hallStockCfgPopHalf, .hallStockCfgOrphan]
  | .hallStockStat => [.hallStockStatEntries, .hallStockStatReplicas, .hallStockStatEpochMiss]
  | .hallStockLost => [.hallStockLostLost]
  | .pitchTierCfg => [.pitchTierCfgPolicy, .pitchTierCfgPinClass, .pitchTierCfgPromoteRefs, .pitchTierCfgBorrowMax, .pitchTierCfgLendGib, .pitchTierCfgLeadInit, .pitchTierCfgEvictFreeMib]
  | .pitchTierCap => [.pitchTierCapCrateGib, .pitchTierCapFetchReserve, .pitchTierCapFlashGib]
  | .pitchTierUse => [.pitchTierUseDramUsed, .pitchTierUsePinned, .pitchTierUseFlashUsed, .pitchTierUseLeases]
  | .pitchTierPool => [.pitchTierPoolPoolSize, .pitchTierPoolPoolUsed, .pitchTierPoolDropped]
  | .pitchHawkStat => [.pitchHawkStatLead, .pitchHawkStatLate, .pitchHawkStatFetches]
  | .hallTierStall => [.hallTierStallWaits]
  | .flashBudget => [.flashBudgetDailyGib, .flashBudgetTokensGib, .flashBudgetOverdraftGib]
  | .flashHealth => [.flashHealthRetries, .flashHealthSoft, .flashHealthUncorrectable, .flashHealthBlocksMarked]
  | .flashWear => [.flashWearEraseMin, .flashWearEraseMax, .flashWearFreeZones, .flashWearGcZones]
  | .hallLease => [.hallLeaseLent, .hallLeaseBorrowed, .hallLeaseRecalls, .hallLeaseDeadlineMissed, .hallLeaseDirtyMib]
  | .hallDramRetired => [.hallDramRetiredFrames, .hallDramRetiredFull]
  | .hallTableStore => [.hallTableStoreUsed, .hallTableStoreRestored, .hallTableStoreRefused, .hallTableStoreFetched]
  | .pitchPackCfg => [.pitchPackCfgTableQuota, .pitchPackCfgActiveMax, .pitchPackCfgDeltaPairs, .pitchPackCfgDeltaBaseGib]
  | .pitchDeltaPair => [.pitchDeltaPairVarFp, .pitchDeltaPairVarAdapter, .pitchDeltaPairBaseFp, .pitchDeltaPairBaseAdapter, .pitchDeltaPairValid]
  | .pitchPackStat => [.pitchPackStatCoded, .pitchPackStatRawK, .pitchPackStatTablesMade]
  | .pitchDeltaStat => [.pitchDeltaStatDependants, .pitchDeltaStatBases, .pitchDeltaStatRebased]
  | .hallUnpackStat => [.hallUnpackStatStarve, .hallUnpackStatLaneBound]
  | .fabTransportCfg => [.fabTransportCfgUdpPort, .fabTransportCfgMaxPayload, .fabTransportCfgIpv4, .fabTransportCfgStrangerThresh, .fabTransportCfgRetryMax]
  | .fabConnCfg => [.fabConnCfgPeer, .fabConnCfgPeerConn, .fabConnCfgPitch, .fabConnCfgMode, .fabConnCfgValid, .fabConnCfgService, .fabConnCfgPathsM1, .fabConnCfgPortMask, .fabConnCfgEgressQueue]
  | .fabConnState => [.fabConnStateState, .fabConnStateHot, .fabConnStateEpochDrops, .fabConnStateInflight, .fabConnStateRetx, .fabConnStateRtoUs]
  | .fabWinUse => [.fabWinUseQuota, .fabWinUseOpen, .fabWinUseRevokes]
  | .fabRxStat => [.fabRxStatFrames, .fabRxStatIngressOvf, .fabRxStatStrangers]
  | .fabOrderStat => [.fabOrderStatPfHeld, .fabOrderStatPfFull, .fabOrderStatRoHeld, .fabOrderStatRoDrops]
  | .fabReliability => [.fabReliabilityRetx, .fabReliabilityRtoExpiries, .fabReliabilityNaksSent]
  | .fabCcCfg => [.fabCcCfgTarget, .fabCcCfgAi, .fabCcCfgBeta, .fabCcCfgHoldUs, .fabCcCfgAvoidN, .fabCcCfgCwndMax, .fabCcCfgInit]
  | .fabConnCc => [.fabConnCcCwnd, .fabConnCcBaseRtt, .fabConnCcQdelay, .fabConnCcAvoided]
  | .fabEgressCfg => [.fabEgressCfgWeight, .fabEgressCfgDscp, .fabEgressCfgPcp, .fabEgressCfgBurstKib]
  | .fabShaper => [.fabShaperRateMbps, .fabShaperBurst]
  | .fabAssocCfg => [.fabAssocCfgRekeyAt, .fabAssocCfgRekeyAge]
  | .fabAssocState => [.fabAssocStateState, .fabAssocStateKeyPhase, .fabAssocStateRekeying, .fabAssocStateRekeys, .fabAssocStateAuthFail, .fabAssocStateReplayDup, .fabAssocStateReplayOld]
  | .fabPortCfg => [.fabPortCfgSpeed, .fabPortCfgLaneClass, .fabPortCfgLinkTrain, .fabPortCfgUncorrMax]
  | .fabPortStatus => [.fabPortStatusState, .fabPortStatusCause, .fabPortStatusFailedLane, .fabPortStatusEqSettled, .fabPortStatusLinkDowns, .fabPortStatusMacCtrl]
  | .fabPortCtrl => [.fabPortCtrlReset]
  | .fabLaneStat => [.fabLaneStatFecCorr, .fabLaneStatFecUncorr, .fabLaneStatEyeMargin]
  | .pciLink => [.pciLinkUp, .pciLinkRate, .pciLinkWidth, .pciLinkCxl, .pciLinkBif, .pciLinkDowns]
  | .pciFnStatus => [.pciFnStatusWedged, .pciFnStatusBmeOff, .pciFnStatusVectors]
  | .pciRingCfg => [.pciRingCfgEnable, .pciRingCfgSubLoc, .pciRingCfgCompLoc, .pciRingCfgFabric, .pciRingCfgSizeLog2, .pciRingCfgVector, .pciRingCfgCoalN, .pciRingCfgCoalUs, .pciRingCfgConn, .pciRingCfgCompWin, .pciRingCfgCompOffset]
  | .pciRingAddr => [.pciRingAddrSubAddr, .pciRingAddrCompAddr]
  | .pciRingState => [.pciRingStateHead, .pciRingStateState, .pciRingStateTail, .pciRingStateCompTail, .pciRingStatePhase, .pciRingStateCause, .pciRingStateHeld]
  | .pciHwin => [.pciHwinBase, .pciHwinLength, .pciHwinRead, .pciHwinWrite]
  | .pciChitRange => [.pciChitRangeBase, .pciChitRangeCount, .pciChitRangeTrigQuota, .pciChitRangeTrigArmed]
  | .pciCxlStat => [.pciCxlStatTracked, .pciCxlStatPoisoned, .pciCxlStatLosses]
  | .secMode => [.secModeConf, .secModeConfChanged, .secModeRotSvn]
  | .secPitchState => [.secPitchStateState, .secPitchStateVolatile, .secPitchStateStep, .secPitchStateEpoch, .secPitchStateUntrusted, .secPitchStateReleaseMs]
  | .secPitchTenant => [.secPitchTenantTenantId]
  | .secPitchLayout => [.secPitchLayoutStalls, .secPitchLayoutStacks, .secPitchLayoutGranules, .secPitchLayoutHallBanks, .secPitchLayoutRingArea]
  | .secPeerTrust => [.secPeerTrustTrusted, .secPeerTrustCause, .secPeerTrustFails]
  | .secCertBuf => [.secCertBufData]
  | .secBoot => [.secBootStage, .secBootCode, .secBootFallbackRot, .secBootFallbackFw, .secBootFallbackPlan, .secBootBootMs, .secBootReplayMs, .secBootFatalHoldMs]
  | .secImage => [.secImageVersion, .secImageSvn, .secImageFusedSvn, .secImageSlot, .secImageTrial, .secImageStaged, .secImageStagedVersion, .secImageStagedSvn]
  | .secFwCtrl => [.secFwCtrlLiveActivate, .secFwCtrlConfirm, .secFwCtrlActState, .secFwCtrlActCore]
  | .hallCore => [.hallCoreState, .hallCoreRestarts, .hallCoreCause, .hallCoreLastUs]
  | .pwrSupply => [.pwrSupplyVinMv, .pwrSupplyVauxMv, .pwrSupplyVcoreMv, .pwrSupplyTj]
  | .pwrPower => [.pwrPowerInput100us, .pwrPowerInput1s, .pwrPowerStall, .pwrPowerDram]
  | .pwrLimit => [.pwrLimitBurst, .pwrLimitSustained, .pwrLimitStallCap, .pwrLimitThermal]
  | .pwrStage => [.pwrStageStage, .pwrStageDips, .pwrStageStageD, .pwrStageBusyPower]
  | .pwrCtrl => [.pwrCtrlMaxState, .pwrCtrlDeepIdle, .pwrCtrlP3PollMs]
  | .pwrState => [.pwrStateState, .pwrStateLateWakes, .pwrStateNextEventUs]
  | .pwrStateStat => [.pwrStateStatP1Entries, .pwrStateStatP2Entries, .pwrStateStatP3Entries, .pwrStateStatResidencyMs]
  | .pwrResetCause => [.pwrResetCauseCause, .pwrResetCauseFullResets, .pwrResetCauseSupplyResets]
  | .errCapture => [.errCaptureValid, .errCaptureSeverity, .errCaptureOverwrote, .errCaptureCode, .errCapturePitch, .errCapturePitchValid, .errCaptureMore, .errCaptureBoot, .errCaptureTime, .errCaptureDetail0, .errCaptureDetail1]
  | .errSourceStat => [.errSourceStatSuppressed, .errSourceStatDropped, .errSourceStatLogged]
  | .errLogPtr => [.errLogPtrWrite, .errLogPtrRead, .errLogPtrOverwritten, .errLogPtrMarkers]
  | .errLog => []
  | .errAlarm => [.errAlarmAlert, .errAlarmFatal, .errAlarmAlarmVector]
  | .errEvtCfg => [.errEvtCfgEnable, .errEvtCfgLoc, .errEvtCfgSizeLog2, .errEvtCfgVector, .errEvtCfgAddr]
  | .errEvtState => [.errEvtStateHead, .errEvtStateTail, .errEvtStatePhase, .errEvtStateLost]
  | .errTelemCtrl => [.errTelemCtrlLevel, .errTelemCtrlTrace, .errTelemCtrlShed, .errTelemCtrlTelemSizeLog2, .errTelemCtrlTraceSizeLog2, .errTelemCtrlMissed, .errTelemCtrlTraceDrops]
  | .errTelemAddr => [.errTelemAddrTelemAddr, .errTelemAddrTraceAddr]

/-- The value of a stall-plan field when the plan gives none ("n when the stall plan gives none" in its row; 0 elsewhere). -/
def Fld.planDefault : Fld → Nat
  | .pitchDispatchCfgAffSlack => 8
  | .pitchDispatchCfgGrace => 20
  | .pitchDispatchCfgSwapMin => 40
  | .pitchPrefixCfgResultSlots => 16
  | .pitchPrefixCfgResultKib => 256
  | .hallStockCfgHotPop => 64
  | .hallStockCfgPopHalf => 10
  | .hallStockCfgOrphan => 60
  | .pitchTierCfgPromoteRefs => 8
  | .pitchTierCfgLeadInit => 1000
  | .pitchTierCfgEvictFreeMib => 256
  | .pitchPackCfgActiveMax => 8
  | .pitchPackCfgDeltaBaseGib => 4
  | .fabTransportCfgStrangerThresh => 1000
  | .fabTransportCfgRetryMax => 8
  | .fabCcCfgTarget => 80
  | .fabCcCfgAi => 16
  | .fabCcCfgBeta => 128
  | .fabCcCfgHoldUs => 50
  | .fabCcCfgAvoidN => 2
  | .fabCcCfgCwndMax => 2048
  | .fabCcCfgInit => 256
  | .fabAssocCfgRekeyAt => 47
  | .fabAssocCfgRekeyAge => 24
  | .fabPortCfgUncorrMax => 16
  | .secBootFatalHoldMs => 1000
  | _ => 0

/-- The width of each register in bits (the heading of its rule). -/
def Reg.width : Reg → Nat
  | .hallDeviceInfo => 64
  | .hallStallRetired => 32
  | .hallRate => 32
  | .hallLocalTime => 64
  | .pitchLedger => 64
  | .pitchLedgerDamaged => 32
  | .hallSealStat => 64
  | .pitchAttendStat => 64
  | .pitchAttendFault => 64
  | .stallPasses => 64
  | .hallReplayStat => 64
  | .stallWeighStat => 64
  | .hallTtStatus => 64
  | .hallTtLayout => 64
  | .hallTtSlot => 256
  | .pitchClient => 32
  | .pitchDispatchCfg => 64
  | .pitchSaveUse => 32
  | .stallCtx => 32
  | .stallCtxStat => 64
  | .pitchTillCtrl => 32
  | .pitchTillWait => 128
  | .pitchTillHist => 32
  | .pitchTillPreempt => 128
  | .pitchPrefixCfg => 64
  | .pitchPrefixBase => 64
  | .pitchPrefixStat => 64
  | .pitchPrefixPub => 64
  | .hallStockCfg => 64
  | .hallStockStat => 64
  | .hallStockLost => 32
  | .pitchTierCfg => 64
  | .pitchTierCap => 64
  | .pitchTierUse => 64
  | .pitchTierPool => 64
  | .pitchHawkStat => 64
  | .hallTierStall => 32
  | .flashBudget => 64
  | .flashHealth => 64
  | .flashWear => 64
  | .hallLease => 64
  | .hallDramRetired => 32
  | .hallTableStore => 64
  | .pitchPackCfg => 64
  | .pitchDeltaPair => 256
  | .pitchPackStat => 64
  | .pitchDeltaStat => 64
  | .hallUnpackStat => 64
  | .fabTransportCfg => 64
  | .fabConnCfg => 64
  | .fabConnState => 64
  | .fabWinUse => 64
  | .fabRxStat => 64
  | .fabOrderStat => 64
  | .fabReliability => 64
  | .fabCcCfg => 64
  | .fabConnCc => 128
  | .fabEgressCfg => 64
  | .fabShaper => 64
  | .fabAssocCfg => 64
  | .fabAssocState => 64
  | .fabPortCfg => 64
  | .fabPortStatus => 64
  | .fabPortCtrl => 32
  | .fabLaneStat => 64
  | .pciLink => 64
  | .pciFnStatus => 32
  | .pciRingCfg => 128
  | .pciRingAddr => 128
  | .pciRingState => 64
  | .pciHwin => 128
  | .pciChitRange => 64
  | .pciCxlStat => 64
  | .secMode => 64
  | .secPitchState => 64
  | .secPitchTenant => 256
  | .secPitchLayout => 64
  | .secPeerTrust => 32
  | .secCertBuf => 32768
  | .secBoot => 64
  | .secImage => 128
  | .secFwCtrl => 32
  | .hallCore => 64
  | .pwrSupply => 64
  | .pwrPower => 64
  | .pwrLimit => 64
  | .pwrStage => 64
  | .pwrCtrl => 32
  | .pwrState => 64
  | .pwrStateStat => 128
  | .pwrResetCause => 64
  | .errCapture => 256
  | .errSourceStat => 64
  | .errLogPtr => 64
  | .errLog => 262144
  | .errAlarm => 32
  | .errEvtCfg => 128
  | .errEvtState => 64
  | .errTelemCtrl => 64
  | .errTelemAddr => 128

end Sys2Proof
end

