-- ==== Sys2Proof/Config.lean ====
section
/-! DEFINITION. What the specification leaves open: uninterpreted constants with no body, each applied to a plain
counter of State (State.fresh) or to the data it depends on. Nothing can evaluate them, so no statement rests on a
value of theirs. Each is named in a row of notes/assumptions. -/
namespace Sys2Proof.Config

/-- Where the hardware places a crate body, a save record or a table in DRAM or flash, in 4 KiB units: R630 says the
placement is not visible. (DESIGN CHOICE: log entry 11.) -/
opaque location : Nat → BitVec 44

/-- A random 64-bit word of the Abtoser's DRBG (R474, R492). (DESIGN CHOICE: log entry 73.) -/
opaque drbg : Nat → BitVec 64

/-- A byte of an output the specification names but does not lay out: the DER bytes of a certificate (R492), a PLDM
answer (R452). The arguments are the counter and the byte's index. (DESIGN CHOICE: log entry 12.) -/
opaque byte : Nat → Nat → BitVec 8

/-- The length in bytes of such an output. (DESIGN CHOICE: log entry 12.) -/
opaque length : Nat → Nat

/-- A page-table, directory or referrer address in the ledger entry image (R38): DRAM placement, not visible (R630).
(DESIGN CHOICE: log entry 11.) -/
opaque address : Nat → BitVec 64

/-- The value of a packet or message field whose value the specification leaves to the sender, and of a register
read while what it measures is not given. (DESIGN CHOICE: log entry 12.) -/
opaque word : Nat → BitVec 64

/-- Which of two zeros of opposite sign is the maximum of R111, R126 and R127: true for the second.
(DESIGN CHOICE: log entry 76.) -/
opaque maxOfZeros : BitVec 32 → BitVec 32 → Bool

/-- The condition code within a source (R570): the specification lists no codes but those of a stopped boot. The
argument numbers the conditions of R565. (DESIGN CHOICE: log entry 12.) -/
opaque code : Nat → BitVec 16

/-- The HMAC, key wrap and cipher outputs of the Abtoser, of which the specification gives inputs and algorithm names
but whose keys never leave the part (R473, R475). -/
opaque sealed : Nat → Nat → BitVec 8

/-- Whether an ECDSA P-384 signature verifies (R472): public key, message, signature. -/
opaque ecdsa : Bytes → Bytes → Bytes → Bool

/-- Whether the tag of a provisioning message verifies under the session key that its serial names (R472). -/
opaque provisionTag : Bytes → Bool

/-- A plaintext byte of a provisioning message's BODY (R471). -/
opaque provisionBody : Bytes → Nat → BitVec 8

end Sys2Proof.Config
end

