-- ==== Sys2Proof/Machine/State.lean ====
section
/-! DEFINITION. The state of the block, as plain data: its registers, memories, tables, queues and engines, and the
queue of commands that wait. Reset values: State.reset at the end. -/
namespace Sys2Proof.Machine

/-- The reasons the machine stops with a fault. -/
inductive Fault where
  /-- An operand names a unit that the part does not have (a stall past 31, a port past 7, a ring past 1,023 ...):
  the specification gives no such unit (R14, R402, R423). Raised by every command with a unit operand. Safe: no such
  event can arise in the hardware. -/
  | noSuchUnit
  deriving DecidableEq, Repr

/-- The reasons a step is refused. -/
inductive Refusal where
  /-- The model gives the command no meaning yet. Raised only by an arm of exec. Safe: nothing can be proved of it. -/
  | notModelled (mnemonic : String)
  deriving DecidableEq, Repr

/-- What exec and step answer. -/
abbrev Out (σ : Type) := Host.Outcome σ Fault Refusal

/-- The commands of the opcode table (R437). -/
inductive Opcode where
  | seqOpen | seqClose | seqPark | seqFork | attend | accept | hintStep
  | prefixLookup | prefixPublish | prefixDrop | winOpen | winRevoke
  | chitSet | chitAdd | chitWait | pitchBind | pitchRelease | timetableSelect | shaperSet | attest | fullReset
  deriving DecidableEq, Repr

/-- The status codes (R438). -/
inductive Status where
  | ok | busy | busyPower | badParam | badState | access | revoked | noSeq | exists_ | noSpace | limit
  | narrowKeys | poison | duplicateDiffers | peerLost | timeout | badOpcode | closing | cancelled
  deriving DecidableEq, Repr

/-- A page handle (R42). -/
structure Handle where
  tier     : Nat
  device   : Nat
  pitch    : Nat
  format   : Nat
  location : BitVec 44
  deriving DecidableEq, Repr

/-- One token in the barrow layout (R63): BF16 elements. -/
abbrev Token := List (BitVec 16)

/-- One block of a crate body (R57): for each token its scales and its element codes. -/
structure Block where
  scales : List (List Nat)
  elems  : List (List Nat)
  deriving DecidableEq, Repr

/-- A block directory entry (R60). -/
structure BlockDir where
  tableId  : Nat
  gen      : Nat
  codedLen : Nat
  mode     : Nat
  deriving DecidableEq, Repr

/-- How a fetch of a crate came to be queued (R241). -/
inductive FetchKind where
  | demand | scheduled | hinted
  deriving DecidableEq, Repr

/-- A fetch queued or in flight (R242 to R246). -/
structure Fetch where
  kind     : FetchKind
  tier     : Nat
  order    : Nat
  useTime  : Nat
  queuedAt : Nat
  /-- 1 once the fetch has its reserve space and is in flight. -/
  started  : Bool
  deriving DecidableEq, Repr

/-- Why a crate is being copied down (R254, R255, R267). -/
inductive CopyDown where
  | none | toLease (lease : Nat) | toFlash | dropDram
  deriving DecidableEq, Repr

/-- A copy of a crate that a move has left behind (R236): its handle, and the block directory and base it was coded with
(R301, R309). -/
structure Left where
  handle : Handle
  dir    : List BlockDir
  base   : Option Nat
  deriving DecidableEq, Repr

/-- A crate with its crate record (R59 to R62, R235): contents, coding, copies in each tier, and what is in progress. -/
structure Crate where
  id       : Nat
  pitch    : Nat
  layer    : Nat
  page     : Nat
  shape    : Shape
  body     : List Block
  digest   : Bytes
  /-- The block directory of the tier-1 copy, and that of the packed copies, which holds no delta (R287, R310). -/
  dir      : List BlockDir
  packDir  : List BlockDir
  base     : Option Nat
  readers  : Nat
  pinned   : Bool
  lastUse  : Nat
  hall     : Option Handle
  /-- The hall region of the tier-0 copy (R144). -/
  region   : Nat
  dram     : Option Handle
  stack    : Nat
  lease    : Option (Handle × Nat)
  flash    : Option Handle
  origin   : Option Handle
  /-- Copies that a move has left behind and that runs still read (R236). -/
  leaving  : List Left
  /-- Copies found unreadable whose slots runs still hold (R271). -/
  bad      : List Handle
  fetch    : Option Fetch
  reserve  : Bool
  /-- Set once a late tile has been counted for the copy a hinted fetch brought (R246). -/
  hinted   : Bool
  lateSeen : Bool
  arrived  : Nat
  useTime  : Nat
  copying  : CopyDown
  /-- A flash copy waits: 1 as the budget allows (WRITE_ON_SEAL, opportunistic), 2 in any case (R255, R261). -/
  flashWanted : Nat
  promoting : Bool
  /-- The base of a queued recode (R306). -/
  recoding : Option Nat
  rebasing : Bool
  deriving DecidableEq, Repr

/-- A barrow slot (R63). -/
structure BSlot where
  alloc   : Bool
  toks    : List Token
  readers : Nat
  /-- Runs still read a page that has left the slot (R74). -/
  stale   : Bool
  deriving DecidableEq, Repr

/-- A layer's directory entry with its page table (R44): crate numbers by local page index. -/
structure Layer where
  pages  : List (Option Nat)
  slot0  : BSlot
  slot1  : BSlot
  len    : Nat
  sealed : Nat
  cur    : Nat
  tent   : Nat
  sealing : Bool
  deriving DecidableEq, Repr

/-- Sequence states (R38, R40). -/
inductive SeqSt where
  | free | open_ | active | parked | closing | damaged
  deriving DecidableEq, Repr

/-- The hawker's own record of a hint (R239, R251). -/
structure Hint where
  next : Nat
  gap  : Nat
  deriving DecidableEq, Repr

/-- An import in progress (R78). -/
structure Import where
  cmd    : Nat
  tokens : Nat
  pagesLeft : Nat
  deriving DecidableEq, Repr

/-- A sequence: its ledger entry (R38) and its layers, key lists and placement memory. -/
structure Seq where
  uid      : Nat
  pitch    : Nat
  slot     : Nat
  id       : Nat
  st       : SeqSt
  cls      : Nat
  client   : Nat
  modelFp  : Nat
  adapter  : Nat
  shape    : Shape
  striped  : Bool
  members  : List Nat
  ownIndex : Nat
  layers   : List Layer
  lastAttend : Nat
  nextHint : Nat
  hint     : Option Hint
  sharedPages : Nat
  keys     : List Bytes
  baseKeys : List Bytes
  /-- Recodes queued for crates (R306): layer, page of the sequence, base crate. -/
  recodes  : List (Nat × Nat × Nat)
  import_  : Option Import
  fork     : Option Nat
  forkLen  : Nat
  forkFrom : Option Nat
  closer   : Option Nat
  /-- The state that a SEQ_CLOSE found (R85). -/
  closedFrom : SeqSt
  /-- Stalls of the first 64 runs of the last ATTEND (R144). -/
  lastStalls : List Nat
  /-- A hinted plan's fetches have been queued (R240). -/
  planned  : Bool
  deriving DecidableEq, Repr

/-- A seal in progress (R71). `fromSlot` is false for a page of an import. -/
structure Seal where
  id       : Nat
  seq      : Nat
  layer    : Nat
  page     : Nat
  toks     : List Token
  fromSlot : Bool
  crate    : Option Nat
  deriving DecidableEq, Repr

/-- A mask descriptor (R114). -/
structure Mask where
  rule    : Nat
  bitmap  : Bool
  rowBase : Nat
  bmRows  : Nat
  windowN : Nat
  spanStart : Nat
  spanLen : Nat
  bmWin   : Nat
  bmOffset : Nat
  bits    : Bytes
  deriving DecidableEq, Repr

/-- The form in which a work list reads a page (R72). -/
inductive TileSrc where
  | crate (id : Nat) (handle : Handle)
  | barrow (slot : Nat) (toks : List Token)
  /-- The crate of a page whose swap the run waits for. -/
  | awaitSwap
  deriving DecidableEq, Repr

/-- A tile of a work list (R31). -/
structure Tile where
  page : Nat
  src  : TileSrc
  deriving DecidableEq, Repr

/-- An FP32 value with the mark that some rounding behind it saturated (R106, R133). -/
structure Fp where
  b   : BitVec 32
  sat : Bool
  deriving DecidableEq, Repr

/-- A running partial of one row (R111): O, m, l. -/
structure Acc where
  o : List Fp
  m : Fp
  l : Fp
  deriving DecidableEq, Repr

/-- One sequence part of an ATTEND (R91, R98). -/
structure Part where
  seq     : Nat
  seqId   : Nat
  qtok    : Nat
  newtok  : Nat
  tentative : Bool
  outOff  : Nat
  /-- The status once it is decided; none while the part computes. -/
  status  : Option Status
  narrow  : Bool
  barrowRead : Bool
  qBase   : Nat
  qStep   : Bool
  held    : Nat
  /-- Query rows: token, then head, then BF16 or FP8 element codes. -/
  query   : List (List (List Nat))
  mask    : Mask
  /-- What the check of the bitmap window found, where it failed (R98). -/
  bmErr   : Option Status
  newToks : List Token
  /-- The part has not passed its state checks and appends yet (R34, R65, R125). -/
  waiting : Bool
  /-- This device has taken its own part of the work list, after its own append (R72, R125). -/
  taken   : Bool
  /-- The stalls of the sequence's last ATTEND, as they stood when this one was listed (R144). -/
  stallMemo : List Nat
  /-- The state check has passed, with P as R94 defines it. -/
  checked : Bool
  /-- Appends left, in position order: member, first position, tokens (R125). -/
  segs    : List (Nat × Nat × List Token)
  /-- The work list of the part: its runs, the barrow run last (R141), and the next one to fold (R126). -/
  runs    : List (List Tile)
  folded  : Nat
  arrived : List (Nat × List (Option Acc))
  acc     : List (Option Acc)
  /-- Striped: each other member with its state (0xFE not forwarded, 0xFF awaited, else the status it answered), and the
  partials by member (R127). -/
  mem     : List (Nat × Nat)
  stripe  : List (Nat × List PartialRow)
  keysRead : Nat
  lenAfter : Nat
  tentAfter : Nat
  /-- The sequence entry, query and mask bytes as a stripe's lead forwards them (R124). -/
  raw     : Bytes × Bytes × Bytes
  deriving DecidableEq, Repr

/-- An ATTEND in flight (R141, R142). -/
structure Attend where
  cmd     : Nat
  pitch   : Nat
  layer   : Nat
  qgroup  : Nat
  fp8     : Bool
  fp32Out : Bool
  minkp   : Nat
  strict  : Bool
  scale   : BitVec 32
  cap     : BitVec 32
  outWin  : Nat
  outOffset : Nat
  parts   : List Part
  /-- The work list has been built (R141). -/
  listed  : Bool
  /-- Client classes whose queue wait has been counted (R170). -/
  counted : List Nat
  /-- The forward of a stripe's lead that the part belongs to: first position and number of own new tokens (R124). -/
  lead    : Option (Nat × Nat)
  /-- Local times of work-list completion, first tile and last merge (R579). -/
  listedAt : Nat
  firstAt  : Option Nat
  mergedAt : Nat
  deriving DecidableEq, Repr

/-- A member run of a queued group (R119): part index, run index, query rows per KV head, tiles. -/
structure Run where
  part  : Nat
  index : Nat
  rows  : Nat
  tiles : List Tile
  deriving DecidableEq, Repr

/-- A run or group of runs as it queues on a stall (R144 to R146). -/
structure Work where
  cmd    : Nat
  pitch  : Nat
  cls    : Nat
  prio   : Nat
  entry  : Nat
  first  : Nat
  heads  : Nat
  fp8    : Bool
  runs   : List Run
  order  : Nat
  deriving DecidableEq, Repr

/-- Where a context is (R149, R163). -/
inductive CtxPlace where
  | resident (stall : Nat)
  | saving (stall : Nat)
  | saved (stall : Nat)
  | restoring (stall : Nat)
  deriving DecidableEq, Repr

/-- Why a context was saved (R171, R182). -/
inductive SaveWhy where
  | preempt | handover | blocked
  deriving DecidableEq, Repr

/-- A stall context (R148 to R152, R163). -/
structure Ctx where
  id     : Nat
  cmd    : Nat
  pitch  : Nat
  cls    : Nat
  slots  : Nat
  prio   : Nat
  order  : Nat
  place  : CtxPlace
  /-- The first of its adjacent slots (R148). -/
  base   : Nat
  work   : Option Work
  tile   : Nat
  head   : Nat
  pass   : Nat
  done   : Bool
  /-- Stops at its next tile boundary to be saved, and why. -/
  stop   : Option SaveWhy
  why    : SaveWhy
  since  : Nat
  savedOrder : Nat
  deriving DecidableEq, Repr

/-- A stall (R148, R181). -/
structure Stall where
  cls     : Nat
  queue   : List Work
  running : Option Nat
  /-- Running contexts of old classes in their grace, with its end (R157). -/
  grace   : List (Nat × Nat)
  deriving DecidableEq, Repr

/-- Live till counters of one client class of one pitch (R171). -/
structure Till where
  pitch   : Nat
  cls     : Nat
  waitSum : Nat
  waitMax : Nat
  parts   : Nat
  hist    : List Nat
  preempts : Nat
  swaps   : Nat
  saveTime : Nat
  deriving DecidableEq, Repr

/-- What a command waits for before it can start or end. -/
inductive Wait where
  | runnable | chained | fenced | core | started | reading (read : Nat) | park | dma | snoop | results
  deriving DecidableEq, Repr

/-- An accepted entry that its ring has not fetched yet (R147, R427). -/
structure Accepted where
  slot   : Nat
  order  : Nat
  at_    : Nat
  stageD : Bool
  deriving DecidableEq, Repr

/-- A fetched command that has not completed (R429, R435). -/
structure Cmd where
  id     : Nat
  ring   : Nat
  ringGen : Nat
  order  : Nat
  slot   : Nat
  op     : Opcode
  tag    : Nat
  chit   : Nat
  chain  : Nat
  entry  : Entry
  at_    : Nat
  stageD : Bool
  wait   : Wait
  /-- Remote operand data read so far: window, offset, bytes (R346). -/
  inputs : List (Nat × Nat × Bytes)
  /-- Remote operand reads that ended without data: window, offset, length, status. -/
  badIn  : List (Nat × Nat × Nat × Status)
  /-- Statuses of stripe members (R76): member, status code. -/
  members : List (Nat × Nat)
  /-- The peers of those members that it was forwarded to: member, peer. -/
  peers   : List (Nat × Nat)
  /-- The outcome of a fabric command whose result writes are not acknowledged yet (R369). -/
  outcome : Option (Status × Nat)
  /-- The sequences of an ATTEND's parts, once its body has been read (R84, R85). -/
  uses    : Option (List Nat)
  /-- What the test of R65 at acceptance found for a SEQ_OPEN: no space, or the bytes of the working pool it holds. -/
  room    : Option (Option Nat)
  deriving DecidableEq, Repr

/-- A completion that waits for room in its ring (R430). -/
structure Completion where
  slot   : Nat
  tag    : Nat
  status : Status
  result : Nat
  chit   : Nat
  deriving DecidableEq, Repr

/-- What a ring holds beside its registers (R427 to R431). -/
structure Ring where
  num      : Nat
  accepted : List Accepted
  freeSlots : List Nat
  unread   : Nat
  heldComps : List Completion
  coalCount : Nat
  coalSince : Nat
  written  : Nat
  /-- How often the ring has been enabled: a command fetched before posts nothing after (R424). -/
  gen      : Nat
  deriving DecidableEq, Repr

/-- An armed trigger (R444). -/
structure Trigger where
  cmd       : Nat
  owner     : Nat
  index     : Nat
  threshold : Nat
  action    : Nat
  vector    : Nat
  deadline  : Option Nat
  conn      : Nat
  window    : Nat
  releaseId : Nat
  offset    : Nat
  value     : Nat
  deriving DecidableEq, Repr

/-- An update that waits for the chit unit (R441). -/
inductive ChitOp where
  | set (index value : Nat)
  | add (index value : Nat)
  deriving DecidableEq, Repr

/-- A held handle in a result slot or page table: a local crate, or a remote copy's handle and record. -/
inductive Ref where
  | here (crate : Nat)
  | remote (handle : Handle)
  deriving DecidableEq, Repr

/-- A page record of a prefix result (R205). -/
structure PageRec where
  key    : Bytes
  digest : Bytes
  holder : Nat
  refs   : List Ref
  deriving DecidableEq, Repr

/-- A result slot that holds a result (R204). -/
structure Result where
  pitch   : Nat
  slot    : Nat
  modelFp : Nat
  adapter : Nat
  keyed   : Nat
  shape   : Shape
  truncated : Bool
  shardLost : Bool
  pages   : List PageRec
  /-- The handles of the pages' crates as they stand in the slot: a move rewrites those that it changes (R236). -/
  shown   : List Nat
  deriving DecidableEq, Repr

/-- A lookup whose chain waits for a probe or a hold answer (R202, R203). -/
structure Lookup where
  cmd     : Nat
  keys    : List Bytes
  pages   : List PageRec
  /-- Pages of the chain past those whose records fit in the slot (R206). -/
  past    : Nat
  shape   : Option Shape
  shardLost : Bool
  /-- The entry whose remote copies are being tried, and the copies left. -/
  tryEntry : Option StockEntry
  tryCopies : List Copy
  /-- The chain has ended and its result waits to be written. -/
  ended   : Bool
  deriving DecidableEq, Repr

/-- Where a publication record stands (R195, R197, R214). -/
inductive PubSt where
  | waitSwap | sent | standing | retry
  deriving DecidableEq, Repr

/-- A publication record (R197). -/
structure PubRec where
  id      : Nat
  pitch   : Nat
  seq     : Nat
  cmd     : Option Nat
  page    : Nat
  key     : Bytes
  digest  : Bytes
  scope   : Nat
  modelFp : Nat
  adapter : Nat
  crates  : List Nat
  st      : PubSt
  durable : Bool
  wantFlash : Bool
  since   : Nat
  /-- When an insert that met BUSY is sent again (R195). -/
  retryAt : Nat
  /-- The copy as the last insert described it was DURABLE (R198). -/
  sentDurable : Bool
  deriving DecidableEq, Repr

/-- A PREFIX_PUBLISH in progress: status and flags per page (R217, R218). -/
structure Publish where
  cmd    : Nat
  seq    : Nat
  first  : Nat
  pages  : List (Option Status × Bool × Bool × Nat)
  durableWait : Bool
  deriving DecidableEq, Repr

/-- A PREFIX_DROP in progress (R220): keys whose home has not answered (index and home device), and the worst answer so
far. -/
structure Drop where
  cmd     : Nat
  waiting : List (Nat × Nat)
  status  : Status
  deriving DecidableEq, Repr

/-- A hold this device granted to a peer on a copy's crates (R203, R209). -/
structure RemoteHold where
  peer   : Nat
  pitch  : Nat
  record : Nat
  crates : List Nat
  deriving DecidableEq, Repr

/-- A hold that a holder granted to this device, with the tier-4 handles of the copy's crates (R203, R209). -/
structure MyHold where
  device  : Nat
  pitch   : Nat
  record  : Nat
  handles : List Handle
  deriving DecidableEq, Repr

/-- Where a lease stands (R267, R483). -/
inductive LeaseSt where
  | asked | live | recalled | returning | dropAsked
  deriving DecidableEq, Repr

/-- A lease lent to or borrowed from a peer (R265 to R269). -/
structure Lease where
  id       : Nat
  lent     : Bool
  peer     : Nat
  pitch    : Nat
  window   : Nat
  granule  : Nat
  st       : LeaseSt
  deadline : Nat
  deriving DecidableEq, Repr

/-- A record of the table store (R291). -/
structure CodeTable where
  pitch   : Nat
  id      : Nat
  gen     : Nat
  wide    : Bool
  lengths : List Nat
  print   : Bytes
  current : Bool
  restored : Bool
  /-- USE has been above 0 since the table was restored (R315). -/
  risen   : Bool
  role    : Nat
  deriving DecidableEq, Repr

/-- An active list (R295). -/
structure ActiveList where
  pitch : Nat
  role  : Nat
  ids   : List Nat
  deriving DecidableEq, Repr

/-- A copy that a zone summary lists (R258): the crate, the first 16 KiB unit of the zone that it takes and how many, its
location, crate record and digest. -/
structure ZonePlace where
  crate    : Nat
  first    : Nat
  units    : Nat
  location : Nat
  record   : Bytes
  digest   : Bytes
  deriving DecidableEq, Repr

/-- A zone of a namespace (R258 to R260). `crates` are those whose present flash copy lies in it, `places` its summary. -/
structure Zone where
  pitch  : Nat
  id     : Nat
  state  : Nat       -- 0 free, 1 open for appends, 2 open for collection, 3 full
  crates : List Nat
  places : List ZonePlace
  units  : Nat
  filledAt : Nat
  erases : Nat
  /-- A block of the zone has been marked for relocation (R262). -/
  marked : Bool
  /-- The zone's block on a channel: its read-threshold offset, and how often it needed soft decoding (R262). -/
  blocks : List (Nat × Nat × Nat)
  /-- Written before the last reset (R315). -/
  old    : Bool
  deriving DecidableEq, Repr

/-- A catalogued sequence (R263). -/
structure CatSeq where
  pitch   : Nat
  seq     : Seq
  pages   : List (List Crate)
  damaged : Bool
  closing : Bool
  deriving DecidableEq, Repr

/-- What is journalled per namespace and device beside the sequences (R263, R315). -/
structure Catalogue where
  seqs    : List CatSeq
  tables  : List CodeTable
  records : List (PubRec × List Crate)
  homes   : List StockEntry
  /-- The records of the tier-4 copies held at their holders (R209). -/
  holds   : List MyHold
  deriving DecidableEq, Repr

/-- An Etlos window (R335 to R342). -/
structure Window where
  index  : Nat
  gen    : Nat
  pitch  : Nat
  kind   : Nat
  perms  : Nat
  conn   : Nat
  chit   : Nat
  base   : Nat
  length : Nat
  revoking : Bool
  waiters : List Nat
  deriving DecidableEq, Repr

/-- What an acknowledged message ends (R355, R369, R428, R445). -/
inductive Purpose where
  | none
  | completion (ring slot : Nat)
  | result (cmd : Nat)
  | remoteWrite (cmd : Nat)
  | readReq (read : Nat)
  deriving DecidableEq, Repr

/-- What a READ_RESP packet is checked against, and reads, as it leaves (R343, R347): the source window's handle and offset, how
many bytes, and the request's port, source port and MSG_ID. For the crate service `crate` is the pitch; the copy's bytes are at
hand, and only the pitch is checked (R244, R486). -/
structure Source where
  window : Nat
  offset : Nat
  bytes  : Nat
  port   : Nat
  udpSrc : Nat
  msgId  : Nat
  crate  : Option Nat
  deriving DecidableEq, Repr

/-- A packet this device has to send or has sent and not seen acknowledged. -/
structure TxPkt where
  conn    : Nat
  frame   : Frame
  purpose : Purpose
  path    : Option (Nat × Nat)
  sentAt  : Nat
  later   : Nat
  source  : Option Source := none
  deriving DecidableEq, Repr

/-- A frame that has left on a port: the DSCP and PCP of its queue (R391), its IP version, whether it carries an 802.1Q tag, the
bytes of its UDP and association headers, which travel in clear, and the plaintext that the association encrypts: Etlos header
and payload (R326 to R328, R396, R397). -/
structure Sent where
  frame : Frame
  dscp  : Nat
  /-- The ECN field of the IP header: every frame leaves as Not-ECT (R386). -/
  ecn   : Nat
  pcp   : Nat
  ipv4  : Bool
  tagged : Bool
  udp   : Bytes
  assoc : Bytes
  plain : Bytes
  deriving DecidableEq, Repr

/-- Round-trip state of one path value (R381, R385). -/
structure PathSt where
  value  : Nat
  cur    : Option Nat
  prev   : Option Nat
  above  : Nat
  avoidUntil : Nat
  deriving DecidableEq, Repr

/-- A connection's transport state (R330, R350 to R357, R382). -/
structure Conn where
  num     : Nat
  epoch   : Nat
  /-- The epoch of a RESYNC of this device that is not answered yet (R358). -/
  asked   : Option Nat
  txPsn   : Nat
  txCum   : Nat
  msgId   : Nat
  queued  : List TxPkt
  unacked : List TxPkt
  /-- Messages whose packets are all acknowledged and that wait for reverse packets up to NAK_HIGH (R355): message,
  purpose, NAK_HIGH. -/
  doneMsgs : List (Nat × Purpose × Nat)
  rotation : Nat
  rxCum   : Nat
  rxSeen  : List Nat
  refused : List Nat
  /-- NAKs sent: the PSN each took and the PSN it refuses (R353). -/
  naksOut : List (Nat × Nat)
  ackPending : Nat
  ackFrame : Option Frame
  ackAt   : Nat
  srtt    : Nat
  rttvar  : Nat
  rttSeen : Bool
  rto     : Nat
  expiries : Nat
  lastCut : Nat
  lastHalve : Nat
  paths   : List PathSt
  lastUse : Nat
  deriving DecidableEq, Repr

/-- What a remote read is for: an operand, a crate, a page of an import (R78, R244, R346). -/
inductive ReadFor where
  | operand (cmd window offset : Nat)
  | crate (id : Nat)
  | importPage (sealId : Nat)
  deriving DecidableEq, Repr

/-- A remote read this device has asked for (R244, R346). -/
structure Read where
  id    : Nat
  conn  : Nat
  msgId : Nat
  want  : ReadFor
  len   : Nat
  /-- First offset of the response (RESP_OFFSET). -/
  base  : Nat
  data  : List (Nat × Bytes)
  /-- The end of the response, once the packet with LAST is placed. -/
  endAt : Option Nat
  done  : Bool
  deriving DecidableEq, Repr

/-- A peer's association and reachability (R359, R395 to R400). -/
structure Peer where
  num       : Nat
  /-- The association id that the peer assigned at establishment (R396). -/
  assocId   : Nat
  reachable : Bool
  lastHeard : Nat
  probeAt   : Option Nat
  txCounter : Nat
  /-- Phase of the receive key in use, beside the next one when `nextReady` (R399). -/
  rxPhase   : Nat
  rxHigh    : Nat
  rxSeen    : List Nat
  nextReady : Bool
  oldPhase  : Bool
  oldHigh   : Nat
  oldSeen   : List Nat
  bornAt    : Nat
  rekeyAt   : Option Nat
  /-- Local time at which the last rekey exchange started (R400). -/
  startedAt : Nat
  failSaid  : Option Nat
  /-- A poll wake has probed the peer: its connections resynchronise when it answers (R547). -/
  polled    : Bool
  unreachableSince : Nat
  deriving DecidableEq, Repr

/-- An egress queue with its credit and tokens (R387 to R390). -/
structure EgressQ where
  frames  : List Frame
  deficit : Nat
  tokens  : Nat
  filled  : Nat
  deriving DecidableEq, Repr

/-- What a port holds beside its registers (R21, R364, R365, R388). -/
structure Port where
  egress  : List EgressQ
  round   : Nat
  ingress : List Frame
  /-- Held FINALs, and packets whose placement waits for a snoop (R364, R449). -/
  pending : List Frame
  reorder : List Frame
  strangersSec : Nat
  saidSec : Bool
  idle    : Bool
  retryAt : Nat
  deriving DecidableEq, Repr

/-- A message of the device's own on a service connection (R332), or between stripe members: the contents the
specification names. -/
inductive SvcMsg where
  | probe (epoch scope : Nat) (key : Bytes)
  | probeAnswer (entry : Option StockEntry)
  | insert (epoch : Nat) (entry : StockEntry) (copy : Copy)
  | insertAnswer (answer : InsertAnswer)
  | drop (epoch scope : Nat) (key : Bytes) (device pitch : Nat)
  | dropAnswer (busy : Bool)
  | durableMark (scope : Nat) (key : Bytes) (pitch : Nat)
  | replica (entry : StockEntry)
  | withdraw (scope : Nat) (key : Bytes)
  | hits (list : List (Nat × Bytes × Nat))
  | holdAsk (pitch record : Nat)
  | holdAnswer (handles : Option (List Handle))
  | holdRelease (pitch record : Nat)
  | tableAsk (print : Bytes)
  | tableAnswer (lengths : Option (List Nat))
  | leaseAsk (pitch : Nat)
  | leaseGrant (window : Nat)
  | leaseRefuse
  | leaseRecall (window deadline : Nat)
  | leaseRelease (window : Nat)
  | recallDrop (window : Nat)
  | recallDropDone (window : Nat)
  | forward (fwd : Forward)
  | forwardCmd (op : Opcode) (entry : Entry)
  | stripePartial (rows : List PartialRow) (narrow : Bool)
  | memberDone (done : MemberDone)
  | rekeyShare | installed | attestNonce
  deriving DecidableEq, Repr

/-- A tracked line of the CXL snoop filter (R449). -/
structure CxlLine where
  half  : Nat
  line  : Nat
  exclusive : Bool
  used  : Nat
  /-- A back-invalidate snoop is outstanding. -/
  snooped : Bool
  /-- Local time of the snoop (R449). -/
  snoopAt : Nat
  /-- What the host last read from the line, for a line of a LEDGER segment. -/
  image : Bytes
  deriving DecidableEq, Repr

/-- A binding record of the key area (R476). `wrapped` is the wrapped flash key, `intact` its KW integrity. -/
structure KeyRec where
  pitch    : Nat
  state    : Nat
  tenant   : Nat
  epoch    : Nat
  volatile : Bool
  conf     : Bool
  wrapped  : Option Nat
  intact   : Bool
  deriving DecidableEq, Repr

/-- A session key (R491): its scope, the serial number of its certificate, and when it was made. -/
structure Session where
  scope  : Nat
  serial : Bytes
  bornAt : Nat
  deriving DecidableEq, Repr

/-- What a certificate states (R492, R493), beside the bytes written. -/
structure Cert where
  scope   : Nat
  serial  : Bytes
  nonce   : Bytes
  debug   : Bool
  rotSvn  : Nat
  rotDigest  : Nat
  coreSvn    : Nat
  coreDigest : Nat
  planDigest : Nat
  /-- The 40 B vendorInfo of entry 3. -/
  record  : Bytes
  deriving DecidableEq, Repr

/-- A pitch release in progress (R483): the acceptance number at step 1, and the commands that wait for its end. -/
structure Release where
  pitch    : Nat
  startAt  : Nat
  startOrder : Nat
  drained  : Bool
  scrubbed : Bool
  waiters  : List Nat
  deriving DecidableEq, Repr

/-- A boot header copy (R503): active slot, TRIAL and trial count of each image kind, sequence number. -/
structure BootHdr where
  active : List Nat
  trial  : List Bool
  count  : List Nat
  seqNo  : Nat
  crcOk  : Bool
  deriving DecidableEq, Repr

/-- The configuration flash (R502) but for its key area, which is `keyArea` of the state. -/
structure Xspi where
  hdr0  : Option BootHdr
  hdr1  : Option BootHdr
  /-- Images by kind (0 Abtoser, 1 stallholder, 2 plan) and slot. -/
  slots : List (Nat × Nat × Image)
  deriving DecidableEq, Repr

/-- A stallholder (R516 to R521). -/
structure Core where
  restartAt : Nat
  /-- Local time at which it last became READY (R517). -/
  readyAt   : Nat
  newBank   : Bool
  cause     : Nat
  deriving DecidableEq, Repr

/-- Live activation of stallholder firmware (R523). -/
structure Live where
  active  : Bool
  copied  : Bool
  turn    : Nat
  live    : Bool
  oldImage : Option Image
  deriving DecidableEq, Repr

/-- Where the device is in its life (R530, R511, R520). -/
inductive Phase where
  | reset | stopped | running | fatalHold
  deriving DecidableEq, Repr

/-- Movement between power states (R542 to R549). -/
inductive PowerMove where
  | none | quiet | entering (state : Nat) | waking
  deriving DecidableEq, Repr

/-- The supply and power controllers (R530 to R549). -/
structure Power where
  vauxOk   : Bool
  tileOn   : Bool
  perst    : Bool
  tripped  : Bool
  onfiOff  : Bool
  straps   : Nat
  tempLimit : Nat
  capHeld  : Bool
  throttle : Nat
  move     : PowerMove
  quietAt  : Nat
  enteredAt : Nat
  event    : Option Nat
  pollAt   : Nat
  holdUntil : Nat
  stageAtEntry : Nat
  deriving DecidableEq, Repr

/-- A log entry (R570). -/
structure LogEntry where
  time    : Nat
  boot    : Nat
  source  : Nat
  kind    : Nat
  sev     : Nat
  code    : Nat
  pitch   : Option Nat
  detail0 : Nat
  detail1 : Nat
  deriving DecidableEq, Repr

/-- A source's log budget in the present window (R573). -/
structure Budget where
  source    : Nat
  /-- The whole second of local time whose window this is. -/
  second    : Nat
  written   : Nat
  corrected : Nat
  deriving DecidableEq, Repr

/-- The crier (R569 to R581). -/
structure Crier where
  log      : List (Nat × LogEntry)
  budgets  : List Budget
  dropped  : Nat
  dropAt   : Nat
  lostFns  : List Nat
  /-- Event entries posted and not yet consumed, by function (R574, R430). -/
  evtUnread : List (Nat × Nat)
  snapshots : Nat
  telemPos : Nat
  tracePos : Nat
  deriving DecidableEq, Repr

/-- Words a requester latched by reading the lowest word of a wide register (R615). -/
structure Latch where
  by_   : Requester
  reg   : Reg
  idx   : Nat
  value : Nat
  at_   : Nat
  deriving DecidableEq, Repr

/-- A write of the block toward host memory: a posted write, or an MSI-X message of a vector (R421, R429). -/
inductive DmaOut where
  | write (addr : Nat) (data : Bytes)
  | msix (vector : Nat)
  deriving DecidableEq, Repr

/-- What the sideband endpoint answered (R452, R628): register bytes, a sensor's reading, the outcome of a component's
verification, or bytes the specification does not lay out. -/
inductive SidebandMsg where
  | registers (data : Bytes)
  | reading (sensor value : Nat)
  | verified (ok : Bool)
  | other (data : Bytes)
  deriving DecidableEq, Repr

/-- A trace record (R579): what it holds. Its 32 bytes are not laid out. -/
structure Trace where
  pitch    : Nat
  ring     : Nat
  tag      : Nat
  accepted : Nat
  listed   : Nat
  first    : Nat
  merged   : Nat
  done     : Nat
  deriving DecidableEq, Repr

/-- The state of the block. -/
structure State where
  -- Commands that wait, first in first out.
  pending   : List Instr
  -- Time base, life, registers, plan, fuses.
  localTime : Nat
  phase     : Phase
  plan      : Plan
  fuses     : RegFile
  regs      : RegFile
  raw       : RegFile
  /-- The fields as they stood when the device last left P0 (R628). -/
  p0Regs    : RegFile
  ownerKeys : List (Option Nat × Bool)
  shodunRevoked : List Nat
  /-- The digests of the four Shodun key slots in ROM (R506). -/
  romKeys   : List Nat
  fresh     : Nat
  order     : Nat
  -- Memories: DRAM by pitch space, hall by hall offset, and the host's memory as DMA sees it.
  dram      : List Host.Cell
  hall      : List Host.Cell
  hostMem   : List Host.Cell
  -- Rings, commands, chits.
  rings     : List Ring
  cmds      : List Cmd
  chits     : List (Nat × Nat)
  triggers  : List Trigger
  /-- Chains released: owner function, chain, acceptance number at the firing, its time (R445). -/
  released  : List (Nat × Nat × Nat × Nat)
  chitWork  : List ChitOp
  msix      : List (Nat × Nat)
  dmaWait   : List (Nat × DmaOut)
  /-- Functions whose DMA waits for a lost link, with the time since when (R422). -/
  dmaSince  : List (Nat × Nat)
  latches   : List Latch
  answers   : List (Requester × Nat × Nat)
  /-- Host reads that have not completed (R624, R626): function, offset and size. -/
  readsHeld : List (Nat × Nat × Nat)
  sidebandOut : List SidebandMsg
  -- Sequences, crates, seals.
  seqs      : List Seq
  crates    : List Crate
  seals     : List Seal
  -- Dispatch.
  attends   : List Attend
  /-- Forwarded parts of ATTENDs whose bitmap is still to be read from the lead, by command (R124). -/
  forwards  : List (Nat × Forward)
  stalls    : List Stall
  ctxs      : List Ctx
  unplaced  : List Work
  tills     : List Till
  slotStart : Nat
  ttWaiters : List (Nat × Nat × Nat)
  -- Prefix store.
  homes     : List StockEntry
  replicas  : List (StockEntry × Nat)
  /-- Home entries whose replicas wait for the end of supply stage A (R224): scope and key. -/
  pushOwed  : List (Nat × Bytes)
  pubs      : List PubRec
  publishes : List Publish
  drops     : List Drop
  results   : List Result
  lookups   : List Lookup
  holds     : List RemoteHold
  myHolds   : List MyHold
  /-- Pages that lookups of this device took from other devices' answers, not yet reported to their homes (R200). -/
  askedHits : List (Nat × Bytes × Nat)
  -- Tiers: leases, flash, frames.
  leases    : List Lease
  zones     : List Zone
  catalogue : List (Nat × Catalogue)
  /-- 4 KiB records in each namespace's journal since its last checkpoint (R263). -/
  journalRecs : List (Nat × Nat)
  /-- The crates whose flash copies wait, in the order in which they were queued, and those among them that stage B held when it
  last ended (R536). -/
  flashQueue : List Nat
  flashHeld  : List Nat
  deviceCat : List StockEntry
  replaying : List Nat
  flashTokens : Nat
  flashFilled : Nat
  /-- Evictions that run: pitch, stack, waiting for a candidate (R252, R253). -/
  evicting  : List (Nat × Nat × Bool)
  /-- Evictions from tiers 0 and 2 that wait for a candidate: tier and pitch (R253). -/
  tierWaits : List (Nat × Nat)
  channelsFailed : Nat
  frames    : List (Nat × Nat)
  frameErrs : List (Nat × Nat × Nat)
  leadRun   : List (Nat × Nat)
  -- Code tables.
  tables    : List CodeTable
  actives   : List ActiveList
  /-- Tables asked for by a crate's fetch: crate, fingerprint, the lengths once they have come (R317). -/
  pendingTables : List (Nat × Bytes × Option (List Nat))
  -- Etlos.
  windows   : List Window
  winFreed  : List (Nat × Nat)
  winNext   : Nat
  conns     : List Conn
  reads     : List Read
  peers     : List Peer
  ports     : List Port
  wire      : List Sent
  svcOut    : List (Nat × SvcMsg)
  -- CXL.
  cxlLines  : List CxlLine
  /-- Host accesses that wait while a full snoop filter makes room (R449). -/
  cxlWaiting : List CxlAccess
  /-- The poisoned lines of ledger images: pitch and byte offset (R450). -/
  ledgerPoison : List (Nat × Nat)
  poison    : List Nat
  /-- What host reads of the window returned: half, address, and the data or poison (R450). -/
  cxlOut    : List (Nat × Nat × Option Bytes)
  -- Security.
  keyArea   : List KeyRec
  flashKeys : List (Nat × Nat)
  sessions  : List Session
  serials   : Nat
  releases  : List Release
  attestWait : List Nat
  certs     : List Cert
  -- Boot and firmware.
  xspi      : Xspi
  fwRunning : Option Image
  rotRunning : Option Image
  planImage : Option Image
  live      : Live
  cores     : List Core
  restarts  : List Nat
  bootedAt  : Nat
  /-- The step at which the last boot stopped, 0 for none (R515). -/
  bootStep  : Nat
  fatalAt   : Nat
  stagedOk  : List Nat
  -- Power and reporting.
  power     : Power
  crier     : Crier
  /-- Trace records written (R579). -/
  traces    : List Trace
  deriving DecidableEq, Repr

/-- A catalogue that lists nothing. -/
def Catalogue.empty : Catalogue := { seqs := [], tables := [], records := [], homes := [], holds := [] }

/-- A stall with nothing on it. -/
def Stall.idle : Stall := { cls := 15, queue := [], running := none, grace := [] }

/-- An egress queue with nothing in it. -/
def EgressQ.empty : EgressQ := { frames := [], deficit := 0, tokens := 0, filled := 0 }

/-- A port with nothing in its buffers. -/
def Port.empty : Port :=
  { egress := List.replicate 32 EgressQ.empty, round := 31, ingress := [], pending := [], reorder := [], strangersSec := 0,
    saidSec := false, idle := false, retryAt := 0 }

/-- The power controllers before VAUX has risen. -/
def Power.off : Power :=
  { vauxOk := false, tileOn := false, perst := true, tripped := false, onfiOff := false, straps := 0, tempLimit := 2000, capHeld := false, throttle := 0, move := .none,
    quietAt := 0, enteredAt := 0, event := none, pollAt := 0, holdUntil := 0, stageAtEntry := 0 }

/-- The crier with an empty log. -/
def Crier.empty : Crier :=
  { log := [], budgets := [], dropped := 0, dropAt := 0, lostFns := [], evtUnread := [], snapshots := 0, telemPos := 0, tracePos := 0 }

/-- The configuration flash with nothing in it. -/
def Xspi.blank : Xspi := { hdr0 := none, hdr1 := none, slots := [] }

/-- A stallholder that has not restarted. -/
def Core.fresh : Core := { restartAt := 0, readyAt := 0, newBank := false, cause := 0 }

/-- The state before VAUX has risen: every table empty, every register at the value of its Reset column, the fuses
of an LY9-576 of the shipping stepping (R27), the configuration flash blank.
(DESIGN CHOICE: log entries 1, 4, 5, 6, 66 and 71.) -/
def State.reset : State :=
  { pending := [], localTime := 0, phase := .reset, plan := Plan.empty,
    fuses := [(⟨.hallDeviceInfoPart, 0⟩, 1), (⟨.hallDeviceInfoStackMask, 0⟩, 255), (⟨.hallDeviceInfoDieStep, 0⟩, 0),
      (⟨.hallDeviceInfoStallCount, 0⟩, 32)],
    regs := [], raw := [], p0Regs := [], ownerKeys := [(some 5, false), (none, false), (none, false), (none, false)], shodunRevoked := [], romKeys := [1, 2, 3, 4], fresh := 0, order := 0,
    dram := [], hall := [], hostMem := [],
    rings := [], cmds := [], chits := [], triggers := [], released := [], chitWork := [], msix := [], dmaWait := [], dmaSince := [], latches := [],
    answers := [], readsHeld := [], sidebandOut := [],
    seqs := [], crates := [], seals := [],
    attends := [], forwards := [], stalls := List.replicate 32 Stall.idle, ctxs := [], unplaced := [], tills := [],
    slotStart := 0, ttWaiters := [],
    homes := [], replicas := [], pushOwed := [], pubs := [], publishes := [], drops := [], results := [], lookups := [], holds := [],
    myHolds := [], askedHits := [], flashQueue := [], flashHeld := [],
    leases := [], zones := [], catalogue := [], journalRecs := [], deviceCat := [], replaying := [], flashTokens := 0, flashFilled := 0, evicting := [], tierWaits := [],
    channelsFailed := 0, frames := [], frameErrs := [], leadRun := [],
    tables := [], actives := [], pendingTables := [],
    windows := [], winFreed := [], winNext := 0, conns := [], reads := [], peers := [],
    ports := List.replicate 8 Port.empty, wire := [], svcOut := [],
    cxlLines := [], cxlWaiting := [], ledgerPoison := [], poison := [], cxlOut := [],
    keyArea := [], flashKeys := [], sessions := [], serials := 0, releases := [], attestWait := [], certs := [],
    xspi := Xspi.blank, fwRunning := none, rotRunning := none, planImage := none,
    live := { active := false, copied := false, turn := 0, live := false, oldImage := none },
    cores := List.replicate 4 Core.fresh, restarts := [], bootedAt := 0, bootStep := 0, fatalAt := 0, stagedOk := [],
    power := Power.off, crier := Crier.empty, traces := [] }

end Sys2Proof.Machine
end

