-- ==== Sys2Proof/Machine/Ops.lean ====
section
/-! DEFINITION. The named operations over plain data, byte strings, memories and the register file. -/
namespace Sys2Proof.Machine

/- Plain data. -/

/-- Change the members of a table that a test picks. -/
def upd {α : Type} (p : α → Bool) (f : α → α) (l : List α) : List α :=
  l.map (fun x => if p x then f x else x)

/-- Remove the members of a table that a test picks. -/
def drop {α : Type} (p : α → Bool) (l : List α) : List α := l.filter (fun x => !p x)

/-- A sum over a table. -/
def sumBy {α : Type} (f : α → Nat) (l : List α) : Nat := l.foldl (fun n x => n + f x) 0

/-- How many members of a table a test picks. -/
def countBy {α : Type} (p : α → Bool) (l : List α) : Nat := (l.filter p).length

/-- The member with the least key, the first among equals. -/
def leastBy {α : Type} (key : α → Nat) : List α → Option α
  | [] => none
  | x :: t => match leastBy key t with
    | none => some x
    | some y => if key x ≤ key y then some x else some y

/-- Insert by rising key, after equals. -/
def insertBy {α : Type} (key : α → Nat) (x : α) : List α → List α
  | [] => [x]
  | y :: t => if key x < key y then x :: y :: t else y :: insertBy key x t

/-- A table in rising order of a key; equals keep their order. -/
def sortBy {α : Type} (key : α → Nat) (l : List α) : List α := l.foldl (fun acc x => insertBy key x acc) []

/-- Apply an operation for every member of a list, in order. -/
def each {α : Type} (l : List α) (f : α → State → State) (s : State) : State := l.foldl (fun s x => f x s) s

/-- Look a key up in a table of pairs; absent keys hold 0. -/
def lookupN (l : List (Nat × Nat)) (k : Nat) : Nat :=
  match l.find? (fun p => p.1 == k) with
  | some p => p.2
  | none => 0

/-- Set a key in a table of pairs. -/
def setN (l : List (Nat × Nat)) (k v : Nat) : List (Nat × Nat) :=
  if l.any (fun p => p.1 == k) then l.map (fun p => if p.1 == k then (k, v) else p) else l ++ [(k, v)]

/-- Members of a list without repeats, in order of first appearance. -/
def distinct {α : Type} [BEq α] (l : List α) : List α :=
  l.foldl (fun acc x => if acc.contains x then acc else acc ++ [x]) []

/-- Bits lo + w - 1 to lo of a number. -/
def bits (v lo w : Nat) : Nat := (v >>> lo) % 2 ^ w

/-- Bit n of a number. -/
def bit (v n : Nat) : Bool := v.testBit n

/-- A truth value as a bit. -/
def b2n (b : Bool) : Nat := if b then 1 else 0

/-- A quotient rounded up. -/
def ceilDiv (a b : Nat) : Nat := (a + b - 1) / b

/- Byte strings (R10). -/

/-- The n bytes of a number, lowest first. -/
def leBytes : Nat → Nat → Bytes
  | 0, _ => []
  | n + 1, v => BitVec.ofNat 8 v :: leBytes n (v / 256)

/-- The number that bytes spell, lowest first. -/
def leNat : Bytes → Nat
  | [] => 0
  | b :: t => b.toNat + 256 * leNat t

/-- The number in n bytes of a byte string from an offset. -/
def leAt (bs : Bytes) (off n : Nat) : Nat := leNat ((bs.drop off).take n)

/-- The field of n bytes at an offset of a submission entry. -/
def fieldOf (e : Entry) (off n : Nat) : Nat := bits e.toNat (8 * off) (8 * n)

/-- Bytes a to a + n - 1 of an entry are all zero. -/
def zeroAt (e : Entry) (off n : Nat) : Bool := fieldOf e off n == 0

/-- The 64 bytes of an entry. -/
def entryBytes (e : Entry) : Bytes := leBytes 64 e.toNat

/-- The entry of 64 bytes. -/
def entryOf (bs : Bytes) : Entry := BitVec.ofNat 512 (leNat bs)

/-- A byte string cut into pieces of n bytes. -/
def chunks (n : Nat) : Nat → Bytes → List Bytes
  | 0, _ => []
  | k + 1, bs => if bs.isEmpty then [] else bs.take n :: chunks n k (bs.drop n)

/-- The first k pieces of n bytes of a byte string. -/
def cuts (n : Nat) : Nat → Bytes → List Bytes
  | 0, _ => []
  | k + 1, bs => bs.take n :: cuts n k (bs.drop n)

/-- Values packed w bits each, lowest first, as a number (R49: densely packed codes). -/
def packBits (w : Nat) : List Nat → Nat
  | [] => 0
  | x :: t => x % 2 ^ w + 2 ^ w * packBits w t

/- Memories: canonical lists of cells, an unlisted address reads 0. -/

abbrev Memory := List Host.Cell

/-- The byte at an address. (DESIGN CHOICE: log entry 6.) -/
def Memory.read : Memory → Nat → Byte
  | [], _ => 0
  | (k, v) :: t, a => if a = k then v else Memory.read t a

/-- Store a byte, keeping the canonical form. -/
def Memory.write : Memory → Nat → Byte → Memory
  | [], a, b => if b = 0 then [] else [(a, b)]
  | (k, v) :: t, a, b =>
    if a < k then (if b = 0 then (k, v) :: t else (a, b) :: (k, v) :: t)
    else if a = k then (if b = 0 then t else (a, b) :: t)
    else (k, v) :: Memory.write t a b

/-- n bytes from an address. -/
def Memory.readN (m : Memory) (a n : Nat) : Bytes := (List.range n).map (fun i => Memory.read m (a + i))

/-- Store a byte string from an address. -/
def Memory.writeN : Memory → Nat → Bytes → Memory
  | m, _, [] => m
  | m, a, b :: t => Memory.writeN (Memory.write m a b) (a + 1) t

/-- Set every byte of a range to 0. -/
def Memory.zero (m : Memory) (lo n : Nat) : Memory := m.filter (fun c => !(lo ≤ c.1 && c.1 < lo + n))

/-- The canonical form: addresses strictly rise and no cell holds 0. -/
def Memory.wf : Memory → Bool
  | [] => true
  | [c] => c.2 != 0
  | c :: d :: t => c.2 != 0 && c.1 < d.1 && Memory.wf (d :: t)

/- The register file. -/

/-- The stored value of a field, where one is listed. -/
def RegFile.get : RegFile → RegKey → Option Nat
  | [], _ => none
  | (k, v) :: t, key => if k = key then some v else RegFile.get t key

/-- Store a field. -/
def RegFile.set : RegFile → RegKey → Nat → RegFile
  | [], key, v => [(key, v)]
  | (k, w) :: t, key, v => if k = key then (k, v) :: t else (k, w) :: RegFile.set t key v

/-- A field that the stall plan gives (R611), at the value it has when the plan gives none. -/
def planField (s : State) (f : Fld) (i : Nat) : Nat := (RegFile.get s.plan.fields ⟨f, i⟩).getD f.planDefault

/-- The reset value of a field (R12, R13, R611). (DESIGN CHOICE: log entry 1.) -/
def resetValue (s : State) (f : Fld) (i : Nat) : Nat :=
  match f.desc.src with
  | .const n => n
  | .plan => planField s f i
  | .fuse => (RegFile.get s.fuses ⟨f, i⟩).getD 0
  | .init => planField s .fabCcCfgInit 0 * 1024
  | .leadInit => planField s .pitchTierCfgLeadInit i

/-- The value a field holds. -/
def rd (s : State) (f : Fld) (i : Nat) : Nat := (RegFile.get s.regs ⟨f, i⟩).getD (resetValue s f i)

/-- Give a field a value, cut to its width. -/
def wr (f : Fld) (i v : Nat) (s : State) : State := { s with regs := RegFile.set s.regs ⟨f, i⟩ (v % 2 ^ f.desc.w) }

/-- Count n more in a field, which wraps or saturates as its table says. -/
def bump (f : Fld) (i n : Nat) (s : State) : State :=
  let v := rd s f i + n
  wr f i (match f.desc.top with
    | .wrap => v
    | .sat => min v (2 ^ f.desc.w - 1)) s

/-- Count n more in a field that shows units of a size; the exact count is kept beside it. (DESIGN CHOICE: log entry 71.) -/
def bumpUnit (unit : Nat) (f : Fld) (i n : Nat) (s : State) : State :=
  let v := (RegFile.get s.raw ⟨f, i⟩).getD 0 + n
  let t := { s with raw := RegFile.set s.raw ⟨f, i⟩ v }
  wr f i (match f.desc.top with
    | .wrap => v / unit
    | .sat => min (v / unit) (2 ^ f.desc.w - 1)) t

/-- Count n more in a field that shows thousands. (DESIGN CHOICE: log entry 71.) -/
def bumpK (f : Fld) (i n : Nat) (s : State) : State := bumpUnit 1000 f i n s

/-- Raise a field to at least a value. -/
def raiseTo (f : Fld) (i v : Nat) (s : State) : State := if rd s f i < v then wr f i v s else s

/-- A flag field reads 1. -/
def on (s : State) (f : Fld) (i : Nat) : Bool := rd s f i == 1

/-- The pitch whose pitch reset restores an instance of a register (R482, R12): none for device registers and for
the entries of PF0. `ringPitch` says whose a ring is. -/
def pitchOf (ringPitch : Nat → Option Nat) (r : Reg) (i : Nat) : Option Nat :=
  match r with
  | .pciRingCfg | .pciRingAddr | .pciRingState => ringPitch i
  | .pciChitRange | .errEvtCfg | .errEvtState | .pciFnStatus => if i = 0 then none else some (i - 1)
  | .pitchClient | .pitchTillWait | .pitchTillPreempt => some (i / 16)
  | .pitchTillHist => some (i / 256)
  | .pciHwin => some (i / 256)
  | .pitchDeltaPair => some (i / 8)
  | _ => some i

/-- Restore the fields that a test picks to their reset values. -/
def restore (pick : FldDesc → Nat → Bool) (s : State) : State :=
  { s with regs := s.regs.filter (fun p => !pick p.1.fld.desc p.1.idx),
           raw := s.raw.filter (fun p => !pick p.1.fld.desc p.1.idx) }

/-- Full reset of the register file: every field but the fuse-backed and the power-on ones (R12, R13). -/
def restoreFull (s : State) : State :=
  restore (fun d _ => match d.kind with
    | .full | .pitch | .port => true
    | .powerOn | .fuse => false) s

/-- Power-on reset of the register file: every field but the fuse-backed ones. -/
def restorePowerOn (s : State) : State :=
  restore (fun d _ => match d.kind with
    | .fuse => false
    | _ => true) s

/- Time and counters. -/

/-- Let local time reach an instant: the event that names it happens no sooner (R22). (DEDUCED: log entry 10.)
(DESIGN CHOICE: log entries 2 and 75.) -/
def reach (t : Nat) (s : State) : State := { s with localTime := max s.localTime t }

/-- Take the next free value number. (DESIGN CHOICE: log entry 71.) -/
def freshen (s : State) : State := { s with fresh := s.fresh + 1 }

/-- A free value of n bits. (DESIGN CHOICE: log entry 13.) -/
def freeBits (s : State) (n : Nat) : Nat := (Config.word s.fresh).toNat % 2 ^ n

/-- Take the next acceptance number. (DESIGN CHOICE: log entry 71.) -/
def ordered (s : State) : State := { s with order := s.order + 1 }

/- Parts of the plan. -/

/-- The plan's row of a pitch. -/
def pitchPlan (s : State) (p : Nat) : PitchPlan := (s.plan.pitches[p]?).getD
  { laidOut := false, granules := [], hallBase := 0, ringLo := 0, ringCount := 0, half := 0, dies := [], zones := 0,
    zoneUnits := 0, segments := [] }

/-- The pitch of a ring, where a pitch function owns it (R423). -/
def ringPitch (s : State) (r : Nat) : Option Nat :=
  (List.range 16).find? (fun p => let q := pitchPlan s p; q.ringLo ≤ r && r < q.ringLo + q.ringCount)

/-- The function that owns a ring (R423). -/
def ringFn (s : State) (r : Nat) : Option Nat :=
  if s.plan.pf0RingLo ≤ r && r < s.plan.pf0RingLo + s.plan.pf0Rings then some 0
  else (ringPitch s r).map (· + 1)

/-- The half of the host port a function appears on (R419). -/
def halfOf (s : State) (fn : Nat) : Nat := if fn = 0 then 0 else (pitchPlan s (fn - 1)).half

/-- Bytes in a pitch's hall share: its banks of 4 MiB (R499). -/
def hallSize (s : State) (p : Nat) : Nat := rd s .secPitchLayoutHallBanks p * 4194304

/-- Bytes in a pitch's ring area (R426). -/
def ringArea (s : State) (p : Nat) : Nat := rd s .secPitchLayoutRingArea p * 2097152

/-- The bytes of the granules of 1 GiB that the plan gives a pitch (R464). -/
def dramPlanned (s : State) (p : Nat) : Nat := (pitchPlan s p).granules.length * 1073741824

/-- The granules of a pitch that it has lent: they leave the pitch while the lease lasts (R265). -/
def lentGranules (s : State) (p : Nat) : List Nat := (s.leases.filter (fun l => l.lent && l.pitch == p)).map (fun l => l.granule)

/-- Bytes of the granules that a pitch keeps (R265, R464). -/
def dramSize (s : State) (p : Nat) : Nat := dramPlanned s p - (lentGranules s p).length * 1073741824

/-- A range of a pitch's DRAM space lies in granules that the pitch keeps (R265, R464). -/
def inGranules (s : State) (p off len : Nat) : Bool :=
  decide (off + len ≤ dramPlanned s p)
    && (lentGranules s p).all (fun g => decide (off + len ≤ g * 1073741824) || decide ((g + 1) * 1073741824 ≤ off))

/-- The stacks a pitch owns, in ascending order (R16). -/
def pitchStacks (s : State) (p : Nat) : List Nat := (List.range 8).filter (fun k => (pitchPlan s p).granules.contains k)

/-- The stack of page p of every layer (R16). -/
def stackOf (s : State) (p page : Nat) : Nat :=
  let l := pitchStacks s p
  if l.length = 0 then 0 else (l[page % l.length]?).getD 0

/-- The key of a byte of a pitch's DRAM space in the DRAM memory. -/
def dramKey (p off : Nat) : Nat := p * 1099511627776 + off

/-- The device is past boot and not in a reset or a FATAL hold. -/
def running (s : State) : Bool := s.phase == .running

/-- A stallholder is READY (R18, R517): what only it does waits while it restarts. -/
def coreThere (s : State) (k : Nat) : Bool := rd s .hallCoreState k == 0

/-- The effect of a command leaves the queue of waiting commands as it stands. -/
def keepQueue (s t : State) : State := { t with pending := s.pending }

/-- Answer with an event's effect while the device runs; before boot and in reset nothing happens. (DEDUCED: log entry 9.) -/
def whenRunning (s : State) (f : State → State) : Out State := .next (if running s then keepQueue s (f s) else s)

end Sys2Proof.Machine
end

