-- ==== Sys2Proof/Machine/Float.lean ====
section
/-! DEFINITION. Exact numbers and their rounding: the encodings of R48, rne32 and rne_bf16 of R106, exp2_hw and tanh_hw
of R108. -/
namespace Sys2Proof.Machine

/-- An exact dyadic number, sign and magnitude: ± mag × 2^exp. A zero keeps its sign (R106). -/
structure Dy where
  neg : Bool
  mag : Nat
  exp : Int
  deriving DecidableEq, Repr

/-- The exact zero +0. -/
def Dy.zero : Dy := { neg := false, mag := 0, exp := 0 }

/-- An integer as an exact number. -/
def Dy.ofInt (n : Int) : Dy := { neg := n < 0, mag := n.natAbs, exp := 0 }

/-- The exact product; a zero product takes the exclusive-or of the signs (R106). -/
def Dy.mul (a b : Dy) : Dy := { neg := a.neg != b.neg, mag := a.mag * b.mag, exp := a.exp + b.exp }

/-- The opposite number. -/
def Dy.opp (a : Dy) : Dy := { a with neg := !a.neg }

/-- The signed integer that a number is in units of 2^e, for e at or below its exponent. -/
def Dy.units (a : Dy) (e : Int) : Int :=
  let m : Int := (a.mag <<< (a.exp - e).toNat : Nat)
  if a.neg then -m else m

/-- The exact sum of terms (R106): +0 when terms cancel, −0 only when every term is −0. -/
def Dy.sum (l : List Dy) : Dy :=
  let e := l.foldl (fun e x => min e x.exp) 0
  let t := l.foldl (fun t x => t + x.units e) (0 : Int)
  if t = 0 then { neg := !l.isEmpty && l.all (fun x => x.neg && x.mag == 0), mag := 0, exp := 0 }
  else { neg := t < 0, mag := t.natAbs, exp := e }

/-- a < b as numbers. -/
def Dy.lt (a b : Dy) : Bool :=
  let e := min a.exp b.exp
  decide (a.units e < b.units e)

/-- The number of bits of a natural number. -/
def bitLen (n : Nat) : Nat := if n = 0 then 0 else Nat.log2 n + 1

/-- The floor of the base-2 logarithm of num / den × 2^e, for positive num and den. -/
def log2Floor (num den : Nat) (e : Int) : Int :=
  let k : Int := (bitLen num : Int) - bitLen den
  let up := if 0 ≤ k then den <<< k.toNat ≤ num else den ≤ num <<< (-k).toNat
  (if up then k else k - 1) + e

/-- num / den × 2^e rounded to nearest even with p bits of precision and no quantum below 2^emin: the mantissa and the
exponent of its unit. The exponent range above is unbounded (R106). -/
def roundTo (p : Nat) (emin : Int) (num den : Nat) (e : Int) : Nat × Int :=
  if num = 0 then (0, emin) else
  let q := max (log2Floor num den e - (p : Int) + 1) emin
  let sh := e - q
  let n := if 0 ≤ sh then num <<< sh.toNat else num
  let d := if 0 ≤ sh then den else den <<< (-sh).toNat
  let m := n / d
  let r := n % d
  let m := if d < 2 * r ∨ (2 * r = d ∧ m % 2 = 1) then m + 1 else m
  if m = 2 ^ p then (2 ^ (p - 1), q + 1) else (m, q)

/-- The code of a rounded value in a format with f fraction bits and a bias, and whether the exponent field passes top. -/
def codeOf (f bias : Nat) (mq : Nat × Int) : Nat × Int :=
  if mq.1 < 2 ^ f then (mq.1, 0) else (mq.1 - 2 ^ f, mq.2 + f + bias)

/-- Round to FP32 (R106): saturates at 0x7F7F_FFFF. -/
def round32 (neg : Bool) (num den : Nat) (e : Int) : Fp :=
  let c := codeOf 23 127 (roundTo 24 (-149) num den e)
  let above := decide (255 ≤ c.2)
  let v := if above then 0x7F7FFFFF else c.2.toNat * 8388608 + c.1
  { b := BitVec.ofNat 32 (v + (if neg then 0x80000000 else 0)), sat := above }

/-- Round to BF16 (R106): saturates at 0x7F7F. -/
def roundBf (neg : Bool) (num den : Nat) (e : Int) : BitVec 16 × Bool :=
  let c := codeOf 7 127 (roundTo 8 (-133) num den e)
  let above := decide (255 ≤ c.2)
  let v := if above then 0x7F7F else c.2.toNat * 128 + c.1
  (BitVec.ofNat 16 (v + (if neg then 0x8000 else 0)), above)

/-- The exact value of a code with f fraction bits and a bias (R48). -/
def decodeFloat (width f bias : Nat) (v : Nat) : Dy :=
  let neg := v.testBit (width - 1)
  let ex := bits v f (width - 1 - f)
  let fr := v % 2 ^ f
  if ex = 0 then { neg := neg, mag := fr, exp := 1 - (bias : Int) - f }
  else { neg := neg, mag := 2 ^ f + fr, exp := (ex : Int) - bias - f }

/-- The exact value of an FP32. -/
def dyOf32 (b : BitVec 32) : Dy := decodeFloat 32 23 127 b.toNat

/-- The exact value of a BF16. -/
def dyOfBf (b : BitVec 16) : Dy := decodeFloat 16 7 127 b.toNat

/-- The exact value of an FP8 E4M3 code. -/
def dyOfE4m3 (v : Nat) : Dy := decodeFloat 8 3 7 v

/-- The exact value of an FP4 E2M1 code. -/
def dyOfE2m1 (v : Nat) : Dy := decodeFloat 4 1 1 v

/-- The exact value of an E8M0 code. -/
def dyOfE8m0 (v : Nat) : Dy := { neg := false, mag := 1, exp := (v : Int) - 127 }

/-- A BF16 is finite (R52). -/
def finiteBf (b : BitVec 16) : Bool := bits b.toNat 7 8 != 255

/-- An FP8 E4M3 code is no NaN. -/
def finiteE4m3 (v : Nat) : Bool := v % 128 != 127

/-- An FP32 is finite. -/
def finite32 (b : BitVec 32) : Bool := bits b.toNat 23 8 != 255

/-- rne32 of an exact number (R106). -/
def rne32 (d : Dy) : Fp := round32 d.neg d.mag 1 d.exp

/-- rne32 of the quotient of exact numbers. -/
def rne32Div (a b : Dy) : Fp := round32 (a.neg != b.neg) a.mag b.mag (a.exp - b.exp)

/-- The FP32 with the given bits, and no saturation behind it. -/
def Fp.of (b : BitVec 32) : Fp := { b := b, sat := false }

/-- The exact value of an FP32 value. -/
def Fp.dy (x : Fp) : Dy := dyOf32 x.b

/-- Mark that saturation stood behind the operands. -/
def Fp.mark (x : Fp) (s : Bool) : Fp := { x with sat := x.sat || s }

/-- rne32 of a product. -/
def Fp.mul (x y : Fp) : Fp := (rne32 (x.dy.mul y.dy)).mark (x.sat || y.sat)

/-- rne32 of a sum. -/
def Fp.add (x y : Fp) : Fp := (rne32 (Dy.sum [x.dy, y.dy])).mark (x.sat || y.sat)

/-- rne32 of a difference. -/
def Fp.sub (x y : Fp) : Fp := (rne32 (Dy.sum [x.dy, y.dy.opp])).mark (x.sat || y.sat)

/-- rne32 of a quotient. -/
def Fp.div (x y : Fp) : Fp := (rne32Div x.dy y.dy).mark (x.sat || y.sat)

/-- x < y. -/
def Fp.lt (x y : Fp) : Bool := x.dy.lt y.dy

/-- The maximum of two values. The specification does not say which of +0 and -0 it is. (DESIGN CHOICE: log entry 76.) -/
def Fp.max (x y : Fp) : Fp :=
  if x.lt y then y else if y.lt x || x.b == y.b then x else if Config.maxOfZeros x.b y.b then y else x

/-- +0. -/
def Fp.zero : Fp := Fp.of 0

/-- rne_bf16 of an FP32 value, and whether it or what stood behind it saturated. -/
def Fp.toBf (x : Fp) : BitVec 16 × Bool :=
  let d := x.dy
  let r := roundBf d.neg d.mag 1 d.exp
  (r.1, r.2 || x.sat)

/- exp and its bounds, in units of 2^-P. -/

/-- ln 2 from below in units of 2^-P: the sum of 2^-k / k with each term cut. It is short by at most P + 2 units. -/
def ln2Low (P : Nat) : Nat := sumBy (fun i => 2 ^ P / ((i + 1) * 2 ^ (i + 1))) (List.range P)

/-- Partial sums of exp(y) with y in units of 2^-P: terms cut down, or up. The fuel is the number of terms. -/
def expSum (P y : Nat) (up : Bool) : Nat → Nat → Nat → Nat → Nat
  | 0, _, t, acc => if up then acc + 2 * t + 2 else acc
  | n + 1, k, t, acc =>
    let num := t * y
    let den := (k + 1) * 2 ^ P
    let t' := if up then (num + den - 1) / den else num / den
    expSum P y up n (k + 1) t' (acc + t')

/-- exp(y) from below and from above, for 0 ≤ y < 1, both ends in units of 2^-P. -/
def expBounds (P yLow yHigh : Nat) : Nat × Nat :=
  let n := P / 2 + 10
  (expSum P yLow false n 0 (2 ^ P) (2 ^ P), expSum P yHigh true n 0 (2 ^ P) (2 ^ P))

/-- Square bounds n times. -/
def squareBounds (P : Nat) : Nat → Nat × Nat → Nat × Nat
  | 0, b => b
  | n + 1, b => squareBounds P n (b.1 * b.1 / 2 ^ P, (b.2 * b.2 + 2 ^ P - 1) / 2 ^ P)

/-- The first precision at which both bounds round alike gives the correctly rounded value; the last one is far past
what any FP32 input needs. -/
def agree (bounds : Nat → Fp × Fp) : List Nat → Fp
  | [] => Fp.zero
  | [P] => (bounds P).1
  | P :: rest => let b := bounds P; if b.1.b = b.2.b then b.1 else agree bounds rest

/-- Precisions tried in turn. (PRESUMED: log entry 72.) -/
def precisions : List Nat := [72, 144, 288, 576, 1152]

/-- exp2_hw (R108): rne32 of the exact 2^x. (PRESUMED: log entry 72.) -/
def exp2Hw (x : Fp) : Fp :=
  let d := x.dy
  let e := min d.exp 0
  let u := d.units e
  let den : Nat := 2 ^ (-e).toNat
  let n := u / (den : Int)
  let f := (u % (den : Int)).toNat
  (if n < -150 then Fp.zero
   else if 128 ≤ n then { b := 0x7F7FFFFF, sat := true }
   else if f = 0 then (if n < -149 then Fp.zero else rne32 { neg := false, mag := 1, exp := n })
   else if n < -149 then Fp.of 1
   else agree (fun P =>
     let l := ln2Low P
     let b := expBounds P (f * l / den) ((f * (l + P + 2) + den - 1) / den)
     (round32 false b.1 (2 ^ P) n, round32 false b.2 (2 ^ P) n)) precisions).mark x.sat

/-- tanh_hw (R108): rne32 of the exact tanh(x). Below 2^-12 the value rounds to x itself, from 16 on to 1.
(PRESUMED: log entry 72.) -/
def tanhHw (x : Fp) : Fp :=
  let d := x.dy
  let a : Dy := { d with neg := false }
  (if d.mag = 0 ∨ a.lt { neg := false, mag := 1, exp := -12 } then Fp.of x.b
   else if !(a.lt { neg := false, mag := 1, exp := 4 }) then round32 d.neg 1 1 0
   else agree (fun P =>
     -- y = 2|x| / 64 in units of 2^-P, then six squarings give exp(2|x|)
     let sh : Int := d.exp + P - 5
     let y := if 0 ≤ sh then (a.mag <<< sh.toNat, a.mag <<< sh.toNat)
       else (a.mag >>> (-sh).toNat, (a.mag >>> (-sh).toNat) + 1)
     let b := squareBounds P 6 (expBounds P y.1 y.2)
     (round32 d.neg (b.1 - 2 ^ P) (b.1 + 2 ^ P) 0, round32 d.neg (b.2 - 2 ^ P) (b.2 + 2 ^ P) 0)) precisions).mark x.sat

end Sys2Proof.Machine
end

