-- ==== Sys2Proof/Machine/Quant.lean ====
section
/-! DEFINITION. Stored formats and crates: quantisation, bodies, headers and digests (R47 to R63). -/
namespace Sys2Proof.Machine

/-- Element encodings of stored formats (R47, R48). -/
inductive EKind where
  | e4m3 | int8 | int4 | e2m1
  deriving DecidableEq, Repr

/-- The element encoding of a format's keys or values (R47). -/
def elemKind (fmt : Nat) (key : Bool) : EKind :=
  match fmt with
  | 1 => .e4m3
  | 2 => .int8
  | 3 => .int4
  | 4 => .e2m1
  | _ => if key then .int4 else .int8

/-- The format's scales are E8M0 (R47): KVF1 and KVF4. -/
def scaleE8 (fmt : Nat) : Bool := fmt == 1 || fmt == 4

/-- Bits of an element. -/
def EKind.bits : EKind → Nat
  | .e4m3 | .int8 => 8
  | .int4 | .e2m1 => 4

/-- Stored key precision in bits (R109). -/
def keyBits (fmt : Nat) : Nat := (elemKind fmt true).bits

/-- The exact value of an element code (R48, R104). -/
def elemDy (k : EKind) (v : Nat) : Dy :=
  match k with
  | .e4m3 => dyOfE4m3 v
  | .e2m1 => dyOfE2m1 v
  | .int8 => Dy.ofInt (BitVec.ofNat 8 v).toInt
  | .int4 => Dy.ofInt (BitVec.ofNat 4 v).toInt

/-- The exact value of a scale code. -/
def scaleDy (e8 : Bool) (v : Nat) : Dy := if e8 then dyOfE8m0 v else dyOfE4m3 v

/-- num / den × 2^e rounded to an integer, ties to even. -/
def rneInt (num den : Nat) (e : Int) : Nat :=
  let n := if 0 ≤ e then num <<< e.toNat else num
  let d := if 0 ≤ e then den else den <<< (-e).toNat
  let m := n / d
  let r := n % d
  if d < 2 * r ∨ (2 * r = d ∧ m % 2 = 1) then m + 1 else m

/-- The smallest E4M3 code whose value is at least a / qmax, at most 448 (R50). -/
def intScale (a : Dy) (qmax : Nat) : Nat :=
  ((List.range 0x7E).map (· + 1)).find? (fun c => !(((dyOfE4m3 c).mul (Dy.ofInt qmax)).lt a)) |>.getD 0x7E

/-- ceil(log2(a / top)) for a positive number (R50, R105). -/
def ceilLog2 (a : Dy) (top : Nat) : Int :=
  let k := log2Floor a.mag top a.exp
  -- exact when a = top × 2^k
  if (a.units (min a.exp k)) = (Dy.units { neg := false, mag := top, exp := k } (min a.exp k)) then k else k + 1

/-- Clamp an integer. -/
def clampInt (lo hi x : Int) : Int := max lo (min hi x)

/-- Round x / 2^k to an E4M3 or E2M1 code, saturating at the largest finite value (R50, R105).
A value that rounds to zero keeps its sign bit. (DESIGN CHOICE: log entry 83.) -/
def toSmallFloat (k : EKind) (neg : Bool) (num den : Nat) (e : Int) : Nat :=
  match k with
  | .e2m1 =>
    let c := codeOf 1 1 (roundTo 2 (-1) num den e)
    min 7 (c.2.toNat * 2 + c.1) + (if neg then 8 else 0)
  | _ =>
    let c := codeOf 3 7 (roundTo 4 (-9) num den e)
    min 0x7E (c.2.toNat * 8 + c.1) + (if neg then 0x80 else 0)

/-- The largest finite magnitude of a floating element (R50). -/
def floatTop (k : EKind) : Nat :=
  match k with
  | .e2m1 => 6
  | _ => 448

/-- The member of the largest magnitude of a group. -/
def maxMag (l : List Dy) : Dy := l.foldl (fun a x => let y := { x with neg := false }; if a.lt y then y else a) Dy.zero

/-- Quantise one group of 32 values: the scale code and the element codes (R50). -/
def quantGroup (k : EKind) (xs : List (BitVec 16)) : Nat × List Nat :=
  let ds := xs.map dyOfBf
  let a := maxMag ds
  match k with
  | .int8 | .int4 =>
    if a.mag = 0 then (0, xs.map (fun _ => 0)) else
    let qmax := if k = .int4 then 7 else 127
    let s := intScale a qmax
    let sd := dyOfE4m3 s
    (s, ds.map (fun x =>
      let q := min qmax (rneInt x.mag sd.mag (x.exp - sd.exp))
      if x.neg then (2 ^ k.bits - q) % 2 ^ k.bits else q))
  | _ =>
    if a.mag = 0 then (0, xs.map (fun _ => 0)) else
    let ex := clampInt (-127) 127 (ceilLog2 a (floatTop k))
    ((ex + 127).toNat, ds.map (fun x => toSmallFloat k x.neg x.mag 1 (x.exp - ex)))

/-- A list cut into groups of n. -/
def groupsOf {α : Type} (n : Nat) : Nat → List α → List (List α)
  | 0, _ => []
  | k + 1, l => if l.isEmpty then [] else l.take n :: groupsOf n k (l.drop n)

/-- Head dimension D (R55). -/
def dimOf (h : Shape) : Nat := 32 * h.headDim32

/-- Elements of one token of one layer in the barrow (R63). -/
def elemsOf (h : Shape) : Nat := if h.latent then 480 else 2 * h.kvHeads * (dimOf h)

/-- Bytes of one token of one layer in the barrow. -/
def tokBytes (h : Shape) : Nat := 2 * (elemsOf h)

/-- The blocks of a crate (R57): first element in the token, width, and whether it holds keys. -/
def blocksOf (h : Shape) : List (Nat × Nat × Bool) :=
  if h.latent then [(0, 128, true), (128, 128, true), (256, 128, true), (384, 96, true)]
  else (List.range h.kvHeads).map (fun i => (i * (dimOf h), (dimOf h), true))
    ++ (List.range h.kvHeads).map (fun i => ((h.kvHeads + i) * (dimOf h), (dimOf h), false))

/-- Quantise the 256 tokens of a page into the blocks of a crate (R50, R57). -/
def quantPage (h : Shape) (toks : List Token) : List Block :=
  (blocksOf h).map (fun b =>
    let k := elemKind h.format b.2.2
    let gs := toks.map (fun t => (groupsOf 32 (b.2.1 / 32) ((t.drop b.1).take b.2.1)).map (quantGroup k))
    { scales := gs.map (fun t => t.map (fun g => g.1)), elems := gs.map (fun t => t.flatMap (fun g => g.2)) })

/-- The raw scale bytes of a block. -/
def Block.scaleBytes (b : Block) : Bytes := (b.scales.flatMap id).map (BitVec.ofNat 8)

/-- Two 4-bit codes share a byte, the even one in the low half (R49). -/
def pairUp : List Nat → Bytes
  | a :: b :: t => BitVec.ofNat 8 (a + 16 * b) :: pairUp t
  | [a] => [BitVec.ofNat 8 a]
  | [] => []

/-- The raw element bytes of a block (R57, R49). -/
def Block.elemBytes (k : EKind) (b : Block) : Bytes :=
  if k.bits = 4 then pairUp (b.elems.flatMap id) else (b.elems.flatMap id).map (BitVec.ofNat 8)

/-- The blocks of a body beside their element kinds. -/
def kindsOf (h : Shape) : List EKind := (blocksOf h).map (fun b => elemKind h.format b.2.2)

/-- The element bytes of every block in body order. -/
def bodyElems (h : Shape) (body : List Block) : Bytes := ((kindsOf h).zip body).flatMap (fun x => x.2.elemBytes x.1)

/-- The scale bytes of every block in body order. -/
def bodyScales (body : List Block) : Bytes := body.flatMap Block.scaleBytes

/-- The crate digest (R62): the first 8 bytes of SHA-384 over scales and blocks without padding. -/
def crateDigest (h : Shape) (body : List Block) : Bytes := (sha384 (bodyScales body ++ bodyElems h body)).take 8

/-- A number rounded up to a multiple. -/
def roundUp (n m : Nat) : Nat := ceilDiv n m * m

/-- Bytes of the scale region, rounded up to 4 KiB (R57). -/
def scaleSizeOf (h : Shape) : Nat := roundUp (sumBy (fun b => 256 * b.2.1 / 32) (blocksOf h)) 4096

/-- Raw bytes of one block (R57). -/
def blockSize (h : Shape) (b : Nat × Nat × Bool) : Nat := 256 * b.2.1 * (elemKind h.format b.2.2).bits / 8

/-- Raw bytes of a crate's body (R57). -/
def bodySizeOf (h : Shape) : Nat := (scaleSizeOf h) + sumBy (blockSize h) (blocksOf h)

/-- Bytes of a crate's DRAM slot (R58). A crate with an extension entry takes at least 32 KiB. -/
def slotSize (h : Shape) (ext : Bool) : Nat := max (roundUp (bodySizeOf h) 16384) (if ext then 32768 else 0)

/-- Bytes of a barrow slot (R63). -/
def barrowSizeOf (h : Shape) : Nat := roundUp (256 * (tokBytes h)) 65536

/-- A block directory entry as a number (R60). -/
def BlockDir.word (d : BlockDir) : Nat :=
  if d.mode = 0 ∨ d.mode = 3 then d.mode * 2 ^ 20
  else d.tableId + d.gen * 2 ^ 8 + d.codedLen * 2 ^ 12 + d.mode * 2 ^ 20

/-- A raw block's directory entry. -/
def BlockDir.raw : BlockDir := { tableId := 0, gen := 0, codedLen := 0, mode := 0 }

/-- The crate has an extension entry (R61): more than 16 blocks, or a delta-coded one. -/
def Crate.ext (c : Crate) : Bool := decide (16 < c.dir.length) || c.dir.any (fun d => 2 ≤ d.mode)

/-- The directory bytes of up to n entries from an index, 3 bytes each, padded with zero entries. -/
def dirBytes (l : List BlockDir) (n : Nat) : Bytes :=
  (List.range n).flatMap (fun i => leBytes 3 (((l[i]?).map BlockDir.word).getD 0))

/-- The 64 B crate header (R59). -/
def Crate.header (c : Crate) : Bytes :=
  leBytes 1 1
    ++ leBytes 1 (c.shape.format + 8 * b2n c.shape.latent + 16 * b2n c.ext + 32 * b2n (c.dir.any (fun d => 2 ≤ d.mode)))
    ++ leBytes 1 c.layer ++ leBytes 1 c.dir.length ++ leBytes 2 c.page
    ++ leBytes 1 (if c.shape.latent then 0 else c.shape.headDim32) ++ leBytes 1 0 ++ c.digest ++ dirBytes (c.dir.take 16) 16

/-- A handle as a 64-bit word (R42). -/
def Handle.word (h : Handle) : Nat :=
  h.location.toNat + h.format * 2 ^ 44 + h.pitch * 2 ^ 47 + h.device * 2 ^ 51 + h.tier * 2 ^ 61

/-- The handle of a 64-bit word; the null handle is none (R43). -/
def handleOf (w : Nat) : Option Handle :=
  if w = 2 ^ 64 - 1 then none else
  some { tier := bits w 61 3, device := bits w 51 10, pitch := bits w 47 4, format := bits w 44 3,
         location := BitVec.ofNat 44 w }

/-- The null handle (R43). -/
def nullHandle : Nat := 2 ^ 64 - 1

/-- The 64 B extension entry of a crate (R61): blocks 16 to 31 of its directory, and the handle of its delta base; the null
handle where it holds no delta. (DESIGN CHOICE: log entry 80.) -/
def extEntry (dir : List BlockDir) (base : Option Handle) : Bytes :=
  dirBytes (dir.drop 16) 16 ++ leBytes 8 ((base.map Handle.word).getD nullHandle) ++ leBytes 8 0

/-- Decode one element to BF16: element × scale, rounded (R81). -/
def decodeBf (k : EKind) (e8 : Bool) (scale elem : Nat) : BitVec 16 :=
  let d := (elemDy k elem).mul (scaleDy e8 scale)
  (roundBf d.neg d.mag 1 d.exp).1

/-- Decode a block's token to BF16. -/
def decodeRow (k : EKind) (e8 : Bool) (scales elems : List Nat) : List (BitVec 16) :=
  (elems.zipIdx).map (fun x => decodeBf k e8 ((scales[x.2 / 32]?).getD 0) x.1)

/-- The first n tokens of a crate decoded to the barrow layout (R81, R63). -/
def decodeTokens (h : Shape) (body : List Block) (n : Nat) : List Token :=
  (List.range n).map (fun i => ((kindsOf h).zip body).flatMap (fun x =>
    decodeRow x.1 (scaleE8 h.format) ((x.2.scales[i]?).getD []) ((x.2.elems[i]?).getD [])))

/-- Read tokens in the barrow layout from bytes (R63). -/
def tokensOf (h : Shape) (n : Nat) (bs : Bytes) : List Token :=
  (cuts (tokBytes h) n bs).map (fun t => (cuts 2 (elemsOf h) t).map (fun b => BitVec.ofNat 16 (leNat b)))

/-- Bytes of a token in the barrow layout. -/
def tokenBytesOf (t : Token) : Bytes := t.flatMap (fun x => leBytes 2 x.toNat)

end Sys2Proof.Machine
end

