-- ==== Sys2Proof/Machine/AttendMath.lean ====
section
/-! DEFINITION. The arithmetic of a stall and of the weigher (R104 to R127): queries, scores, the online softmax, merges
and final outputs, and the mask. -/
namespace Sys2Proof.Machine

/-- A group of 32 exact values and the exact scale they share. -/
abbrev Group := List Dy × Dy

/-- Exact one, the scale of barrow values and of FP8 queries. -/
def Dy.one : Dy := { neg := false, mag := 1, exp := 0 }

/-- The keys and values of one tile: a crate's quantised body, or barrow tokens at BF16 (R73). -/
inductive TileBody where
  | crate (body : List Block)
  | barrow (toks : List Token)

/-- One position of a block as groups (R104). -/
def blockGroups (fmt : Nat) (k : EKind) (b : Block) (pos : Nat) : List Group :=
  let es := (b.elems[pos]?).getD []
  let ss := (b.scales[pos]?).getD []
  (ss.zipIdx).map (fun x => (((es.drop (32 * x.2)).take 32).map (elemDy k), scaleDy (scaleE8 fmt) x.1))

/-- A slice of a barrow token as groups. -/
def tokenGroups (t : Token) (off width : Nat) : List Group :=
  (groupsOf 32 (width / 32) ((t.drop off).take width)).map (fun g => (g.map dyOfBf, Dy.one))

/-- The key groups of a KV head at a page position: 15 groups in latent mode (R107, R122). -/
def keyGroups (h : Shape) (b : TileBody) (kvh pos : Nat) : List Group :=
  match b with
  | .crate body =>
    let kinds := kindsOf h
    if h.latent then (kinds.zip body).flatMap (fun x => blockGroups h.format x.1 x.2 pos)
    else match (kinds.zip body)[kvh]? with
      | some x => blockGroups h.format x.1 x.2 pos
      | none => []
  | .barrow toks =>
    let t := (toks[pos]?).getD []
    if h.latent then tokenGroups t 0 480 else tokenGroups t (kvh * dimOf h) (dimOf h)

/-- The value groups of a KV head at a page position: the latent vector in latent mode (R122). -/
def valueGroups (h : Shape) (b : TileBody) (kvh pos : Nat) : List Group :=
  match b with
  | .crate body =>
    let kinds := kindsOf h
    if h.latent then ((kinds.zip body).take 3).flatMap (fun x => blockGroups h.format x.1 x.2 pos)
    else match (kinds.zip body)[h.kvHeads + kvh]? with
      | some x => blockGroups h.format x.1 x.2 pos
      | none => []
  | .barrow toks =>
    let t := (toks[pos]?).getD []
    if h.latent then tokenGroups t 0 384 else tokenGroups t ((h.kvHeads + kvh) * dimOf h) (dimOf h)

/-- A BF16 query group in split mode (R105): q' and sq. -/
def splitGroup (xs : List Nat) : Group :=
  let ds := xs.map (fun x => dyOfBf (BitVec.ofNat 16 x))
  let a := maxMag ds
  let e := if a.mag = 0 then 0 else clampInt (-127) 127 (ceilLog2 a 448)
  let part := fun (x : Dy) => dyOfE4m3 (toSmallFloat .e4m3 x.neg x.mag 1 x.exp)
  (ds.map (fun x =>
    let y : Dy := { x with exp := x.exp - e }
    let hi := part y
    let lo := part (Dy.sum [y, hi.opp])
    Dy.sum [hi, lo]), { neg := false, mag := 1, exp := e })

/-- A query head as groups: BF16 in split mode, FP8 as given (R105). -/
def queryGroups (fp8 : Bool) (xs : List Nat) : List Group :=
  (groupsOf 32 (xs.length / 32) xs).map (fun g => if fp8 then (g.map dyOfE4m3, Dy.one) else splitGroup g)

/-- The score of a query head against a key (R107). A CAP of 0 disables the cap. -/
def score (scale cap : Fp) (q k : List Group) : Fp :=
  let term := fun (x : Group × Group) =>
    let p := rne32 (Dy.sum (List.zipWith Dy.mul x.1.1 x.2.1))
    (rne32 (p.dy.mul (x.1.2.mul x.2.2))).mark p.sat
  let s := match (q.zip k).map term with
    | [] => Fp.zero
    | t :: ts => ts.foldl Fp.add t
  let z := s.mul scale
  if cap.dy.mag = 0 then z else cap.mul (tanhHw (z.div cap))

/-- The FP32 value 0x3FB8_AA3B (R111). -/
def l2e : Fp := Fp.of 0x3FB8AA3B

/-- exp2_hw of a difference of scores in natural-log units (R111, R126). -/
def expDiff (a b : Fp) : Fp := exp2Hw ((a.sub b).mul l2e)

/-- The empty partial that a fold starts from is none; the first visible tile gives it m, l = 0 and O = 0. -/
def Acc.start (m : Fp) (dv : Nat) : Acc := { o := List.replicate dv Fp.zero, m := m, l := Fp.zero }

/-- Add the visible keys of one group of 32 page positions (R111): their scores and values. -/
def foldGroup (acc : Acc) (keys : List (Fp × List Dy)) : Acc :=
  let ws := keys.map (fun k =>
    let w := (expDiff k.1 acc.m).toBf
    (dyOfBf w.1, w.2))
  let sat := ws.any (fun w => w.2)
  let lsum := (rne32 (Dy.sum (ws.map (fun w => w.1)))).mark sat
  { acc with
    l := acc.l.add lsum,
    o := (acc.o.zipIdx).map (fun x =>
      let terms := List.zipWith (fun w k => w.1.mul ((k.2[x.2]?).getD Dy.zero)) ws keys
      x.1.add ((rne32 (Dy.sum terms)).mark sat)) }

/-- Fold one tile (R111): page position, score and scaled value of each visible key, in rising position. -/
def foldTile (dv : Nat) (acc : Option Acc) (keys : List (Nat × Fp × List Dy)) : Option Acc :=
  match keys with
  | [] => acc
  | k :: ks =>
    let mt := ks.foldl (fun m x => m.max x.2.1) k.2.1
    let start : Acc := match acc with
      | none => Acc.start mt dv
      | some a =>
        if a.m.lt mt then
          let f := expDiff a.m mt
          { o := a.o.map (fun x => x.mul f), m := mt, l := a.l.mul f }
        else a
    some ((List.range 8).foldl (fun a g =>
      let here := keys.filter (fun x => x.1 / 32 == g)
      if here.isEmpty then a else foldGroup a (here.map (fun x => (x.2.1, x.2.2)))) start)

/-- A value position as exact scaled values (R111: v × sv). -/
def scaledValues (l : List Group) : List Dy := l.flatMap (fun g => g.1.map (fun x => x.mul g.2))

/-- Dimensions of an output head (R96). -/
def outDim (h : Shape) : Nat := if h.latent then 384 else dimOf h

/-- One query row folded over the tiles of a run in page order: page, body and visible positions of each (R111). -/
def foldRun (h : Shape) (scale cap : Fp) (q : List Group) (kvh : Nat) (tiles : List (TileBody × List Nat)) : Option Acc :=
  tiles.foldl (fun acc t => foldTile (outDim h) acc (t.2.map (fun pos =>
    (pos, score scale cap q (keyGroups h t.1 kvh pos), scaledValues (valueGroups h t.1 kvh pos))))) none

/-- Merge two run partials (R126). -/
def mergeAcc (a b : Acc) : Acc :=
  let m := a.m.max b.m
  let fa := expDiff a.m m
  let fb := expDiff b.m m
  { m := m, l := (a.l.mul fa).add (b.l.mul fb), o := List.zipWith (fun x y => (x.mul fa).add (y.mul fb)) a.o b.o }

/-- Merge where a run with no visible key yields no partial (R112). (DEDUCED: log entry 28.) -/
def mergeOpt : Option Acc → Option Acc → Option Acc
  | none, b => b
  | a, none => a
  | some a, some b => some (mergeAcc a b)

/-- The lead's merge of member partials in stripe order (R127): a member with none contributes nothing. -/
def mergeStripe (dv : Nat) (l : List (Option Acc)) : Option Acc :=
  match l.filterMap id with
  | [] => none
  | a :: rest =>
    let m := rest.foldl (fun m x => m.max x.m) a.m
    some (l.foldl (fun acc x =>
      let f := match x with
        | some p => expDiff p.m m
        | none => Fp.zero
      let p := x.getD (Acc.start m dv)
      { m := m, l := acc.l.add (p.l.mul f), o := List.zipWith (fun y z => y.add (z.mul f)) acc.o p.o }) (Acc.start m dv))

/-- The final BF16 output of a row and whether a rounding saturated (R113): +0 for an empty row. -/
def finalRow (dv : Nat) (a : Option Acc) : List (BitVec 16) × Bool :=
  match a with
  | none => (List.replicate dv 0, false)
  | some a =>
    let xs := a.o.map (fun x => (x.div a.l).toBf)
    (xs.map (fun x => x.1), xs.any (fun x => x.2) || a.m.sat || a.l.sat)

/-- A partial of a row saturated somewhere (R133). -/
def Acc.saturated (a : Acc) : Bool := a.m.sat || a.l.sat || a.o.any (fun x => x.sat)

/-- A partial result of a row as FP32 words: O, then m and l; the values of R54 for an empty row. -/
def partialRow (dv : Nat) (a : Option Acc) : PartialRow :=
  match a with
  | none => { o := List.replicate dv 0, m := 0xFF800000, l := 0 }
  | some a => { o := a.o.map (fun x => x.b), m := a.m.b, l := a.l.b }

/-- The partial that a member sent, none for an empty row (R54). -/
def accOf (r : PartialRow) : Option Acc :=
  if r.m = 0xFF800000 then none else some { o := r.o.map Fp.of, m := Fp.of r.m, l := Fp.of r.l }

/- Masks (R114 to R117). -/

/-- The default rule lets a query token at position q see key position k (R116). -/
def ruleSees (m : Mask) (q k : Nat) : Bool :=
  match m.rule with
  | 0 => true
  | 1 => false
  | 2 => decide (k ≤ q)
  | _ => decide (q < k + m.windowN) && decide (k ≤ q)

/-- A key position lies in the bitmap span. -/
def inSpan (m : Mask) (k : Nat) : Bool := m.bitmap && decide (m.spanStart ≤ k) && decide (k < m.spanStart + m.spanLen)

/-- Bit of a bitmap (R115). -/
def bitmapBit (m : Mask) (row col : Nat) : Bool :=
  ((m.bits[row * (m.spanLen / 8) + col / 8]?).getD 0).toNat.testBit (col % 8)

/-- Key position k is visible to query token i at position q (R116). -/
def visible (m : Mask) (held i q k : Nat) : Bool :=
  decide (k < held) && (if inSpan m k then bitmapBit m (m.rowBase + i) (k - m.spanStart) else ruleSees m q k)

/-- The positions of query tokens (R94). -/
def queryPos (p : Part) (i : Nat) : Nat := if p.qStep then p.qBase + i else p.qBase

/-- The dispatcher reads page p (R117): a position of it below held is in the rule or the span for some query token. The
test looks at no bitmap bit. -/
def readsPage (m : Mask) (held page : Nat) (qs : List Nat) : Bool :=
  let top := min held (256 * (page + 1))
  (List.range (top - 256 * page)).any (fun t =>
    let k := 256 * page + t
    inSpan m k || qs.any (fun q => ruleSees m q k))

/-- CAUSAL with no bitmap: the mask of a sequence without MASKED (R114). -/
def Mask.causal : Mask :=
  { rule := 2, bitmap := false, rowBase := 0, bmRows := 0, windowN := 0, spanStart := 0, spanLen := 0, bmWin := 0,
    bmOffset := 0, bits := [] }

end Sys2Proof.Machine
end

