-- ==== Sys2Proof/Machine/Crier.lean ====
section
/-! DEFINITION. Writes toward host memory, interrupts, and the crier: reports, capture, the log and events
(R563 to R577). -/
namespace Sys2Proof.Machine

/- Toward the host. -/

/-- DMA of a function waits: Bus Master Enable is clear (R454), or the link of its half is down (R422). -/
def dmaStopped (s : State) (fn : Nat) : Bool :=
  on s .pciFnStatusBmeOff fn || !(on s .pciLinkUp (halfOf s fn))

/-- One write or MSI-X message of a function reaches the host. -/
def dmaPut (fn : Nat) (d : DmaOut) (s : State) : State :=
  match d with
  | .write a bs => { s with hostMem := Memory.writeN s.hostMem a bs }
  | .msix v => { s with msix := s.msix ++ [(fn, v)] }

/-- A function makes a write toward the host: discarded when the function is wedged (R421), held while its DMA waits,
else done. -/
def dmaOut (fn : Nat) (d : DmaOut) (s : State) : State :=
  if on s .pciFnStatusWedged fn then s
  else if dmaStopped s fn then { s with dmaWait := s.dmaWait ++ [(fn, d)] }
  else dmaPut fn d s

/-- A posted write to host memory. (DESIGN CHOICE: log entry 7.) -/
def hostWrite (fn addr : Nat) (bs : Bytes) (s : State) : State := dmaOut fn (.write addr bs) s

/-- Fire the alarm vector (R568): it goes ahead of every write that waits. -/
def fireAlarm (s : State) : State :=
  let v := rd s .errAlarmAlarmVector 0
  if rd s .pciFnStatusVectors 0 ≤ v ∨ on s .pciFnStatusWedged 0 then s
  else if dmaStopped s 0 then { s with dmaWait := (0, .msix v) :: s.dmaWait }
  else dmaPut 0 (.msix v) s

/-- Fire a vector of a function; 0x7FF names none, nor does a number past the function's table (R420).
(DEDUCED: log entry 59.) -/
def fire (fn vector : Nat) (s : State) : State :=
  if vector < rd s .pciFnStatusVectors fn then dmaOut fn (.msix vector) s else s

/-- The held writes of functions whose DMA may go on again reach the host, in order. -/
def dmaFlush (s : State) : State :=
  let go := fun (x : Nat × DmaOut) => on s .pciFnStatusWedged x.1 || !dmaStopped s x.1
  (s.dmaWait.filter go).foldl (fun t x => dmaOut x.1 x.2 t) { s with dmaWait := drop go s.dmaWait }

/- Sources and conditions. -/

/-- The sources of R563. -/
def srcHall : Nat := 0x08
def srcStall (k : Nat) : Nat := 0x10 + k
def srcDispatcher : Nat := 0x30
def srcPackers : Nat := 0x31
def srcMatchers : Nat := 0x32
def srcHawker : Nat := 0x33
def srcPedlar : Nat := 0x35
def srcFlash : Nat := 0x38
def srcPort (p : Nat) : Nat := 0x40 + p
def srcHost : Nat := 0x50
def srcCxl : Nat := 0x51
def srcCore (k : Nat) : Nat := 0x58 + k
def srcAbtoser : Nat := 0x5C
def srcPower : Nat := 0x5D
def srcReset : Nat := 0x5E

/-- Severities (R564). -/
def sevInfo : Nat := 0
def sevCorrected : Nat := 1
def sevContained : Nat := 2
def sevDegraded : Nat := 3
def sevFatal : Nat := 4

/-- The conditions of R565. -/
inductive Cond where
  | correctedEcc | twinRepair | unreadable | frameRetired | isolation | frameListFull | hallLine | saveRecord
  | stallFailed | invalidTable | decodeFailure | flashRetry | codewordLost | unlistedDie | channelFailed | portDown
  | resultRefused | untrusted | ringError | refusedAccess | wedged | hostLost | ledgerWrite | coreRestart | fatal
  | stageEntered | stageEnded | thermalTrip | resetRecord | keyLost | bootRecord | overcurrent | clockLost | leaseLost
  /-- A boot that stopped: its code is the boot code of R513. -/
  | bootStopped (code : Nat)
  deriving DecidableEq, Repr

/-- The condition code of a log entry: the boot code for a stopped boot, else free (R570 lists none). -/
def Cond.code : Cond → Nat
  | .bootStopped c => c
  | .correctedEcc => (Config.code 0).toNat
  | .twinRepair => (Config.code 1).toNat
  | .unreadable => (Config.code 2).toNat
  | .frameRetired => (Config.code 3).toNat
  | .isolation => (Config.code 4).toNat
  | .frameListFull => (Config.code 5).toNat
  | .hallLine => (Config.code 6).toNat
  | .saveRecord => (Config.code 7).toNat
  | .stallFailed => (Config.code 8).toNat
  | .invalidTable => (Config.code 9).toNat
  | .decodeFailure => (Config.code 10).toNat
  | .flashRetry => (Config.code 11).toNat
  | .codewordLost => (Config.code 12).toNat
  | .unlistedDie => (Config.code 13).toNat
  | .channelFailed => (Config.code 14).toNat
  | .portDown => (Config.code 15).toNat
  | .resultRefused => (Config.code 16).toNat
  | .untrusted => (Config.code 17).toNat
  | .ringError => (Config.code 18).toNat
  | .refusedAccess => (Config.code 19).toNat
  | .wedged => (Config.code 20).toNat
  | .hostLost => (Config.code 21).toNat
  | .ledgerWrite => (Config.code 22).toNat
  | .coreRestart => (Config.code 23).toNat
  | .fatal => (Config.code 24).toNat
  | .stageEntered => (Config.code 25).toNat
  | .stageEnded => (Config.code 26).toNat
  | .thermalTrip => (Config.code 27).toNat
  | .resetRecord => (Config.code 28).toNat
  | .bootRecord => (Config.code 29).toNat
  | .overcurrent => (Config.code 30).toNat
  | .clockLost => (Config.code 31).toNat
  | .leaseLost => (Config.code 32).toNat
  | .keyLost => (Config.code 33).toNat

/- Events (R574 to R577). -/

/-- Where an event ring lies: host memory, or the ring area of its pitch. PF0 has no ring area. -/
def evtPlace (s : State) (fn : Nat) : Option (Bool × Nat) :=
  let a := rd s .errEvtCfgAddr fn
  if on s .errEvtCfgLoc fn then
    (if fn = 0 ∨ ringArea s (fn - 1) < a + 32 * 2 ^ rd s .errEvtCfgSizeLog2 fn then none
     else some (true, (pitchPlan s (fn - 1)).hallBase + a))
  else some (false, a)

/-- The pitch of a pitch function is being released: its events go to PF0 only (R583). -/
def releasing (s : State) (p : Nat) : Bool := 3 ≤ rd s .secPitchStateState p

/-- Post an event to one function's ring, or drop and count it when the ring is disabled or full (R577). -/
def postEvent (fn code source : Nat) (data : Bytes) (s : State) : State :=
  if s.phase == .fatalHold || (fn != 0 && releasing s (fn - 1)) then s else
  let size := 2 ^ rd s .errEvtCfgSizeLog2 fn
  match on s .errEvtCfgEnable fn && decide (lookupN s.crier.evtUnread fn < size), evtPlace s fn with
  | true, some (inHall, base) =>
    let tail := rd s .errEvtStateTail fn
    let phase := rd s .errEvtStatePhase fn
    let lost := s.crier.lostFns.contains fn
    let entry := leBytes 2 code ++ leBytes 1 (phase + 2 * b2n lost) ++ leBytes 1 source ++ leBytes 4 0
      ++ leBytes 8 s.localTime ++ (data ++ List.replicate (16 - data.length) 0).take 16
    let s := if inHall then { s with hall := Memory.writeN s.hall (base + 32 * tail) entry }
      else hostWrite fn (base + 32 * tail) entry s
    let s := { s with crier := { s.crier with lostFns := s.crier.lostFns.erase fn,
                                              evtUnread := setN s.crier.evtUnread fn (lookupN s.crier.evtUnread fn + 1) } }
    let s := if tail + 1 = size then wr .errEvtStateTail fn 0 (wr .errEvtStatePhase fn (1 - phase) s)
      else wr .errEvtStateTail fn (tail + 1) s
    fire fn (rd s .errEvtCfgVector fn) s
  | _, _ => { bump .errEvtStateLost fn 1 s with crier := { s.crier with lostFns := s.crier.lostFns ++
      (if s.crier.lostFns.contains fn then [] else [fn]) } }

/-- Post an event to several functions. -/
def postTo (fns : List Nat) (code source : Nat) (data : Bytes) (s : State) : State :=
  each fns (fun fn => postEvent fn code source data) s

/- The log ring (R570 to R573). -/

/-- Unread entries of the log ring. -/
def logUnread (s : State) : Nat := (rd s .errLogPtrWrite 0 + 2048 - rd s .errLogPtrRead 0) % 2048

/-- An entry may use the last 8 slots (R572): FATAL reports, reset records and boot records. -/
def LogEntry.reserved (e : LogEntry) : Bool := e.kind == 2 || e.kind == 3 || (e.kind == 0 && e.sev == 4)

/-- Store an entry at a place of the ring. -/
def logPut (n : Nat) (e : LogEntry) (s : State) : State :=
  let k := n % 1024
  { s with crier := { s.crier with log := (k, e) :: drop (fun x => x.1 == k) s.crier.log } }

/-- Store an entry at WRITE and advance WRITE. -/
def logAppend (e : LogEntry) (s : State) : State :=
  let w := rd s .errLogPtrWrite 0
  bump .errSourceStatLogged e.source 1 (wr .errLogPtrWrite 0 (w + 1) (logPut w e s))

/-- The oldest unread entry that a reserved kind may overwrite. -/
def logVictim (s : State) : Option Nat :=
  let r := rd s .errLogPtrRead 0
  ((List.range (logUnread s)).map (fun i => (r + i) % 1024)).find? (fun k =>
    s.crier.log.any (fun x => x.1 == k && !x.2.reserved))

/-- A LOST marker goes before the first entry after a drop. -/
def logMarker (s : State) : State :=
  if s.crier.dropped = 0 ∨ 1016 ≤ logUnread s then s else
  let e : LogEntry :=
    { time := s.localTime, boot := rd s .pwrResetCauseFullResets 0, source := freeBits s 8, kind := 1,
      sev := sevInfo, code := freeBits (freshen s) 16, pitch := none, detail0 := s.crier.dropped % 2 ^ 32,
      detail1 := s.crier.dropAt }
  let w := rd s .errLogPtrWrite 0
  let s := bump .errLogPtrMarkers 0 1 (wr .errLogPtrWrite 0 (w + 1) (logPut w e (freshen (freshen s))))
  { s with crier := { s.crier with dropped := 0 } }

/-- Write an entry, or drop it with the ring full (R572). The answer names the place it took. -/
def logWrite (e : LogEntry) (s : State) : Option Nat × State :=
  let s := if logUnread s < 1016 ∨ e.reserved then logMarker s else s
  let w := rd s .errLogPtrWrite 0
  if logUnread s < 1016 ∨ (e.reserved ∧ logUnread s < 1024) then (some w, logAppend e s)
  else if e.reserved then
    match logVictim s with
    | some k => (some k, bump .errSourceStatLogged e.source 1 (bump .errLogPtrOverwritten 0 1 (logPut k e s)))
    | none => (none, bump .errSourceStatDropped e.source 1 s)
  else
    let c := s.crier
    (none, { bump .errSourceStatDropped e.source 1 s with
      crier := { c with dropped := c.dropped + 1, dropAt := if c.dropped = 0 then s.localTime else c.dropAt } })

/-- First-error capture (R569). -/
def capture (src sev code : Nat) (p : Option Nat) (d0 d1 : Nat) (s : State) : State :=
  let fill := fun (above : Nat) (s : State) =>
    wr .errCaptureValid src 1 (wr .errCaptureSeverity src sev (wr .errCaptureOverwrote src above (wr .errCaptureCode src code
      (wr .errCapturePitch src (p.getD 0) (wr .errCapturePitchValid src (b2n p.isSome)
        (wr .errCaptureBoot src (rd s .pwrResetCauseFullResets 0) (wr .errCaptureTime src s.localTime
          (wr .errCaptureDetail0 src d0 (wr .errCaptureDetail1 src d1 s)))))))))
  if !(on s .errCaptureValid src) then fill 0 (wr .errCaptureMore src 0 s)
  else if rd s .errCaptureSeverity src < sev then fill 1 s
  else bump .errCaptureMore src 1 s

/-- A slot of the source's budget in the present window (R573): whether it is free, and the state with it used.
(DEDUCED: log entry 68.) -/
def budget (src sev : Nat) (s : State) : Bool × State :=
  let now := s.localTime / 1000000000
  let b := (s.crier.budgets.find? (fun b => b.source == src && b.second == now)).getD
    { source := src, second := now, written := 0, corrected := 0 }
  if 64 ≤ b.written ∨ (sev = sevCorrected ∧ 48 ≤ b.corrected) then (false, s)
  else
    let b' : Budget := { source := src, second := now, written := b.written + 1, corrected := b.corrected + b2n (sev == sevCorrected) }
    (true, { s with crier := { s.crier with budgets := b' :: drop (fun x => x.source == src) s.crier.budgets } })

/-- FATAL_N, ALERT_N and the alarm vector (R566 to R568). A stopped boot asserts ALERT_N only. -/
def alarms (sev : Nat) (c : Cond) (s : State) : State :=
  if sev < sevDegraded then s else
  let s := wr .errAlarmAlert 0 1 s
  match c with
  | .bootStopped _ => s
  | _ =>
    fireAlarm (if sev = sevFatal then wr .errAlarmFatal 0 1 s else s)

/-- ALERT_N is asserted, and reads so while VAUX is absent (R567, R602). -/
def alertLine (s : State) : Bool := !s.power.vauxOk || on s .errAlarmAlert 0

/-- FATAL_N is asserted, and reads so while VAUX is absent (R566, R602). -/
def fatalLine (s : State) : Bool := !s.power.vauxOk || on s .errAlarmFatal 0

/-- The ERROR event of a report (R576). -/
def errorEvent (src sev code : Nat) (p : Option Nat) (place : Option Nat) (s : State) : State :=
  if sev = sevContained ∨ sev = sevDegraded then
    let data := leBytes 1 sev ++ leBytes 1 0 ++ leBytes 2 code ++ leBytes 1 (p.getD 0xFF) ++ leBytes 1 0
      ++ leBytes 2 (place.getD 0xFFFF)
    postTo (0 :: (match p with
      | some n => [n + 1]
      | none => [])) 0x0050 src data s
  else s

/-- A datum of a report: in confidential mode a report that names a pitch shows the pitch's granule index only (R571). Which
granule it is is free. (DESIGN CHOICE: log entry 12.) -/
def reportDatum (s : State) (p : Option Nat) (d : Nat) : Nat :=
  match p with
  | some p => if on s .secModeConf 0 then (Config.word s.fresh).toNat % max 1 (pitchPlan s p).granules.length else d
  | none => d

/-- A unit reports a condition with its data to the crier: capture, alarms, the log under its budget, the ERROR event
(R569 to R576). -/
def reportWith (src : Nat) (c : Cond) (sev : Nat) (p : Option Nat) (data0 data1 : Nat) (s : State) : State :=
  let d0 := reportDatum s p data0
  let d1 := reportDatum s p data1
  let s := freshen s
  let s := alarms sev c (capture src sev c.code p d0 d1 s)
  let e : LogEntry :=
    { time := s.localTime, boot := rd s .pwrResetCauseFullResets 0, source := src, kind := 0, sev := sev,
      code := c.code, pitch := p, detail0 := d0, detail1 := d1 }
  if sev = sevFatal then (logWrite e s).2
  else match budget src sev s with
    | (false, s) => bump .errSourceStatSuppressed src 1 s
    | (true, s) =>
      let r := logWrite e s
      errorEvent src sev c.code p r.1 r.2

/-- A unit reports a condition whose data the specification does not name. (DESIGN CHOICE: log entry 12.) -/
def report (src : Nat) (c : Cond) (sev : Nat) (p : Option Nat) (s : State) : State :=
  reportWith src c sev p (Config.word s.fresh).toNat (Config.word (s.fresh + 1)).toNat (freshen (freshen s))

/-- A unit reports a condition with the one datum that the specification names for it. (DESIGN CHOICE: log entry 12.) -/
def reportAt (src : Nat) (c : Cond) (sev : Nat) (p : Option Nat) (d0 : Nat) (s : State) : State :=
  reportWith src c sev p d0 (Config.word s.fresh).toNat (freshen s)

/-- A reset record or a boot record (R570, R552): no budget, no event. -/
def record (kind : Nat) (c : Cond) (sev : Nat) (s : State) : State :=
  let e : LogEntry :=
    { time := s.localTime, boot := rd s .pwrResetCauseFullResets 0, source := srcReset, kind := kind,
      sev := sev, code := c.code, pitch := none, detail0 := (Config.word s.fresh).toNat,
      detail1 := (Config.word (s.fresh + 1)).toNat }
  (logWrite e (freshen (freshen s))).2

/-- Telemetry and traces may be written now: not in P2 and P3 (R580), not in the FATAL hold (R583). -/
def telemRuns (s : State) : Bool := decide (rd s .pwrStateState 0 < 2) && s.phase == .running

/-- A trace record (R579 to R581): not in confidential mode, under stage A or in P2 and P3; dropped and counted when host
writes of PF0 wait. (DESIGN CHOICE: log entry 12.) -/
def writeTrace (t : Trace) (s : State) : State :=
  let a := rd s .errTelemAddrTraceAddr 0
  if !(on s .errTelemCtrlTrace 0) ∨ on s .secModeConf 0 ∨ 1 ≤ rd s .pwrStageStage 0 ∨ !(telemRuns s) ∨ a = 0 then s
  else if dmaStopped s 0 then bumpK .errTelemCtrlTraceDrops 0 1 s
  else
    let size := 2 ^ (16 + rd s .errTelemCtrlTraceSizeLog2 0)
    let bs := (List.range 32).map (fun i => Config.byte s.fresh i)
    let s := hostWrite 0 (a + s.crier.tracePos) bs (freshen s)
    { s with crier := { s.crier with tracePos := (s.crier.tracePos + 32) % size }, traces := s.traces ++ [t] }

/-- The 32 bytes of a log entry (R570). -/
def LogEntry.image (e : LogEntry) : Bytes :=
  leBytes 8 e.time ++ leBytes 2 e.boot ++ leBytes 1 e.source ++ leBytes 1 (e.sev + 16 * e.kind) ++ leBytes 2 e.code
    ++ leBytes 1 (match e.pitch with
      | some p => p + 16
      | none => 0) ++ leBytes 1 0 ++ leBytes 8 e.detail0 ++ leBytes 8 e.detail1

end Sys2Proof.Machine
end

