-- ==== Sys2Proof/Machine/Coding.lean ====
section
/-! DEFINITION. Coding of blocks: canonical codes, the table store, the choice of tables at seal, packed copies and delta
coding (R285 to R318). -/
namespace Sys2Proof.Machine

/- Canonical codes (R289, R290). -/

/-- The codewords of the symbols of one length: symbol, length, codeword; and the code after them. -/
def codesOfLen (lens : List Nat) (len code : Nat) : List (Nat × Nat × Nat) × Nat :=
  let syms := ((lens.zipIdx).filter (fun x => x.1 == len)).map (fun x => x.2)
  ((syms.zipIdx).map (fun x => (x.1, len, code + x.2)), code + syms.length)

/-- The codewords of a table (R290): symbol, length, codeword, shortest first. -/
def canon (lens : List Nat) : List (Nat × Nat × Nat) :=
  (((List.range 16).map (· + 1)).foldl (fun (acc : List (Nat × Nat × Nat) × Nat) len =>
    let r := codesOfLen lens len acc.2
    (acc.1 ++ r.1, 2 * r.2)) ([], 0)).1

/-- The bits of a codeword, most significant first. -/
def codeBits : Nat → Nat → List Bool
  | 0, _ => []
  | n + 1, v => bit v n :: codeBits n v

/-- Bytes of a bit string, most significant first; the last byte is padded with 0 bits (R294). -/
def bitBytes : Nat → List Bool → Bytes
  | 0, _ => []
  | n + 1, l => if l.isEmpty then [] else
    BitVec.ofNat 8 (((l.take 8).zipIdx).foldl (fun v x => v + b2n x.1 * 2 ^ (7 - x.2)) 0) :: bitBytes n (l.drop 8)

/-- The bits of a byte string, most significant first. -/
def bytesBits (bs : Bytes) : List Bool := bs.flatMap (fun b => codeBits 8 b.toNat)

/-- Decode a bit string under a table; none when it does not end with a symbol (R318). -/
def decodeBits (t : List (Nat × Nat × Nat)) : List Bool → Nat → Nat → List Nat → Option (List Nat)
  | [], len, _, acc => if len = 0 then some acc.reverse else none
  | b :: bs, len, code, acc =>
    let c := 2 * code + b2n b
    match t.find? (fun x => x.2.1 == len + 1 && x.2.2 == c) with
    | some x => decodeBits t bs 0 0 (x.1 :: acc)
    | none => decodeBits t bs (len + 1) c acc

/- Code tables (R291, R292). -/

/-- A table's fingerprint (R292). -/
def fingerprint (wide : Bool) (lens : List Nat) : Bytes :=
  (sha384 (BitVec.ofNat 8 (b2n wide) :: lens.map (BitVec.ofNat 8))).take 8

/-- The table of an id and generation in a pitch. -/
def tableOf (s : State) (p id gen : Nat) : Option CodeTable :=
  s.tables.find? (fun t => t.pitch == p && t.id == id && t.gen == gen)

/-- The newest table of an id: tables stand in order of creation. -/
def newestTable (s : State) (p id : Nat) : Option CodeTable :=
  (s.tables.filter (fun t => t.pitch == p && t.id == id)).getLast?

/-- A VALID table of a pitch with a fingerprint. -/
def tableByPrint (s : State) (p : Nat) (print : Bytes) : Option CodeTable :=
  s.tables.find? (fun t => t.pitch == p && t.print == print)

/-- The ids of an active list, from the most recently chosen (R295). -/
def activeIds (s : State) (p role : Nat) : List Nat :=
  match s.actives.find? (fun l => l.pitch == p && l.role == role) with
  | some l => l.ids
  | none => []

/-- CURRENT of a pitch's tables (R291): the newest generation of an id in an active list. -/
def recurrent (p : Nat) (s : State) : State :=
  let listed := fun (i : Nat) => s.actives.any (fun l => l.pitch == p && l.ids.contains i)
  { s with tables := upd (fun t => t.pitch == p) (fun t =>
      { t with current := listed t.id && ((newestTable s p t.id).map (fun x => x.gen) == some t.gen) }) s.tables }

/-- Store an active list, cut to ACTIVE_MAX ids (R295). -/
def putActive (p role : Nat) (ids : List Nat) (s : State) : State :=
  let rest := drop (fun (l : ActiveList) => l.pitch == p && l.role == role) s.actives
  recurrent p { s with actives := { pitch := p, role := role, ids := ids.take (rd s .pitchPackCfgActiveMax p) } :: rest }

/-- An id becomes the most recently chosen of a role. -/
def touchTable (p role id : Nat) (s : State) : State := putActive p role (id :: (activeIds s p role).erase id) s

/-- Blocks of a directory that name a table. (DEDUCED: log entry 67.) -/
def dirUses (l : List BlockDir) (id gen : Nat) : Nat :=
  countBy (fun d => (d.mode == 1 || d.mode == 2) && d.tableId == id && d.gen == gen) l

/-- USE of a table (R291, R299, R301): the blocks that name it in every copy of the pitch's crates. A tier-1 copy that a move
has left behind names the tables it was coded with until its READERS reach 0. (DEDUCED: log entry 67.) -/
def tableUse (s : State) (t : CodeTable) : Nat :=
  sumBy (fun c => if c.pitch = t.pitch then
      b2n c.dram.isSome * dirUses c.dir t.id t.gen
        + sumBy (fun (l : Left) => if l.handle.tier = 1 then dirUses l.dir t.id t.gen else 0) c.leaving
        + (b2n c.lease.isSome + b2n c.flash.isSome) * dirUses c.packDir t.id t.gen
    else 0) s.crates

/-- A block directory of a pitch names a table that is not VALID (R303). -/
def badTable (s : State) (p : Nat) (l : List BlockDir) : Bool :=
  l.any (fun d => (d.mode == 1 || d.mode == 2) && (tableOf s p d.tableId d.gen).isNone)

/-- Tables that are neither used nor current are freed (R300); a restored one is kept while a zone written before the
reset stands, and until its USE has risen and fallen to 0 (R315). (DEDUCED: log entry 78.) -/
def sweepTables (s : State) : State :=
  let held := fun (t : CodeTable) => t.restored
    && (!t.risen || s.zones.any (fun z => z.pitch == t.pitch && z.old && z.state != 0))
  let seen := s.tables.map (fun t => { t with risen := t.risen || decide (0 < tableUse s t) })
  { s with tables := seen.filter (fun t => t.current || held t || decide (0 < tableUse s t)) }

/-- A new table is refused (R298). -/
def refuseTable (s : State) : State := bump .hallTableStoreRefused 0 1 s

/-- A table of a role is created in a pitch with an id and generation. -/
def createTable (p role id gen : Nat) (wide : Bool) (lens : List Nat) (s : State) : State :=
  let t : CodeTable :=
    { pitch := p, id := id, gen := gen, wide := wide, lengths := lens, print := fingerprint wide lens, current := true,
      restored := false, risen := false, role := role }
  touchTable p role id (bump .pitchPackStatTablesMade p 1 { s with tables := s.tables ++ [t] })

/-- Admit a new table for a role of a pitch (R298): its id and generation, or none. -/
def admitTable (p role : Nat) (wide : Bool) (lens : List Nat) (s : State) : Option (Nat × Nat) × State :=
  let ids := activeIds s p role
  match tableByPrint s p (fingerprint wide lens) with
  | some t => (some (t.id, t.gen), touchTable p role t.id s)
  | none =>
    if rd s .pitchPackCfgTableQuota p ≤ countBy (fun t => t.pitch == p) s.tables ∨ 512 ≤ s.tables.length then
      (none, refuseTable s)
    else if ids.length < rd s .pitchPackCfgActiveMax p then
      match (List.range 256).find? (fun i => !(s.tables.any (fun t => t.pitch == p && t.id == i))) with
      | some id => (some (id, 0), createTable p role id 0 wide lens s)
      | none => (none, refuseTable s)
    else match ids.getLast? with
      | none => (none, refuseTable s)
      | some id =>
        let g := ((newestTable s p id).map (fun t => t.gen)).getD 0
        match ((List.range 16).map (fun i => (g + 1 + i) % 16)).find? (fun k => (tableOf s p id k).isNone) with
        | some k => (some (id, k), createTable p role id k wide lens s)
        | none => (none, refuseTable s)

/- Sizes and the choice at seal (R293 to R299). -/

/-- The symbols of a block in body order. -/
def Block.symbols (b : Block) : List Nat := b.elems.flatMap id

/-- The chunks of a block: 256 consecutive symbols each (R294). -/
def Block.chunks (b : Block) : List (List Nat) :=
  let l := b.symbols
  groupsOf 256 (l.length / 256 + 1) l

/-- Coded bits of a chunk under a table. -/
def chunkBits (lens : List Nat) (chunk : List Nat) : Nat := sumBy (fun x => (lens[x]?).getD 0) chunk

/-- Size in 512 B units of a block's coded form (R294, R297). -/
def codedUnits (lens : List Nat) (chunks : List (List Nat)) : Nat :=
  ceilDiv (2 * chunks.length + sumBy (fun c => ceilDiv (chunkBits lens c) 8) chunks) 512

/-- How often each of n symbols occurs. -/
def histogram (n : Nat) (chunks : List (List Nat)) : List Nat :=
  (List.range n).map (fun x => sumBy (fun c => c.count x) chunks)

/-- Pair neighbours into packages; an odd one is left out. -/
def pairs : List (Nat × List Nat) → List (Nat × List Nat)
  | a :: b :: t => (a.1 + b.1, a.2 ++ b.2) :: pairs t
  | _ => []

/-- Merge packages into leaves by weight, leaves first among equals (R297). The fuel bounds the lengths. -/
def mergeLeaves : Nat → List (Nat × List Nat) → List (Nat × List Nat) → List (Nat × List Nat)
  | 0, _, _ => []
  | _ + 1, [], ps => ps
  | _ + 1, ls, [] => ls
  | n + 1, l :: ls, p :: ps => if l.1 ≤ p.1 then l :: mergeLeaves n ls (p :: ps) else p :: mergeLeaves n (l :: ls) ps

/-- One level of package-merge after another. -/
def packLevels (leaves : List (Nat × List Nat)) : Nat → List (Nat × List Nat)
  | 0 => leaves
  | n + 1 => mergeLeaves (2 * leaves.length + leaves.length) leaves (pairs (packLevels leaves n))

/-- Code lengths from counts by package-merge (R297): 16 symbols to at most 12 bits, 256 to at most 16. -/
def buildLengths (counts : List Nat) : List Nat :=
  let n := counts.length
  let leaves := sortBy (fun (x : Nat × List Nat) => x.1) ((counts.zipIdx).map (fun x => (max x.1 1, [x.2])))
  let top := (packLevels leaves ((if n = 16 then 12 else 16) - 1)).take (2 * n - 2)
  let all := top.flatMap (fun x => x.2)
  (List.range n).map (fun x => all.count x)

/-- The role of a block (R295). -/
def roleOf (delta values wide : Bool) : Nat := 4 * b2n delta + 2 * b2n values + b2n wide

/-- Raw size of a block in bytes, from its chunks. -/
def rawBytes (wide : Bool) (chunks : List (List Nat)) : Nat := chunks.length * (if wide then 256 else 128)

/-- A coded size is worth storing (R296). -/
def codeWorth (wide : Bool) (chunks : List (List Nat)) (units : Nat) : Bool :=
  decide (units * 512 * 8 ≤ 7 * rawBytes wide chunks)

/-- The lengths of a table by id and generation. -/
def lengthsOf (s : State) (p : Nat) (t : Nat × Nat) : List Nat := ((tableOf s p t.1 t.2).map (fun x => x.lengths)).getD []

/-- The table of a role's active list that codes a block in least size, ties to the lowest id (R297). -/
def bestTable (s : State) (p role : Nat) (chunks : List (List Nat)) : Option (Nat × Nat) :=
  let l := (sortBy id (activeIds s p role)).filterMap (newestTable s p)
  (leastBy (fun t => codedUnits t.lengths chunks) l).map (fun t => (t.id, t.gen))

/-- Choose the tables of the blocks of one role (R297): one answer per block. -/
def chooseRole (p role : Nat) (wide : Bool) (blocks : List (List (List Nat))) (s : State) :
    List (Option (Nat × Nat)) × State :=
  let n := if wide then 256 else 16
  let best := blocks.map (bestTable s p role)
  let size := fun (s : State) (t : Option (Nat × Nat)) (b : List (List Nat)) => codedUnits (lengthsOf s p (t.getD (0, 0))) b
  let wants := (blocks.zip best).map (fun x => match x.2 with
    | none => true
    | some _ => decide (16 * codedUnits (buildLengths (histogram n x.1)) x.1 ≤ 15 * size s x.2 x.1))
  if !(wants.any id) then (best, s) else
  let all := ((blocks.zip wants).filter (fun x => x.2)).flatMap (fun x => x.1)
  match admitTable p role wide (buildLengths (histogram n all)) s with
  | (none, s) => (best, s)
  | (some t, s) => (((blocks.zip best).zip wants).map (fun x =>
      if x.2 && (x.1.2.isNone || decide (size s (some t) x.1.1 < size s x.1.2 x.1.1)) then some t else x.1.2), s)

/-- A coded directory entry. -/
def BlockDir.coded (t : Nat × Nat) (units mode : Nat) : BlockDir :=
  { tableId := t.1, gen := t.2, codedLen := units, mode := mode }

/-- Code the blocks of one role: their directory entries, with the tables chosen moved to the front. -/
def codeRole (p role : Nat) (wide : Bool) (blocks : List (List (List Nat))) (s : State) : List BlockDir × State :=
  let r := chooseRole p role wide blocks s
  let s := r.2
  let dirs := (blocks.zip r.1).map (fun x => match x.2 with
    | none => BlockDir.raw
    | some t =>
      let units := codedUnits (lengthsOf s p t) x.1
      if codeWorth wide x.1 units then BlockDir.coded t units 1 else BlockDir.raw)
  (dirs, each dirs (fun d s => if d.mode = 1 then touchTable p role d.tableId s else s) s)

/-- The role of each block of a shape, standalone. -/
def blockRoles (h : Shape) : List (Nat × Bool) :=
  (blocksOf h).map (fun b => let w := (elemKind h.format b.2.2).bits == 8; (roleOf false (!b.2.2) w, w))

/-- Choose the coding of a body (R297): the block directory. Under supply stage B every block is raw (R74). -/
def codeBody (p : Nat) (h : Shape) (body : List Block) (s : State) : List BlockDir × State :=
  if 2 ≤ rd s .pwrStageStage 0 then (body.map (fun _ => BlockDir.raw), s) else
  let roles := blockRoles h
  let items := ((roles.zip body).zipIdx).map (fun x => (x.2, x.1.1, x.1.2.chunks))
  let r := (List.range 4).foldl (fun (acc : List (Nat × BlockDir) × State) role =>
    let mine := items.filter (fun x => x.2.1.1 == role)
    if mine.isEmpty then acc else
    let c := codeRole p role (role % 2 == 1) (mine.map (fun x => x.2.2)) acc.2
    (acc.1 ++ (mine.zip c.1).map (fun x => (x.1.1, x.2)), c.2)) ([], s)
  ((sortBy (fun x => x.1) r.1).map (fun x => x.2), r.2)

/-- Count the blocks that the packer writes (R323). -/
def countBlocks (p : Nat) (l : List BlockDir) (s : State) : State :=
  let coded := countBy (fun d => d.mode == 1 || d.mode == 2) l
  bumpK .pitchPackStatRawK p (l.length - coded) (bump .pitchPackStatCoded p coded s)

/- Packed copies (R287, R288). -/

/-- The bytes of one coded block (R294). -/
def codedBytes (lens : List Nat) (b : Block) (units : Nat) : Bytes :=
  let t := canon lens
  let parts := b.chunks.map (fun c =>
    let bs := c.flatMap (fun x => match t.find? (fun y => y.1 == x) with
      | some y => codeBits y.2.1 y.2.2
      | none => [])
    (bs.length, bitBytes (bs.length / 8 + 1) bs))
  let l := parts.flatMap (fun x => leBytes 2 x.1) ++ parts.flatMap (fun x => x.2)
  l ++ List.replicate (units * 512 - l.length) 0

/-- Pad a byte string with zeros to a multiple. -/
def padTo (n : Nat) (bs : Bytes) : Bytes := bs ++ List.replicate (roundUp bs.length n - bs.length) 0

/-- Stored size of a block in a packed copy, in 512 B units. -/
def packUnits (h : Shape) (d : BlockDir) (b : Nat × Nat × Bool) : Nat :=
  if d.mode = 1 then d.codedLen else ceilDiv (blockSize h b) 512

/-- Exact size of the scale region (R288). -/
def scaleLen (h : Shape) : Nat := sumBy (fun b => 256 * b.2.1 / 32) (blocksOf h)

/-- The tables that a packed directory names, in ascending order of id and generation (R288). -/
def packRefs (l : List BlockDir) : List (Nat × Nat) :=
  distinct ((sortBy (fun (x : Nat × Nat) => x.1 * 16 + x.2) ((l.filter (fun d => d.mode == 1)).map (fun d => (d.tableId, d.gen)))))

/-- Bytes before the scale region in a packed copy. -/
def packHead (l : List BlockDir) : Nat :=
  (if 16 < l.length then 128 else 64) + roundUp (16 + 4 * l.length + 16 * (packRefs l).length) 64

/-- Bytes of a packed copy (R287). -/
def packSize (h : Shape) (l : List BlockDir) : Nat :=
  roundUp (packHead l + roundUp (scaleLen h) 512
    + sumBy (fun x => 512 * packUnits h x.1 x.2) (l.zip (blocksOf h))) 4096

/-- A packed copy of a crate (R287). (DESIGN CHOICE: log entry 80.) -/
def packCrate (s : State) (c : Crate) : Bytes :=
  let h := c.shape
  let l := c.packDir
  let head := ({ c with dir := l } : Crate).header
    ++ (if 16 < l.length then extEntry l none else [])
  let units := (l.zip (blocksOf h)).map (fun x => packUnits h x.1 x.2)
  let scales := roundUp (scaleLen h) 512 / 512
  let refs := packRefs l
  let index := leBytes 1 l.length ++ leBytes 1 refs.length ++ leBytes 2 0 ++ leBytes 4 (scaleLen h) ++ leBytes 8 0
    ++ (List.range l.length).flatMap (fun i => leBytes 4 (scales + sumBy id (units.take i)))
    ++ refs.flatMap (fun r => leBytes 1 r.1 ++ leBytes 1 r.2 ++ leBytes 6 0
      ++ ((tableOf s c.pitch r.1 r.2).map (fun t => t.print)).getD (List.replicate 8 0))
  let blocks := ((l.zip (kindsOf h)).zip c.body).flatMap (fun x =>
    if x.1.1.mode = 1 then codedBytes (lengthsOf s c.pitch (x.1.1.tableId, x.1.1.gen)) x.2 x.1.1.codedLen
    else padTo 512 (x.2.elemBytes x.1.2))
  padTo 4096 (head ++ padTo 64 index ++ padTo 512 (bodyScales c.body) ++ blocks)

/-- The fields of a packed copy that a receiver reads first (R59, R60, R288): the directory and the TABLE_REFs with
their fingerprints. None when it is no packed copy of that shape. -/
def packIndex (h : Shape) (bs : Bytes) : Option (List BlockDir × List (Nat × Nat × Bytes)) :=
  let n := (blocksOf h).length
  let ext := bit (leAt bs 1 1) 4
  let base := if ext then 128 else 64
  let entry := fun (i : Nat) =>
    let w := leAt bs (if i < 16 then 0x10 + 3 * i else 64 + 3 * (i - 16)) 3
    ({ tableId := bits w 0 8, gen := bits w 8 4, codedLen := bits w 12 8, mode := bits w 20 2 } : BlockDir)
  if leAt bs 0 1 ≠ 1 ∨ leAt bs 3 1 ≠ n ∨ leAt bs base 1 ≠ n ∨ bits (leAt bs 1 1) 0 3 ≠ h.format then none
  else
    let t0 := base + 16 + 4 * n
    some ((List.range n).map entry, (List.range (leAt bs (base + 1) 1)).map (fun i =>
      (leAt bs (t0 + 16 * i) 1, bits (leAt bs (t0 + 16 * i + 1) 1) 0 4, (bs.drop (t0 + 16 * i + 8)).take 8)))

/-- Split element bytes into symbols. -/
def rawSymbols (k : EKind) (bs : Bytes) : List Nat :=
  if k.bits = 4 then bs.flatMap (fun b => [b.toNat % 16, b.toNat / 16]) else bs.map (fun b => b.toNat)

/-- The symbols of a coded block of n chunks (R294, R318). -/
def decodeBlock (lens : List Nat) (n : Nat) (bs : Bytes) : Option (List Nat) :=
  let t := canon lens
  let ls := (List.range n).map (fun i => leAt bs (2 * i) 2)
  let starts := (List.range n).map (fun i => 2 * n + sumBy (fun l => ceilDiv l 8) (ls.take i))
  (ls.zip starts).foldl (fun acc x => match acc with
    | none => none
    | some l =>
      if bs.length < x.2 + ceilDiv x.1 8 then none else
      match decodeBits t ((bytesBits ((bs.drop x.2).take (ceilDiv x.1 8))).take x.1) 0 0 [] with
      | some c => if c.length = 256 then some (l ++ c) else none
      | none => none) (some [])

/-- Block i of a packed copy, given the lengths of each table it names: none where it does not decode (R318). -/
def unpackBlock (h : Shape) (bs : Bytes) (lensOf : Nat → Nat → Option (List Nat)) (i : Nat) : Option (List Nat) :=
  match packIndex h bs with
  | none => none
  | some (l, refs) => match l[i]?, (kindsOf h)[i]?, (blocksOf h)[i]? with
    | some d, some k, some b =>
      let base := (if bit (leAt bs 1 1) 4 then 128 else 64)
      let off := base + roundUp (16 + 4 * l.length + 16 * refs.length) 64 + 512 * bits (leAt bs (base + 16 + 4 * i) 4) 0 24
      let raw := blockSize h b
      if d.mode = 1 then (lensOf d.tableId d.gen).bind (fun lens => decodeBlock lens b.2.1 ((bs.drop off).take (512 * d.codedLen)))
      else if bs.length < off + raw then none else some (rawSymbols k ((bs.drop off).take raw))
    | _, _, _ => none

/-- The body of a packed copy (R316), given the lengths of each table it names. -/
def unpackBody (h : Shape) (bs : Bytes) (lensOf : Nat → Nat → Option (List Nat)) : Option (List Block) :=
  match packIndex h bs with
  | none => none
  | some (l, refs) =>
    let base := (if bit (leAt bs 1 1) 4 then 128 else 64)
    let start := base + roundUp (16 + 4 * l.length + 16 * refs.length) 64
    let part := fun (i : Nat) (x : BlockDir × EKind × (Nat × Nat × Bool)) (scaleAt : Nat) =>
      (unpackBlock h bs lensOf i).map (fun v =>
        let groups := x.2.2.2.1 / 32
        ({ scales := groupsOf groups 256 (((bs.drop (start + scaleAt)).take (256 * groups)).map (fun b => b.toNat)),
           elems := groupsOf x.2.2.2.1 256 v } : Block))
    let items := l.zip ((kindsOf h).zip (blocksOf h))
    (items.zipIdx).foldl (fun acc x => match acc with
      | none => none
      | some done =>
        let at_ := sumBy (fun (b : Nat × Nat × Bool) => 256 * b.2.1 / 32) ((blocksOf h).take x.2)
        match part x.2 x.1 at_ with
        | some b => some (done ++ [b])
        | none => none) (some [])

/- Delta coding (R307, R308). -/

/-- The stored symbols of a delta block (R307): those of the variant less those of the base, modulo 2 to the width. -/
def Block.minus (k : EKind) (v b : Block) : List Nat :=
  List.zipWith (fun x y => (x + 2 ^ k.bits - y) % 2 ^ k.bits) v.symbols b.symbols

/-- The unpacker adds the base symbols to the delta symbols of a block, modulo 2 to the width (R312). -/
def Block.plus (k : EKind) (delta : List Nat) (v b : Block) : Block :=
  let l := List.zipWith (fun x y => (x + y) % 2 ^ k.bits) delta b.symbols
  { v with elems := groupsOf ((v.elems.head?).elim 0 List.length) 256 l }

/-- The body of a tier-1 copy as the unpacker delivers it (R302, R312): a block with MODE 2 or 3 stands there as its delta
symbols, and the base's symbols are added to them. -/
def expandBody (h : Shape) (dir : List BlockDir) (body base : List Block) : List Block :=
  (((kindsOf h).zip dir).zip (body.zip base)).map (fun x =>
    if 2 ≤ x.1.2.mode then Block.plus x.1.1 (Block.minus x.1.1 x.2.1 x.2.2) x.2.1 x.2.2 else x.2.1)

/-- The delta symbols of a block against its base (R307). -/
def deltaChunks (k : EKind) (v b : Block) : List (List Nat) :=
  let l := Block.minus k v b
  groupsOf 256 (l.length / 256 + 1) l

/-- The stored size of a block, in bytes (R296). -/
def storedBytes (wide : Bool) (chunks : List (List Nat)) (d : BlockDir) : Nat :=
  if d.mode = 1 ∨ d.mode = 2 then 512 * d.codedLen else rawBytes wide chunks

/-- The delta coding of a crate against a base (R308): its new directory, all unchanged where no block gains. -/
def deltaBody (p : Nat) (h : Shape) (body base : List Block) (dir : List BlockDir) (s : State) : List BlockDir × State :=
  let roles := blockRoles h
  let items := (((roles.zip (kindsOf h)).zip (body.zip base)).zipIdx).map (fun x =>
    (x.2, x.1.1.1, deltaChunks x.1.1.2 x.1.2.1 x.1.2.2))
  let r := (List.range 4).foldl (fun (acc : List (Nat × BlockDir) × State) role =>
    let mine := items.filter (fun x => x.2.1.1 == role)
    if mine.isEmpty then acc else
    let wide := role % 2 == 1
    let c := chooseRole p (4 + role) wide (mine.map (fun x => x.2.2)) acc.2
    let s := c.2
    let ds := (mine.zip c.1).map (fun x =>
      let old := (dir[x.1.1]?).getD BlockDir.raw
      match x.2 with
      | none => (x.1.1, old)
      | some t =>
        let units := codedUnits (lengthsOf s p t) x.1.2.2
        if 8 * 512 * units ≤ 7 * storedBytes wide x.1.2.2 old then (x.1.1, BlockDir.coded t units 2) else (x.1.1, old))
    (acc.1 ++ ds, each ds (fun d s => if d.2.mode = 2 then touchTable p (4 + role) d.2.tableId s else s) s)) ([], s)
  ((sortBy (fun x => x.1) r.1).map (fun x => x.2), r.2)

end Sys2Proof.Machine
end

