-- ==== Sys2Proof/Machine/Flags.lean ====
section
/-! DEFINITION. Status codes, opcodes and the flag bytes of entries and records (R435 to R438, R97). -/
namespace Sys2Proof.Machine

/-- The value of a status code (R438). -/
def Status.code : Status → Nat
  | .ok => 0x00
  | .busy => 0x01
  | .busyPower => 0x02
  | .badParam => 0x03
  | .badState => 0x04
  | .access => 0x05
  | .revoked => 0x06
  | .noSeq => 0x07
  | .exists_ => 0x08
  | .noSpace => 0x09
  | .limit => 0x0A
  | .narrowKeys => 0x0B
  | .poison => 0x0C
  | .duplicateDiffers => 0x0D
  | .peerLost => 0x0E
  | .timeout => 0x0F
  | .badOpcode => 0x10
  | .closing => 0x11
  | .cancelled => 0x12

/-- The status of a code, where it is not reserved. -/
def Status.ofCode (n : Nat) : Option Status :=
  [Status.ok, .busy, .busyPower, .badParam, .badState, .access, .revoked, .noSeq, .exists_, .noSpace, .limit, .narrowKeys,
    .poison, .duplicateDiffers, .peerLost, .timeout, .badOpcode, .closing, .cancelled][n]?

/-- The opcode byte of a command (R437). -/
def Opcode.code : Opcode → Nat
  | .seqOpen => 0x01
  | .seqClose => 0x02
  | .seqPark => 0x03
  | .seqFork => 0x04
  | .attend => 0x10
  | .accept => 0x11
  | .hintStep => 0x12
  | .prefixLookup => 0x20
  | .prefixPublish => 0x21
  | .prefixDrop => 0x22
  | .winOpen => 0x30
  | .winRevoke => 0x31
  | .chitSet => 0x38
  | .chitAdd => 0x39
  | .chitWait => 0x3A
  | .pitchBind => 0x40
  | .pitchRelease => 0x41
  | .timetableSelect => 0x42
  | .shaperSet => 0x43
  | .attest => 0x48
  | .fullReset => 0x4F

/-- The commands of the opcode table (R437). -/
def allOpcodes : List Opcode :=
  [.seqOpen, .seqClose, .seqPark, .seqFork, .attend, .accept, .hintStep, .prefixLookup, .prefixPublish, .prefixDrop, .winOpen,
    .winRevoke, .chitSet, .chitAdd, .chitWait, .pitchBind, .pitchRelease, .timetableSelect, .shaperSet, .attest, .fullReset]

/-- The command of an opcode byte. -/
def Opcode.ofCode (n : Nat) : Option Opcode := allOpcodes.find? (fun o => o.code == n)

/-- The command may be given on a ring of a pitch (R437). -/
def Opcode.onPitch : Opcode → Bool
  | .pitchBind | .pitchRelease | .timetableSelect | .shaperSet | .fullReset => false
  | _ => true

/-- The command may be given on a management ring (R437). -/
def Opcode.onPf0 : Opcode → Bool
  | .chitSet | .chitAdd | .chitWait | .pitchBind | .pitchRelease | .timetableSelect | .shaperSet | .attest | .fullReset => true
  | _ => false

/-- The stallholder a command needs (R18): PITCH_BIND and PITCH_RELEASE core 0, sequences and timetables core 1, prefix
publication core 2, shapers core 3. -/
def Opcode.core : Opcode → Option Nat
  | .pitchBind | .pitchRelease => some 0
  | .seqOpen | .seqClose | .seqPark | .seqFork | .timetableSelect => some 1
  | .prefixPublish | .prefixDrop => some 2
  | .shaperSet => some 3
  | _ => none

/-- Header flag FENCE (R435). -/
def flagFence : Nat := 0
/-- Header flag CHAINED (R435). -/
def flagChained : Nat := 1

end Sys2Proof.Machine
end

