-- ==== Sys2Proof/Machine/Operands.lean ====
section
/-! DEFINITION. The data operands of commands: host windows (R433), Etlos windows (R335 to R339, R631), and reading
and writing through them. -/
namespace Sys2Proof.Machine

/-- What an operand access gives: the value, a status that ends the command, or something to wait for. -/
inductive Got (α : Type) where
  | val (a : α)
  | bad (st : Status)
  | wait (w : Wait)
  /-- The host holds lines of a range of a pitch's DRAM: they are snooped first (R449). -/
  | held (pitch off len : Nat)
  /-- The bytes lie at the peer of the command's connection and have to be read: window, offset, length. -/
  | remote (window offset len : Nat)

/-- Sequencing of operand accesses. -/
def Got.bind {α β : Type} (g : Got α) (f : α → Got β) : Got β :=
  match g with
  | .val a => f a
  | .bad st => .bad st
  | .wait w => .wait w
  | .held p o n => .held p o n
  | .remote w o n => .remote w o n

/-- Where an operand lies. -/
inductive Place where
  | host (fn addr : Nat)
  | dram (pitch offset : Nat)
  | hall (addr : Nat)
  | peer (conn window offset : Nat)
  deriving DecidableEq, Repr

/-- The window on an index. -/
def windowAt (s : State) (index : Nat) : Option Window := s.windows.find? (fun w => w.index == index)

/-- The handle of a window (R335). -/
def Window.handle (w : Window) : Nat := w.index + w.gen * 262144

/-- The outcome of the handle check (R631): the window, or ACCESS or REVOKED. -/
def checkHandle (s : State) (h : Nat) : Except Status Window :=
  let index := bits h 0 18
  let gen := bits h 18 13
  if gen = 0 ∨ s.winNext ≤ index then .error .access
  else match windowAt s index with
    | none => .error .revoked
    | some w => if w.gen != gen || w.revoking then .error .revoked else .ok w

/-- Bits of PERMS (R337). -/
def permRemoteRead : Nat := 0
def permRemoteWrite : Nat := 1
def permLocalRead : Nat := 2
def permLocalWrite : Nat := 3

/-- Where a window's byte lies, for a data window (R336). -/
def Window.place (w : Window) (off : Nat) : Place :=
  if w.kind = 0 then .dram w.pitch (w.base + off) else .hall (w.base + off)

/-- The use check of R339 after the handle check. -/
def useWindow (s : State) (pitch h off len perm : Nat) : Except Status Window :=
  match checkHandle s h with
  | .error e => .error e
  | .ok w => if w.pitch = pitch ∧ bit w.perms perm ∧ off + len ≤ w.length then .ok w else .error .access

/-- Use of a host window by a command of a host ring (R433, R434, R458). -/
def useHostWindow (s : State) (pitch h off len : Nat) (write : Bool) : Except Status Place :=
  let i := pitch * 256 + bits h 0 8
  if bits h 8 23 = 0 ∧ off + len ≤ rd s .pciHwinLength i
      ∧ on s (if write then .pciHwinWrite else .pciHwinRead) i
  then .ok (.host (pitch + 1) (rd s .pciHwinBase i + off)) else .error .access

/-- The ring carries commands from the fabric (R425). -/
def fabricRing (s : State) (r : Nat) : Bool := on s .pciRingCfgFabric r

/-- The connection of a pitch to a peer (R333). -/
def connBetween (s : State) (p q : Nat) : Option Nat :=
  ((s.plan.fields.filter (fun x => x.1.fld == .fabConnCfgPeer && x.2 == q && on s .fabConnCfgValid x.1.idx
    && !(on s .fabConnCfgService x.1.idx) && rd s .fabConnCfgPitch x.1.idx == p)).map (fun x => x.1.idx)).head?

/-- The connection on which a command came: that of its fabric ring, or, for a command that a stripe's lead forwarded
(ring numbers from 1,024 spell 16 × peer + pitch), that between the pitches (R76, R425). -/
def ringConn (s : State) (ring : Nat) : Option Nat :=
  if ring < 1024 then (if fabricRing s ring then some (rd s .pciRingCfgConn ring) else none)
  else connBetween s ((ring - 1024) % 16) ((ring - 1024) / 16)

/-- Where a window operand of a command lies. The windows of a forwarded command are the lead's (R78, R124). -/
def locate (s : State) (ring h off len : Nat) (write : Bool) : Except Status Place :=
  if 1024 ≤ ring then
    (match ringConn s ring with
    | some c => .ok (.peer c h off)
    | none => .error .access)
  else match ringPitch s ring with
  | none => .error .access
  | some p =>
    if bit h 31 then
      if fabricRing s ring then .ok (.peer (rd s .pciRingCfgConn ring) h off)
      else useHostWindow s p h off len write
    else match useWindow s p h off len (if write then permLocalWrite else permLocalRead) with
      | .error e => .error e
      | .ok w => if w.kind ≤ 1 then .ok (w.place off) else .error .access

/- The CXL view of DRAM (R448 to R450). -/

/-- The half of the host port and the 64 B line in its window that shows a byte of a pitch's DRAM, if any does. -/
def cxlOf (s : State) (p off : Nat) : Option (Nat × Nat) :=
  ((pitchPlan s p).segments.find? (fun g => match g.data with
    | some d => d ≤ off && off < d + g.size
    | none => false)).map (fun g => (g.half, (g.base + off - g.data.getD 0) / 64))

/-- The tracked line of a byte of DRAM. -/
def trackedLine (s : State) (p off : Nat) : Option CxlLine :=
  match cxlOf s p off with
  | none => none
  | some (h, l) => s.cxlLines.find? (fun x => x.half == h && x.line == l)

/-- The 64 B lines that a range touches, by the offset of their first byte. -/
def linesOf (off len : Nat) : List Nat :=
  if len = 0 then [] else (List.range ((off + len - 1) / 64 - off / 64 + 1)).map (fun i => (off / 64 + i) * 64)

/-- The host holds a line of the range so that the access must snoop first (R449): any copy before a write, an
exclusive one before a read. -/
def mustSnoop (s : State) (p off len : Nat) (write : Bool) : Bool :=
  (linesOf off len).any (fun l => match trackedLine s p l with
    | some x => write || x.exclusive
    | none => false)

/-- A line is snooped: its time runs from the first snoop (R449). -/
def CxlLine.ask (now : Nat) (x : CxlLine) : CxlLine := if x.snooped then x else { x with snooped := true, snoopAt := now }

/-- Mark the held lines of a range as snooped (R449). -/
def snoop (p off len : Nat) (s : State) : State :=
  let held := (linesOf off len).filterMap (cxlOf s p)
  { s with cxlLines := upd (fun x => held.contains (x.half, x.line)) (CxlLine.ask s.localTime) s.cxlLines }

/-- A line of the range is poisoned (R450). -/
def poisoned (s : State) (p off len : Nat) : Bool :=
  (linesOf off len).any (fun l => s.poison.contains (dramKey p l))

/- Reading and writing. -/

/-- Read bytes at a place. (DESIGN CHOICE: log entry 7.) -/
def readPlace (s : State) (pl : Place) (len : Nat) : Got Bytes :=
  match pl with
  | .host fn a => if dmaStopped s fn then .wait .dma else .val (Memory.readN s.hostMem a len)
  | .dram p off =>
    if mustSnoop s p off len false then .held p off len
    else if poisoned s p off len then .bad .poison
    else .val (Memory.readN s.dram (dramKey p off) len)
  | .hall a => .val (Memory.readN s.hall a len)
  | .peer _ w off => .remote w off len

/-- Store bytes in a pitch's DRAM. A full 64 B write clears poison, a partial one leaves it (R450). -/
def writeDram (p off : Nat) (bs : Bytes) (s : State) : State :=
  let full := (linesOf off bs.length).filter (fun l => off ≤ l && l + 64 ≤ off + bs.length)
  { s with dram := Memory.writeN s.dram (dramKey p off) bs,
           poison := s.poison.filter (fun k => !(full.any (fun l => dramKey p l == k))) }

/-- Store bytes at a place of this device or of the host. A peer's place is written by a packet instead. -/
def writePlace (pl : Place) (bs : Bytes) (s : State) : State :=
  match pl with
  | .host fn a => hostWrite fn a bs s
  | .dram p off => writeDram p off bs s
  | .hall a => { s with hall := Memory.writeN s.hall a bs }
  | .peer _ _ _ => s

/-- Read a window operand of a command, from what a remote read has brought where it has. -/
def readOperand (s : State) (c : Cmd) (h off len : Nat) : Got Bytes :=
  if len = 0 then .val [] else
  match c.inputs.find? (fun x => x.1 == h && x.2.1 == off && x.2.2.length == len) with
  | some x => .val x.2.2
  | none => match c.badIn.find? (fun x => x.1 == h && x.2.1 == off && x.2.2.1 == len) with
    | some x => .bad x.2.2.2
    | none => match locate s c.ring h off len false with
      | .error e => .bad e
      | .ok pl => readPlace s pl len

/-- Check a window operand that a command will write. (DEDUCED: log entry 33.) -/
def checkOutput (s : State) (c : Cmd) (h off len : Nat) : Got Place :=
  match locate s c.ring h off len true with
  | .error e => .bad e
  | .ok (.dram p o) => if mustSnoop s p o len true then .held p o len else .val (.dram p o)
  | .ok (.host fn a) => .val (.host fn a)
  | .ok pl => .val pl

end Sys2Proof.Machine
end

