-- ==== Sys2Proof/Machine/Send.lean ====
section
/-! DEFINITION. The sending side of Etlos: connections and their windows, paths, egress queues, messages (R326 to R358,
R382, R387). -/
namespace Sys2Proof.Machine

/-- A connection that has sent and received nothing. -/
def Conn.fresh (n : Nat) : Conn :=
  { num := n, epoch := 0, asked := none, txPsn := 0, txCum := 0, msgId := 0, queued := [], unacked := [],
    doneMsgs := [], rotation := 0, rxCum := 0, rxSeen := [], refused := [], naksOut := [],
    ackPending := 0, ackFrame := none, ackAt := 0, srtt := 0, rttvar := 0,
    rttSeen := false, rto := 20000, expiries := 0, lastCut := 0, lastHalve := 0, paths := [], lastUse := 0 }

/-- A peer of which nothing has been heard. -/
def Peer.fresh (n : Nat) : Peer :=
  { num := n, reachable := false, lastHeard := 0, probeAt := none, txCounter := 0, rxPhase := 0, rxHigh := 0, rxSeen := [],
    nextReady := false, oldPhase := false, oldHigh := 0, oldSeen := [], bornAt := 0, rekeyAt := none, startedAt := 0,
    failSaid := none, polled := false, unreachableSince := 0, assocId := 0 }

/-- The transport state of a connection. -/
def connOf (s : State) (c : Nat) : Conn := (s.conns.find? (fun x => x.num == c)).getD (Conn.fresh c)

/-- Store the transport state of a connection. -/
def putConn (c : Conn) (s : State) : State :=
  { s with conns := if s.conns.any (fun x => x.num == c.num) then upd (fun x => x.num == c.num) (fun _ => c) s.conns
      else s.conns ++ [c] }

/-- Change the transport state of a connection. -/
def onConn (c : Nat) (f : Conn → Conn) (s : State) : State := putConn (f (connOf s c)) s

/-- The association state of a peer. -/
def peerOf (s : State) (p : Nat) : Peer := (s.peers.find? (fun x => x.num == p)).getD (Peer.fresh p)

/-- Store the association state of a peer. -/
def putPeer (p : Peer) (s : State) : State :=
  { s with peers := if s.peers.any (fun x => x.num == p.num) then upd (fun x => x.num == p.num) (fun _ => p) s.peers
      else s.peers ++ [p] }

/-- Change the association state of a peer. -/
def onPeer (p : Nat) (f : Peer → Peer) (s : State) : State := putPeer (f (peerOf s p)) s

/-- The plan's row of a peer (R331). -/
def peerPlan (s : State) (p : Nat) : Option PeerPlan := s.plan.peers[p]?

/-- The peer is an LY-7 (R366). -/
def isLy7 (s : State) (p : Nat) : Bool :=
  match peerPlan s p with
  | some r => r.kind == .ly7
  | none => false

/-- The peer that carries a device id. -/
def peerOfDevice (s : State) (d : Nat) : Option Nat :=
  (List.range s.plan.peers.length).find? (fun i => match s.plan.peers[i]? with
    | some r => r.kind == .ly9 && r.deviceId == d
    | none => false)

/-- This device's id (R27). -/
def deviceId (s : State) : Nat := rd s .hallDeviceInfoDeviceId 0

/-- The peer of a connection. -/
def connPeer (s : State) (c : Nat) : Nat := rd s .fabConnCfgPeer c

/-- The connections that the plan lists for a peer, in rising order (R331). -/
def connsOfPeer (s : State) (p : Nat) : List Nat :=
  sortBy id ((s.plan.fields.filter (fun x => x.1.fld == .fabConnCfgPeer && x.2 == p && on s .fabConnCfgValid x.1.idx)).map
    (fun x => x.1.idx))

/-- Every connection the plan lists. -/
def allConns (s : State) : List Nat :=
  sortBy id ((s.plan.fields.filter (fun x => x.1.fld == .fabConnCfgValid && x.2 == 1)).map (fun x => x.1.idx))

/-- The service connection to a peer, if the plan lists one (R332). (DEDUCED: log entry 47.) -/
def serviceConn (s : State) (p : Nat) : Option Nat := (connsOfPeer s p).find? (fun c => on s .fabConnCfgService c)

/-- The connection of a pitch to a device (R333). -/
def pitchConn (s : State) (pitch device : Nat) : Option Nat :=
  match peerOfDevice s device with
  | none => none
  | some p => (connsOfPeer s p).find? (fun c => !(on s .fabConnCfgService c) && rd s .fabConnCfgPitch c == pitch)

/-- The pitches that have a connection to a peer. -/
def peerPitches (s : State) (p : Nat) : List Nat :=
  distinct (((connsOfPeer s p).filter (fun c => !(on s .fabConnCfgService c))).map (fun c => rd s .fabConnCfgPitch c))

/-- Payload bytes of a full packet (R373). -/
def maxPayload (s : State) : Nat := 1024 * 2 ^ rd s .fabTransportCfgMaxPayload 0

/-- Serial comparison of PSNs: a is later than b (R330). -/
def later (a b : Nat) : Bool := let d := (a + 4294967296 - b % 4294967296) % 4294967296; 1 ≤ d && d < 2147483648

/-- The next PSN (R330). -/
def psnAdd (a n : Nat) : Nat := (a + n) % 4294967296

/-- The distance of a PSN after another. -/
def psnDist (a b : Nat) : Nat := (a + 4294967296 - b) % 4294967296

/-- A port's frames carry an 802.1Q tag (R327, R391). (PRESUMED: log entry 90.) -/
def taggedPort (s : State) (p : Nat) : Bool := s.plan.tagged.contains p

/-- A frame's length from the destination MAC address to the FCS (R327, R390). (PRESUMED: log entry 90.) -/
def frameLen (s : State) (f : Frame) : Nat :=
  (if taggedPort s f.port then 18 else 14) + (if on s .fabTransportCfgIpv4 0 then 20 else 40) + 8 + 16 + 32 + f.payload.length
    + 16 + 4

/-- The Etlos header of a frame, 32 B (R328). -/
def etlosHeader (f : Frame) : Bytes :=
  leBytes 1 (f.ver % 16 * 16 + f.opcode % 16)
    ++ leBytes 1 (b2n f.first + 2 * b2n f.last + 4 * b2n f.final + 8 * b2n f.ackreq + 16 * b2n f.ordered)
    ++ leBytes 2 f.conn ++ leBytes 4 f.psn ++ leBytes 2 f.msgId ++ leBytes 2 f.pktIndex ++ leBytes 4 f.window ++ leBytes 6 f.offset
    ++ leBytes 2 f.length ++ leBytes 4 f.sendTs ++ leBytes 2 f.epoch ++ leBytes 2 0

/-- The association header of a frame, 16 B (R396). -/
def assocHeader (id : Nat) (f : Frame) : Bytes := leBytes 4 id ++ leBytes 1 (f.keyPhase % 2) ++ leBytes 3 0 ++ leBytes 8 f.counter

/-- The UDP header of a frame, 8 B in network order: the source port carries the path entropy, the destination port is UDP_PORT,
the checksum is 0 over IPv4 and computed over IPv6 (R326). A computed checksum covers ciphertext, so its value is free.
(DESIGN CHOICE: log entry 13.) -/
def udpHeader (s : State) (f : Frame) : Bytes :=
  let be := fun (n : Nat) => (leBytes 2 n).reverse
  be f.udpSrc ++ be (rd s .fabTransportCfgUdpPort 0) ++ be (8 + 16 + 32 + f.payload.length + 16)
    ++ be (if on s .fabTransportCfgIpv4 0 then 0 else freeBits s 16)

/-- The send timestamp (R22). -/
def sendTs (s : State) : Nat := s.localTime / 8 % 4294967296

/-- The version a connection to a peer uses (R328, R366). -/
def versionFor (s : State) (p : Nat) : Nat := if isLy7 s p then 1 else 2

/-- The opcodes of R329. -/
def opWrite : Nat := 1
def opReadReq : Nat := 2
def opReadResp : Nat := 3
def opAck : Nat := 4
def opNak : Nat := 5
def opCtrl : Nat := 6

/-- A port may carry new frames: up, and not in low-power idle (R350). -/
def portUsable (s : State) (p : Nat) : Bool := rd s .fabPortStatusState p == 2

/-- The ports a connection may use now, in ascending order (R350). -/
def usablePorts (s : State) (c : Nat) : List Nat :=
  (List.range 8).filter (fun p => bit (rd s .fabConnCfgPortMask c) p && portUsable s p)

/-- The path values of a connection that congestion control has not taken out (R385). -/
def usableValues (s : State) (c : Nat) : List Nat :=
  (List.range (rd s .fabConnCfgPathsM1 c + 1)).filter (fun k => !(bit (rd s .fabConnCcAvoided c) k))

/-- The usable paths of a connection: value j with the (j mod n)-th usable port (R350). -/
def usablePaths (s : State) (c : Nat) : List (Nat × Nat) :=
  let ports := usablePorts s c
  if ports.length = 0 then [] else (usableValues s c).map (fun j => ((ports[j % ports.length]?).getD 0, j))

/-- The next usable path in the rotation that is not the one given, where another exists (R350). -/
def nextPath (s : State) (c : Nat) (avoid : Option (Nat × Nat)) : Option (Nat × Nat) :=
  let r := (connOf s c).rotation
  let l := usablePaths s c
  let turned := l.filter (fun x => r ≤ x.2) ++ l.filter (fun x => x.2 < r)
  match turned.find? (fun x => some x != avoid) with
  | some x => some x
  | none => turned.head?

/-- The UDP source port of a path value (R350). -/
def pathPort (c k : Nat) : Nat := 0xC000 + (64 * c + k) % 0x4000

/-- The path value that a UDP source port names (R350, R380). -/
def pathValue (c udpSrc : Nat) : Nat := (udpSrc + 0x10000 - 0xC000 + 0x4000 - (64 * c) % 0x4000) % 0x4000 % 64

/-- A frame joins an egress queue (R387). A port that is down or in low-power idle holds none: the frame is discarded (R394). -/
def enqueue (port q : Nat) (f : Frame) (s : State) : State :=
  if !(portUsable s port) then s else
  { s with ports := (s.ports.zipIdx).map (fun x => if x.2 = port then
      { x.1 with egress := (x.1.egress.zipIdx).map (fun y => if y.2 = q then { y.1 with frames := y.1.frames ++ [f] } else y.1) }
      else x.1) }

/-- A header with every field at its neutral value, for a connection. -/
def blankFrame (s : State) (c : Nat) : Frame :=
  { port := 0, src := some (connPeer s c), udpSrc := 0, keyPhase := 0, counter := 0, tagOk := true,
    ver := versionFor s (connPeer s c), opcode := 0, first := false, last := false, final := false, ackreq := false,
    ordered := on s .fabConnCfgMode c, conn := rd s .fabConnCfgPeerConn c, psn := 0, msgId := 0, pktIndex := 0, window := 0,
    offset := 0, length := 0, sendTs := 0, epoch := (connOf s c).epoch, payload := [] }

/-- A packet of a connection, sent or received, uses its state (R334). (DEDUCED: log entry 43.) -/
def touch (c : Nat) (s : State) : State := onConn c (fun x => { x with lastUse := s.localTime }) s

/-- Send an unsequenced packet on queue 0 of a port with a source port (R351, R387). -/
def sendUnsequenced (c port udpSrc op : Nat) (payload : Bytes) (s : State) : State :=
  enqueue port 0 { blankFrame s c with
    port := port, udpSrc := udpSrc, opcode := op, length := payload.length, payload := payload, sendTs := sendTs s } (touch c s)

/-- One packet leaves on a path: it joins the port's queue and is unacknowledged (R350, R387). A NAK first takes the
port and source port of the packet that caused it (R351). -/
def launch (c : Nat) (p : TxPkt) (path : Nat × Nat) (s : State) : State :=
  let nak := p.frame.opcode == opNak && p.path == some path
  let f := { p.frame with
    port := path.1, udpSrc := if nak then p.frame.udpSrc else pathPort c path.2, sendTs := sendTs s }
  let q := if f.opcode = opNak then 0 else rd s .fabConnCfgEgressQueue c
  let s := enqueue path.1 q f s
  onConn c (fun x => { x with
    unacked := x.unacked ++ [{ p with frame := f, path := some path, sentAt := s.localTime, later := 0 }],
    rotation := if nak then x.rotation else (path.2 + 1) % (rd s .fabConnCfgPathsM1 c + 1), lastUse := s.localTime }) s

/-- Send a packet again on another path where one exists (R350, R357); where there is none it is held (R352). -/
def resend (c : Nat) (p : TxPkt) (s : State) : State :=
  match nextPath s c p.path with
  | none => s
  | some path =>
    let f := { p.frame with port := path.1, udpSrc := pathPort c path.2, sendTs := sendTs s }
    let q := if f.opcode = opNak then 0 else rd s .fabConnCfgEgressQueue c
    let s := enqueue path.1 q f s
    let s := onConn c (fun x => { x with
      unacked := upd (fun y => y.frame.psn == p.frame.psn)
        (fun y => { y with frame := f, path := some path, sentAt := s.localTime, later := 0 }) x.unacked,
      rotation := (path.2 + 1) % (rd s .fabConnCfgPathsM1 c + 1), lastUse := s.localTime }) s
    bump .fabReliabilityRetx path.1 1 (bump .fabConnStateRetx c 1 s)

/-- Packets held since their port went down are sent again once a path is usable (R352). -/
def resendHeld (c : Nat) (s : State) : State :=
  each ((connOf s c).unacked.filter (fun p => p.path.isNone)) (resend c) s

/-- Payload bytes in flight (R382). -/
def inFlight (x : Conn) : Nat := sumBy (fun p => p.frame.payload.length) x.unacked

/- What a remote read reads (R339, R343, R347). -/

/-- The value of a chit. -/
def chitVal (s : State) (i : Nat) : Nat := lookupN s.chits i

/-- A pitch is being released: CLOSING or SCRUBBING (R343, R349). (DEDUCED: log entry 39.) -/
def pitchGoes (s : State) (p : Nat) : Bool := let st := rd s .secPitchStateState p; st == 3 || st == 4

/-- The pitch of a connection is being released: its packets are refused with CLOSING (R343, R349). (DEDUCED: log entry 39.) -/
def connClosing (s : State) (c : Nat) : Bool := !(on s .fabConnCfgService c) && pitchGoes s (rd s .fabConnCfgPitch c)

/-- The remote check of R339 and R631 before the kind's rules: the window or the refusal code. -/
def remoteUse (s : State) (c handle off len perm : Nat) : Except Nat Window :=
  if on s .fabConnCfgService c ∨ bit handle 31 then .error 1 else
  match checkHandle s handle with
  | .error .revoked => .error 2
  | .error _ => .error 1
  | .ok w =>
    if w.pitch = rd s .fabConnCfgPitch c ∧ (w.conn = 0xFFFF ∨ w.conn = c) ∧ bit w.perms perm ∧ off + len ≤ w.length then .ok w
    else .error 1

/-- The pieces of a range by packets: offset from its start, and length. -/
def pieces (n len : Nat) : List (Nat × Nat) :=
  (List.range (ceilDiv len n)).map (fun i => (i * n, min n (len - i * n)))

/-- The bytes of chits. -/
def chitBytes (s : State) (base off n : Nat) : Bytes :=
  (List.range n).map (fun i => ((leBytes 8 (chitVal s (base + (off + i) / 8)))[(off + i) % 8]?).getD 0)

/-- One packet of a remote read: its data, or the refusal code that ends the read (R347, R450). -/
def readPiece (s : State) (c handle off n : Nat) : Except Nat Bytes :=
  match remoteUse s c handle off n permRemoteRead with
  | .error e => .error e
  | .ok w => match w.kind with
    | 0 => if poisoned s w.pitch (w.base + off) n then .error 1
        else .ok (Memory.readN s.dram (dramKey w.pitch (w.base + off)) n)
    | 1 => .ok (Memory.readN s.hall (w.base + off) n)
    | 2 => .error 1
    | _ => .ok (chitBytes s w.base off n)

/-- The range of a pitch's DRAM that a packet of a remote read takes its data from. -/
def sourceRange (s : State) (c : Nat) (r : Source) : Option (Nat × Nat × Nat) :=
  if r.crate.isSome then none else
  match remoteUse s c r.window r.offset r.bytes permRemoteRead with
  | .ok w => if w.kind = 0 then some (w.pitch, w.base + r.offset, r.bytes) else none
  | .error _ => none

/-- A packet takes its data as it leaves: each packet of a remote read is checked and read then (R343, R347, R486). The code
refuses it; no code says that its lines must be snooped first (R449). -/
def fill (s : State) (c : Nat) (p : TxPkt) : Except (Option Nat) TxPkt :=
  match p.source with
  | none => .ok p
  | some r =>
    match r.crate with
    | some pitch => if pitchGoes s pitch then .error (some 7) else .ok { p with source := none }
    | none =>
      if connClosing s c then .error (some 7)
      else if (sourceRange s c r).any (fun x => mustSnoop s x.1 x.2.1 x.2.2 false) then .error none
      else match readPiece s c r.window r.offset r.bytes with
        | .error e => .error (some e)
        | .ok bs => .ok { p with frame := { p.frame with payload := bs }, source := none }

/-- A new packet may be sent (R355, R382, R395): the connection is UP, no RESYNC of it waits for its answer (R358), the association is
up, the window has room. -/
def mayLaunch (s : State) (c : Nat) (p : TxPkt) : Bool :=
  let x := connOf s c
  rd s .fabConnStateState c == 1 && x.asked.isNone && rd s .fabAssocStateState (connPeer s c) == 2
    && psnDist p.frame.psn x.txCum ≤ 256
    && (x.unacked.isEmpty || inFlight x + p.frame.length ≤ rd s .fabConnCcCwnd c)

/-- The payload of a NAK (R348). -/
def nakPayload (psn msgId code : Nat) (readEnd : Bool) (window offset : Nat) : Bytes :=
  leBytes 4 (if readEnd then 0 else psn) ++ leBytes 2 msgId ++ leBytes 1 code ++ leBytes 1 (b2n readEnd)
    ++ leBytes 4 window ++ leBytes 4 0 ++ leBytes 6 offset ++ leBytes 2 0

/-- The packet of a NAK on a connection, on the port and with the source port of the packet that caused it (R348, R351). -/
def nakPacket (s : State) (c psn port udpSrc : Nat) (payload : Bytes) : TxPkt :=
  { conn := c, purpose := .none, path := some (port, pathValue c udpSrc),
    sentAt := 0, later := 0,
    frame := { blankFrame s c with
      port := port, udpSrc := udpSrc, opcode := opNak, first := true, last := true, ackreq := true, psn := psn,
      msgId := (connOf s c).msgId, length := payload.length, payload := payload } }

/-- The first queued packet of a connection is a READ_RESP that its check refuses: a NAK with READ_END takes its PSN, the rest of
the response is not sent, and what follows moves up (R343, R347). (DEDUCED: log entry 40.) -/
def endRead (c code : Nat) (p : TxPkt) (r : Source) (s : State) : State :=
  let x := connOf s c
  let rest := x.queued.drop 1
  let kept := rest.dropWhile (fun y => y.source.isSome && y.frame.msgId == p.frame.msgId && !y.frame.first)
  let back := 4294967296 - (rest.length - kept.length)
  let nak := nakPacket s c p.frame.psn r.port r.udpSrc (nakPayload 0 r.msgId code true r.window r.offset)
  bump .fabReliabilityNaksSent r.port 1 (putConn { x with
    queued := nak :: kept.map (fun y => { y with frame := { y.frame with psn := psnAdd y.frame.psn back } }),
    txPsn := psnAdd x.txPsn back, msgId := (x.msgId + 1) % 65536,
    naksOut := x.naksOut.map (fun n => (if later n.1 p.frame.psn then psnAdd n.1 back else n.1, n.2)) } s)

/-- Send the packets of a connection that may be sent now, in order. The fuel bounds the count. -/
def pump (c : Nat) : Nat → State → State
  | 0, s => s
  | n + 1, s =>
    match (connOf s c).queued with
    | [] => s
    | p :: rest =>
      if mayLaunch s c p then
        match (match p.path with
          | some x => if portUsable s x.1 then some x else nextPath s c none
          | none => nextPath s c none) with
        | none => s
        | some path => match fill s c p, p.source with
          | .ok p, _ => pump c n (launch c p path (onConn c (fun x => { x with queued := rest }) s))
          | .error (some code), some r => pump c n (endRead c code p r s)
          | .error _, r => match r.bind (sourceRange s c) with
            | some x => snoop x.1 x.2.1 x.2.2 s
            | none => s
      else s

/-- Send what may be sent on a connection. -/
def pumpAll (c : Nat) (s : State) : State :=
  let s := resendHeld c s
  pump c (2 * (connOf s c).queued.length) s

/-- Cut data into packets of at most n bytes; one empty packet for no data. (DEDUCED: log entry 43.) -/
def packets (n : Nat) (data : Bytes) : List Bytes :=
  if data.isEmpty then [[]] else chunks (max n 1) (data.length + 1) data

/-- The packets of a message, from a first PSN (R330). -/
def buildMsg (base : Frame) (purpose : Purpose) (psn msgId : Nat) (final : Bool) (parts : List Bytes) : List TxPkt :=
  (parts.zipIdx).map (fun x =>
    let i := x.2
    let before := sumBy List.length (parts.take i)
    { conn := 0, purpose := purpose, path := none, sentAt := 0, later := 0,
      frame := { base with
        first := i == 0, last := i + 1 == parts.length, final := final && i + 1 == parts.length,
        ackreq := i + 1 == parts.length, psn := psnAdd psn i, msgId := msgId, pktIndex := i,
        offset := base.offset + before, length := x.1.length, payload := x.1 } })

/-- Send a message on a connection with a given message id. -/
def sendAs (c op window offset msgId : Nat) (final : Bool) (purpose : Purpose) (data : Bytes) (s : State) : State :=
  let x := connOf s c
  let base := { blankFrame s c with opcode := op, window := window, offset := offset }
  let l := buildMsg base purpose x.txPsn msgId final (packets (maxPayload s) data)
  pumpAll c (putConn { x with queued := x.queued ++ l, txPsn := psnAdd x.txPsn l.length } s)

/-- Send a message on a connection under its next message id (R330). -/
def sendMsg (c op window offset : Nat) (final : Bool) (purpose : Purpose) (data : Bytes) (s : State) : State :=
  let id := (connOf s c).msgId
  sendAs c op window offset id final purpose data (onConn c (fun x => { x with msgId := (id + 1) % 65536 }) s)

/-- The messages that travel on service connections: the stock book's, leases', tables' (R332). Forwards and partials of stripes
travel on connections of the pitches (R333); rekeys and attestation belong to the roots of trust (R399, R487). -/
def SvcMsg.onService (m : SvcMsg) : Bool :=
  match m with
  | .forward _ | .forwardCmd _ _ | .stripePartial _ _ | .memberDone _ | .rekeyShare | .installed | .attestNonce => false
  | _ => true

/-- The device sends a message to a peer; one of its own leaves only over a service connection that the plan lists (R332).
(DEDUCED: log entry 47.) -/
def tell (peer : Nat) (m : SvcMsg) (s : State) : State :=
  if m.onService && (serviceConn s peer).isNone then s else { s with svcOut := s.svcOut ++ [(peer, m)] }

/-- A message of a purpose still waits for its acknowledgements. -/
def outstanding (s : State) (p : Purpose) : Bool :=
  s.conns.any (fun c => c.queued.any (fun x => x.purpose == p) || c.unacked.any (fun x => x.purpose == p)
    || c.doneMsgs.any (fun x => x.2.1 == p))

end Sys2Proof.Machine
end

