-- ==== Sys2Proof/Machine/Chit.lean ====
section
/-! DEFINITION. Ending a command: completion entries, coalescing and submission slots (R428 to R431, R436), chits and
their triggers (R440 to R447). -/
namespace Sys2Proof.Machine

/-- No chit, and no vector. -/
def noChit : Nat := 0xFFFFFFFF

/- Rings. -/

/-- A ring with nothing in it. -/
def Ring.fresh (n : Nat) : Ring :=
  { num := n, accepted := [], freeSlots := [], unread := 0, heldComps := [], coalCount := 0, coalSince := 0,
    written := 0, gen := 0 }

/-- What a ring holds. -/
def ringOf (s : State) (r : Nat) : Ring := (s.rings.find? (fun x => x.num == r)).getD (Ring.fresh r)

/-- Store what a ring holds. -/
def putRing (x : Ring) (s : State) : State :=
  { s with rings := if s.rings.any (fun y => y.num == x.num) then upd (fun y => y.num == x.num) (fun _ => x) s.rings
      else s.rings ++ [x] }

/-- Change what a ring holds. -/
def onRing (r : Nat) (f : Ring → Ring) (s : State) : State := putRing (f (ringOf s r)) s

/-- Entries of a ring (R455). -/
def ringSize (s : State) (r : Nat) : Nat := 2 ^ rd s .pciRingCfgSizeLog2 r

/-- The ring runs (R457). -/
def ringRunning (s : State) (r : Nat) : Bool := rd s .pciRingStateState r == 1

/-- The first hall byte of the ring area of a ring's pitch (R426). (DEDUCED: log entry 36.) -/
def ringAreaBase (s : State) (r : Nat) : Nat :=
  match ringPitch s r with
  | some p => (pitchPlan s p).hallBase
  | none => 0

/-- The head over the free slots, in ring order (R428). The fuel bounds the walk. -/
def headOver (size : Nat) (free : List Nat) : Nat → Nat → Nat
  | 0, h => h
  | n + 1, h => if free.contains h then headOver size (free.erase h) n ((h + 1) % size) else h

/-- A slot becomes free, and the head advances over free slots (R428). -/
def freeSlot (r slot : Nat) (s : State) : State :=
  let x := ringOf s r
  let free := x.freeSlots ++ [slot]
  let size := ringSize s r
  let h := rd s .pciRingStateHead r
  let h' := headOver size free free.length h
  let passed := (List.range free.length).map (fun i => (h + i) % size)
  let n := (h' + size - h) % size
  wr .pciRingStateHead r h' (putRing { x with freeSlots := free.filter (fun k => !(passed.take n).contains k) } s)

/-- Fire a ring's vector and start its count anew (R431). -/
def coalFire (r : Nat) (s : State) : State :=
  match ringFn s r with
  | none => s
  | some fn => fire fn (rd s .pciRingCfgVector r) (onRing r (fun x => { x with coalCount := 0 }) s)

/-- A completion entry was posted: coalescing (R431). -/
def coalesce (r : Nat) (s : State) : State :=
  if rd s .pciRingCfgVector r = 0x7FF then s else
  let x := ringOf s r
  let s := putRing { x with coalCount := x.coalCount + 1,
                            coalSince := if x.coalCount = 0 then s.localTime else x.coalSince } s
  let n := rd s .pciRingCfgCoalN r
  if n = 0 ∨ rd s .pciRingCfgCoalUs r = 0 ∨ n ≤ x.coalCount + 1 then coalFire r s else s

/-- The 16 bytes of a completion entry (R436). -/
def compBytes (r : Nat) (k : Completion) (phase head : Nat) : Bytes :=
  leBytes 2 k.tag ++ leBytes 1 k.status.code ++ leBytes 1 phase ++ leBytes 2 head ++ leBytes 2 r ++ leBytes 8 k.result

/-- A completion names a chit: 1 is to be added (R435, R441). (DEDUCED: log entry 60.) -/
def oweChit (chit : Nat) (s : State) : State :=
  if chit = noChit then s else { s with chitWork := s.chitWork ++ [.add chit 1] }

/-- Post a completion entry of a host ring that has room (R430). -/
def postHost (r : Nat) (k : Completion) (s : State) : State :=
  let s := freeSlot r k.slot s
  let tail := rd s .pciRingStateCompTail r
  let phase := rd s .pciRingStatePhase r
  let bytes := compBytes r k phase (rd s .pciRingStateHead r)
  let a := rd s .pciRingAddrCompAddr r + 16 * tail
  let s := if on s .pciRingCfgCompLoc r then { s with hall := Memory.writeN s.hall (ringAreaBase s r + a) bytes }
    else match ringFn s r with
      | some fn => hostWrite fn a bytes s
      | none => s
  let s := if tail + 1 = ringSize s r then wr .pciRingStateCompTail r 0 (wr .pciRingStatePhase r (1 - phase) s)
    else wr .pciRingStateCompTail r (tail + 1) s
  oweChit k.chit (coalesce r (onRing r (fun x => { x with unread := x.unread + 1 }) s))

/-- Send a completion of a fabric ring (R425, R369, R455). -/
def postFabric (r : Nat) (k : Completion) (s : State) : State :=
  let n := (ringOf s r).written
  let off := rd s .pciRingCfgCompOffset r + 16 * (n % ringSize s r)
  let bytes := compBytes r k 0 (rd s .pciRingStateHead r)
  let s := onRing r (fun x => { x with written := n + 1 }) s
  oweChit k.chit (sendMsg (rd s .pciRingCfgConn r) opWrite (rd s .pciRingCfgCompWin r) off true (.completion r k.slot)
    bytes s)

/-- Post the completions that a full completion ring held back, while there is room (R430). -/
def postHeld (r : Nat) : Nat → State → State
  | 0, s => s
  | n + 1, s =>
    match (ringOf s r).heldComps with
    | [] => s
    | k :: rest =>
      if (ringOf s r).unread < ringSize s r then
        postHeld r n (postHost r k (onRing r (fun x => { x with heldComps := rest }) s))
      else s

/- Commands. -/

/-- A command in flight. -/
def cmdOf (s : State) (id : Nat) : Option Cmd := s.cmds.find? (fun c => c.id == id)

/-- Change a command in flight. -/
def onCmd (id : Nat) (f : Cmd → Cmd) (s : State) : State := { s with cmds := upd (fun c => c.id == id) f s.cmds }

/-- A command is started and waits for events of its own. -/
def startedCmd (id : Nat) (s : State) : State := onCmd id (fun c => { c with wait := .started }) s

/-- A forwarded command of a stripe's lead has no ring: its ring number spells the lead's peer and the pitch (R76). -/
def forwardRing (peer pitch : Nat) : Nat := 1024 + 16 * peer + pitch

/-- The peer that forwarded a command. -/
def forwardPeer (ring : Nat) : Option Nat := if ring < 1024 then none else some ((ring - 1024) / 16)

/-- The executor of a command is there (R18): its stallholder is READY. -/
def executorReady (s : State) (op : Opcode) : Bool :=
  match op.core with
  | none => true
  | some k => coreThere s k

/-- The pitch of a command. -/
def cmdPitch (s : State) (c : Cmd) : Option Nat := if c.ring < 1024 then ringPitch s c.ring else some ((c.ring - 1024) % 16)

/-- A command's completion is posted: only while its ring still runs as when the command was fetched (R424, R432). -/
def mayPost (s : State) (c : Cmd) : Bool := ringRunning s c.ring && (ringOf s c.ring).gen == c.ringGen

/-- A command ends: its completion is posted, held or sent. Chits are owed after (R429, R435). -/
def postCompletion (id : Nat) (st : Status) (result : Nat) (s : State) : State :=
  match cmdOf s id with
  | none => s
  | some c =>
    let s := { s with cmds := drop (fun x => x.id == id) s.cmds }
    match forwardPeer c.ring with
    | some q => tell q (.memberDone { member := ((c.peers.head?).map (fun x => x.1)).getD 0, status := st.code, narrow := false, layerLen := 0 }) s
    | none =>
    if !mayPost s c then s else
    let k : Completion := { slot := c.slot, tag := c.tag, status := st, result := result, chit := c.chit }
    if fabricRing s c.ring then postFabric c.ring k s
    else
      let x := ringOf s c.ring
      if x.heldComps.isEmpty && decide (x.unread < ringSize s c.ring) then postHost c.ring k s
      else putRing { x with heldComps := x.heldComps ++ [k] } s

/- Chits. -/

/-- A chit lies in the range of a function (R440). -/
def chitOwned (s : State) (fn i : Nat) : Bool :=
  let b := rd s .pciChitRangeBase fn
  b ≤ i && i < b + rd s .pciChitRangeCount fn

/-- The function that owns a chit. -/
def chitOwner (s : State) (i : Nat) : Option Nat := (List.range 17).find? (fun fn => chitOwned s fn i)

/-- Release the held commands of an owner that name a chain and were accepted before (R445). Their queue wait runs from
now. -/
def release (owner chain : Nat) (s : State) : State :=
  { s with
    cmds := upd (fun c => c.wait == .chained && c.chain == chain && ringFn s c.ring == some owner)
      (fun c => { c with wait := .runnable, at_ := s.localTime }) s.cmds,
    released := (owner, chain, s.order, s.localTime) :: drop (fun x => x.1 == owner && x.2.1 == chain) s.released }

/-- A satisfied trigger performs its action and is disarmed (R444, R445). The CHIT_WAIT completes after the action; a
REMOTE_WRITE when the peer has acknowledged it. -/
def fireTrigger (v : Nat) (t : Trigger) (s : State) : State :=
  let s := { s with triggers := drop (fun x => x.cmd == t.cmd) s.triggers }
  match t.action with
  | 1 => postCompletion t.cmd .ok v (fire t.owner t.vector s)
  | 2 => sendMsg t.conn opWrite t.window t.offset true (.remoteWrite t.cmd) (leBytes 8 t.value)
      (onCmd t.cmd (fun c => { c with outcome := some (.ok, v) }) s)
  | 3 => postCompletion t.cmd .ok v (release t.owner t.releaseId s)
  | _ => postCompletion t.cmd .ok v s

/-- The chit unit applies one update and fires the triggers it satisfies, in the order they were armed (R441, R444). -/
def chitStep (op : ChitOp) (s : State) : State :=
  let iv := match op with
    | .set i v => (i, v % 2 ^ 64)
    | .add i v => (i, (chitVal s i + v) % 2 ^ 64)
  let s := { s with chits := setN s.chits iv.1 iv.2 }
  each (s.triggers.filter (fun t => t.index == iv.1 && t.threshold ≤ iv.2)) (fireTrigger iv.2) s

/-- The chit unit works off what waits for it. The fuel bounds the updates: each trigger owes at most one. -/
def drainChits : Nat → State → State
  | 0, s => s
  | n + 1, s =>
    match s.chitWork with
    | [] => s
    | op :: rest => drainChits n (chitStep op { s with chitWork := rest })

/-- Work off every update that waits. -/
def settleChits (s : State) : State := drainChits (s.triggers.length + s.chitWork.length) s

/-- One update of a chit from outside a completion. -/
def updateChit (op : ChitOp) (s : State) : State := settleChits { s with chitWork := s.chitWork ++ [op] }

/-- A command completes with a status and a result word, and the chits it owes are settled. -/
def complete (id : Nat) (st : Status) (result : Nat) (s : State) : State := settleChits (postCompletion id st result s)

/-- A command completes once its result writes are acknowledged; a command without such writes at once (R369, R429). -/
def finish (id : Nat) (st : Status) (result : Nat) (s : State) : State :=
  if outstanding s (.result id) then
    onCmd id (fun c => { c with wait := .results, outcome := some (st, result) }) s
  else complete id st result s

/-- A command is given up without a completion: its slot is free, the refusal is logged (R428, R369).
(DEDUCED: log entry 50.) -/
def giveUp (id port : Nat) (s : State) : State :=
  match cmdOf s id with
  | none => s
  | some c =>
    let s := { s with cmds := drop (fun x => x.id == id) s.cmds }
    let s := report (srcPort port) .resultRefused sevContained (ringPitch s c.ring) s
    if mayPost s c then freeSlot c.ring c.slot s else s

end Sys2Proof.Machine
end

