-- ==== Sys2Proof/WellFormed.lean ====
section
/-! DEFINITION. Which operands name a unit, a function or an index that the part has (R14, R402, R419, R423, R440). -/
namespace Sys2Proof

/-- Functions PF0 to PF16 (R419). -/
def fnOk (n : Nat) : Bool := n < 17
/-- Rings 0 to 1,023 (R423). -/
def ringOk (n : Nat) : Bool := n < 1024
/-- Pitches 0 to 15. -/
def pitchOk (n : Nat) : Bool := n < 16
/-- Ports FAB0 to FAB7 (R402). -/
def portOk (n : Nat) : Bool := n < 8
/-- Stalls 0 to 31 (R14). -/
def stallOk (n : Nat) : Bool := n < 32
/-- Stallholders 0 to 3. -/
def coreOk (n : Nat) : Bool := n < 4
/-- Peer table indices (R412). -/
def peerOk (n : Nat) : Bool := n < 4096
/-- Connections (R331). -/
def connOk (n : Nat) : Bool := n < 65536
/-- Halves of the host port (R417). -/
def halfOk (n : Nat) : Bool := n < 2
/-- Stacks (R14). -/
def stackOk (n : Nat) : Bool := n < 8
/-- Source codes (R563). -/
def sourceOk (n : Nat) : Bool := n < 128
/-- Window indices (R335). -/
def windowOk (n : Nat) : Bool := n < 262144

/-- Flash channels (R14). -/
def channelOk (n : Nat) : Bool := n < 16

/-- A read result names a stack or a flash channel of the part. -/
def ReadResult.wf : ReadResult → Bool
  | .corrected k _ _ | .lostFrame k _ _ | .lostList _ k _ _ => stackOk k
  | .retried n soft ch => channelOk ch && decide (1 ≤ n) && decide (n ≤ 3) && (!soft || n == 3)
  | .lostBlock ch => channelOk ch
  | .ledgerCopy p _ _ _ => pitchOk p
  | .ok | .undecodable _ | .lost => true

/-- A requester is a function or the sideband. -/
def Requester.wf : Requester → Bool
  | .fn n => fnOk n
  | .sideband => true

/-- A frame arrives at a port of the part. -/
def Frame.wf (f : Frame) : Bool := portOk f.port

/-- What arrives during a power state names a port of the part. -/
def Arrival.wf : Arrival → Bool
  | .dataFrame f => f.wf
  | .controlPacket p => portOk p
  | _ => true

/-- A supply stage: 1 to 4 for A to D (R534, R558). -/
def stageOk (n : Nat) : Bool := 1 ≤ n && n ≤ 4

/-- The operands of a command name things that the part has. -/
def Instr.wf : Instr → Bool
  | .seqOpen r _ | .seqClose r _ | .seqPark r _ | .seqFork r _ | .attend r _ | .accept r _ | .hintStep r _
  | .prefixLookup r _ | .prefixPublish r _ | .prefixDrop r _ | .winOpen r _ | .winRevoke r _ | .chitSet r _ | .chitAdd r _
  | .chitWait r _ | .pitchBind r _ | .pitchRelease r _ | .timetableSelect r _ | .shaperSet r _ | .attest r _
  | .fullReset r _ | .badOpcodeEntry r _ => ringOk r
  | .winRevokeDone i => windowOk i
  | .chitDeadline _ => true
  | .releaseDrainDone p | .pitchScrubDone p | .pitchClean p => pitchOk p
  | .sealCrateWritten d => d.read.wf
  | .sealSwap _ => true
  | .tileBoundary k o => stallOk k && o.read.wf
  | .runComplete k => stallOk k
  | .attendResult _ | .contextSaveDone _ | .contextRestoreDone _ _ | .slotBoundary => true
  | .graceExpiry k | .stallFail k => stallOk k
  | .fetchScheduleStart _ => true
  | .fetchDone _ r | .evictionCopyDone _ r => r.wf
  | .promotionDone d | .rebaseDone d => d.read.wf
  | .recodeDone d => d.read.wf && d.base.wf
  | .flashCopyWritten _ r => r.wf
  | .gcZoneDone p _ _ | .catalogueReplayDone p _ _ => pitchOk p
  | .leaseAsk q pp p => peerOk q && pitchOk pp && pitchOk p
  | .leaseGrant q p _ | .leaseRefuse q p => peerOk q && pitchOk p
  | .leaseRecall q _ => peerOk q
  | .leaseRelease _ | .leaseRecallDeadline _ | .leaseReturn _ => true
  | .leaseBorrowerOrphan q => peerOk q
  | .recallDrop _ | .recallDropConfirm _ | .recallDropTimeout _ => true
  | .stockProbe q _ _ _ => peerOk q
  | .stockProbeAnswer _ _ _ => true
  | .stockInsert q _ _ _ => peerOk q
  | .stockInsertAnswer _ _ => true
  | .stockDrop q _ _ _ h => peerOk q && pitchOk h.pitch
  | .stockDropAnswer _ _ _ => true
  | .stockDurableMark _ _ _ p => pitchOk p
  | .replicaPush _ | .replicaHitReport _ | .popHalving | .insertRetry _ => true
  | .orphanRelease q => peerOk q
  | .holdRequest q p _ => peerOk q && pitchOk p
  | .holdAnswer _ _ _ => true
  | .tableFetchRequest q _ => peerOk q
  | .tableFetchAnswer _ _ _ => true
  | .stripeForwardReceive q _ => peerOk q
  | .stripePartialReceive _ _ _ _ _ | .stripeMemberComplete _ _ _ => true
  | .rxWrite f | .rxReadReq f | .rxReadResp f | .rxAck f | .rxNak f | .rxProbe f | .rxProbeReply f | .rxResync f
  | .rxResyncAck f => f.wf
  | .macControlFrame p => portOk p
  | .rtoExpiry c _ | .delayedAck c => connOk c
  | .silenceProbe q | .peerUnreachable q | .unreachableProbe q => peerOk q
  | .avoidHoldExpiry c _ => connOk c
  | .baseRttInterval => true
  | .egressFrameStart p => portOk p
  | .rekeyStart q | .rekeyExchangeDone q | .rxInstalled q | .oldKeyRetire q | .rekeyRetry q
  | .peerAttestation q _ => peerOk q
  | .rekeyTimeout x => peerOk x.peer
  | .portLinkUp p _ => portOk p
  | .portLaneFail p l => portOk p && decide (l < 4)
  | .portLinkRetry p => portOk p
  | .portReset f p => fnOk f && portOk p
  | .subTailWrite f r _ | .compHeadWrite f r _ | .ringEnable f r _ | .ringDisable f r _ => fnOk f && ringOk r
  | .ringFetchError r => ringOk r
  | .dmaTimeout f | .dmaCompleterAbort f => fnOk f
  | .coalTimer r => ringOk r
  | .chitHostWrite f _ _ _ => fnOk f
  | .pcieLinkUp h _ _ _ | .pcieSurpriseDown h | .pcieHotReset h => halfOk h
  | .perstAssert | .perstDeassert _ => true
  | .cxlMemAccess a => halfOk a.half
  | .cxlSnoopTimeout h _ | .cxlViral h => halfOk h
  | .sessionKeyExpiry _ | .attestBusyTimeout _ | .boot _ => true
  | .coreWatchdog k | .coreException k | .coreSramError k | .coreReady k | .coreReadyTimeout k => coreOk k
  | .fatalHoldExpiry | .trialConfirmTimer => true
  | .fwConfirm f | .liveActivate f => fnOk f
  | .liveCopyDone _ | .pldmFwComponent _ | .pldmActivateFirmware _ | .pldmBaseRequest _ | .pldmPlatformRequest _
  | .pldmFruRequest _ | .sidebandRegisterRead _ _ | .powerOn | .tileStart | .vauxFail => true
  | .supplyStageEnter g _ | .supplyStageEnd g _ => stageOk g
  | .supplyReset _ | .powerCapAction _ _ _ _ | .powerCapRelease | .thermalStep _ | .thermalRecover _ | .thermalTrip _
  | .thermalTripRelease | .deviceQuiet | .quietIdleTimer | .powerStateEntryDone | .knownEventWake | .p3PollWake
  | .p3PollHoldEnd | .wakeDone => true
  | .wakeArrival a => a.wf
  | .pwrCtrlWrite f _ => fnOk f
  | .srefclkLoss | .auxclkLoss => true
  | .hrefclkLoss h => halfOk h
  | .logBudgetWindow | .telemetrySnapshot _ => true
  | .captureClear q n => q.wf && sourceOk n
  | .alertClear q | .logReadAdvance q _ => q.wf
  | .evtRingEnable f _ | .evtRingDisable f _ => fnOk f
  | .tillSnap f p | .tillClear f p _ => fnOk f && pitchOk p
  | .registerWrite f _ _ _ => fnOk f
  | .abtoserFault => true
  | .liveActivationTimeout k => coreOk k
  | .onfiVccqOvercurrent => true
  | .remoteHoldRelease q p _ => peerOk q && pitchOk p
  | .replicaWithdraw _ _ => true
  | .busMasterEnableWrite f _ => fnOk f
  | .cxlBisnpResponse h _ _ => halfOk h
  | .serdesEqSettled p => portOk p
  | .registerRead q _ _ => q.wf

end Sys2Proof
end

