-- ==== Sys2Proof/Machine/Rings.lean ====
section
/-! DEFINITION. Command rings: doorbells, enabling, ERROR, wedged functions, coalescing and links (R417 to R432). -/
namespace Sys2Proof.Machine

/-- Answer with an event's effect when its operands name parts of the device and the device runs; a device that does
not run ignores it, and a part that does not exist is a fault. (DEDUCED: log entry 9.) (DESIGN CHOICE: log entry 3.) -/
def due (ok : Bool) (s : State) (f : State → State) : Out State :=
  if ok then whenRunning s f else .fault .noSuchUnit

/-- As due, for what also happens outside the running phase (the always-on domain, links, resets).
(DESIGN CHOICE: log entry 3.) -/
def always (ok : Bool) (s : State) (f : State → State) : Out State :=
  if ok then .next (keepQueue s (f s)) else .fault .noSuchUnit

/-- Something arrives that ends a power state (R548), or the entry into one (R549). -/
def startWake (s : State) : State :=
  if rd s .pwrStateState 0 = 0 ∧ (s.power.move = .none ∨ s.power.move = .quiet) then s
  else { s with power := { s.power with move := .waking } }

/-- The device is in P0 and not moving between states. -/
def awake (s : State) : Bool := rd s .pwrStateState 0 == 0 && !(s.power.move == .waking)

/-- The present completion head of a ring (R426): the completion tail less the unread entries. -/
def compHead (s : State) (r : Nat) : Nat :=
  let n := ringSize s r
  (rd s .pciRingStateCompTail r + n - (ringOf s r).unread % n) % n

/-- The held chained commands and the armed triggers of a ring are cancelled, and nothing is posted (R424, R444). -/
def cancelHeld (r : Nat) (s : State) : State :=
  let gone := (s.cmds.filter (fun c => c.ring == r && (c.wait == .chained || s.triggers.any (fun t => t.cmd == c.id)))).map
    (fun c => c.id)
  { s with cmds := drop (fun c => gone.contains c.id) s.cmds,
           triggers := drop (fun t => gone.contains t.cmd) s.triggers }

/-- A ring stops: nothing more is fetched, nothing held is posted (R424). -/
def stopRing (r : Nat) (s : State) : State :=
  onRing r (fun x => { x with accepted := [], heldComps := [], coalCount := 0 }) (cancelHeld r s)

/-- A ring enters ERROR (R432). Causes: 1 TAIL, 2 FETCH, 3 POST, 4 CONFIG. (DEDUCED: log entry 64.) -/
def ringError (r cause : Nat) (s : State) : State :=
  match ringFn s r with
  | none => s
  | some fn =>
    let s := wr .pciRingStateCause r cause (wr .pciRingStateState r 2 (stopRing r s))
    let s := report srcHost .ringError sevContained (if fn = 0 then none else some (fn - 1)) s
    postEvent fn 0x0030 srcHost (leBytes 2 r ++ leBytes 1 cause) s

/-- The slots from one index up to another, in ring order. -/
def slotsFrom (size a b : Nat) : List Nat := (List.range ((b + size - a) % size)).map (fun i => (a + i) % size)

/-- Accept entries up to a new tail (R427, R147). -/
def acceptTo (r tail : Nat) (s : State) : State :=
  let l := slotsFrom (ringSize s r) (rd s .pciRingStateTail r) tail
  let take := fun (s : State) (k : Nat) =>
    onRing r (fun x => { x with accepted := x.accepted ++
      [{ slot := k, order := s.order, at_ := s.localTime, stageD := rd s .pwrStageStage 0 == 4 }] }) (ordered s)
  wr .pciRingStateTail r tail (l.foldl take s)

/-- Room of a ring for further entries (R428). -/
def ringRoom (s : State) (r : Nat) : Nat :=
  let n := ringSize s r
  n - 1 - (rd s .pciRingStateTail r + n - rd s .pciRingStateHead r) % n

/-- A SUB_TAIL write (R426 to R428). -/
def subTail (fn r v : Nat) (s : State) : State :=
  let size := ringSize s r
  if ringFn s r ≠ some fn ∨ fabricRing s r ∨ ringRunning s r = false then s
  else if bits v 14 18 ≠ 0 ∨ size ≤ v then ringError r 1 (startWake s)
  else if v = rd s .pciRingStateTail r then s
  else if ringRoom s r < (slotsFrom size (rd s .pciRingStateTail r) v).length then ringError r 1 (startWake s)
  else acceptTo r v (startWake s)

/-- A COMP_HEAD write (R426, R430, R431). A write that names more than is unread releases nothing. (DEDUCED: log entry 64.) -/
def compHeadTo (fn r v : Nat) (s : State) : State :=
  let size := ringSize s r
  let x := ringOf s r
  let step := (v + size - compHead s r) % size
  let n := if step = 0 ∧ x.unread = size then size else step
  if ringFn s r ≠ some fn ∨ fabricRing s r ∨ ringRunning s r = false ∨ size ≤ v ∨ x.unread < n then s
  else
    let counted := x.coalCount - (n - (x.unread - x.coalCount))
    settleChits (postHeld r x.heldComps.length (putRing { x with unread := x.unread - n, coalCount := counted } s))

/-- The CONFIG check holds (R432). (DEDUCED: log entry 64.) -/
def ringConfigOk (s : State) (r fn : Nat) : Bool :=
  let size := ringSize s r
  let area := if fn = 0 then 0 else ringArea s (fn - 1)
  let sub := rd s .pciRingAddrSubAddr r
  let comp := rd s .pciRingAddrCompAddr r
  let lg := rd s .pciRingCfgSizeLog2 r
  let v := rd s .pciRingCfgVector r
  (6 ≤ lg && lg ≤ 14)
    && (!(on s .pciRingCfgSubLoc r) || decide (sub + 64 * size ≤ area))
    && (!(on s .pciRingCfgCompLoc r) || decide (comp + 16 * size ≤ area))
    && (!(on s .pciRingCfgFabric r) || (on s .pciRingCfgSubLoc r && fn != 0))
    && sub % (64 * size) == 0 && comp % (16 * size) == 0
    && (v == 0x7FF || decide (v < rd s .pciFnStatusVectors fn))

/-- The fields of word 0 of PCI_RING_CFG take a written word (R455). -/
def storeRingCfg (r v : Nat) (s : State) : State :=
  Reg.pciRingCfg.flds.foldl (fun s f =>
    if f.desc.lo < 64 then wr f r (bits v f.desc.lo f.desc.w) s else s) s

/-- ENABLE is set on a ring (R424): pointers to 0, phase to 1, and the CONFIG check. -/
def enableRing (r fn : Nat) (s : State) : State :=
  let g := (ringOf s r).gen
  let s := putRing { Ring.fresh r with gen := g + 1 } s
  let s := wr .pciRingStateHead r 0 (wr .pciRingStateTail r 0 (wr .pciRingStateCompTail r 0 (wr .pciRingStatePhase r 1
    (wr .pciRingStateCause r 0 (wr .pciRingStateState r 1 s)))))
  if ringConfigOk s r fn then s else ringError r 4 s

/-- ENABLE is cleared on a ring (R424). -/
def disableRing (r : Nat) (s : State) : State := wr .pciRingStateState r 0 (stopRing r s)

/-- A function's own writes reach its registers: not while its pitch goes from CLOSING to CLEAN (R626, R482). -/
def writable (s : State) (fn : Nat) : Bool := fn == 0 || !(releasing s (fn - 1))

/-- A write of word 0 of PCI_RING_CFG (R424, R616): ignored while ENABLE is 1, unless it clears ENABLE. -/
def ringCfgWrite (fn r v : Nat) (s : State) : State :=
  if ringFn s r ≠ some fn ∨ writable s fn = false then s
  else if on s .pciRingCfgEnable r then
    (if bit v 0 then s else disableRing r (storeRingCfg r v s))
  else if bit v 0 then enableRing r fn (storeRingCfg r v s)
  else storeRingCfg r v s

/-- A function becomes wedged (R421). -/
def wedge (fn : Nat) (s : State) : State :=
  if on s .pciFnStatusWedged fn then s else
  let s := { wr .pciFnStatusWedged fn 1 s with dmaWait := drop (fun x => x.1 == fn) s.dmaWait }
  report srcHost .wedged sevDegraded (if fn = 0 then none else some (fn - 1)) s

/-- The coalescing timer of a ring ends (R431). -/
def coalEnd (r : Nat) (s : State) : State :=
  let x := ringOf s r
  if x.coalCount = 0 ∨ rd s .pciRingCfgCoalUs r = 0 then s
  else coalFire r (reach (x.coalSince + 1000 * rd s .pciRingCfgCoalUs r) s)

/-- A host write to the chit pages of BAR2 (R446, R621). -/
def chitPageWrite (fn off size v : Nat) (s : State) : State :=
  if off < 0x400000 ∨ 0x420000 ≤ off then s else
  let c := (off - 0x400000) / 8
  if size = 8 ∧ off % 8 = 0 ∧ chitOwned s fn c then updateChit (.set c v) (startWake s)
  else report srcHost .refusedAccess sevContained (if fn = 0 then none else some (fn - 1)) (startWake s)

/-- A deadline of an armed CHIT_WAIT passes (R444). -/
def chitDeadline (cmd : Nat) (s : State) : State :=
  match s.triggers.find? (fun t => t.cmd == cmd) with
  | none => s
  | some t => match t.deadline with
    | none => s
    | some d => complete cmd .timeout 0 (reach d { s with triggers := drop (fun x => x.cmd == cmd) s.triggers })

/-- A link of the host port trains (R417, R453). Half 1 exists only on a bifurcated port, CXL only where the straps mark
it (R418): bits 1 and 2 of the straps, for halves 0 and 1. A bifurcated port's links are x8 at most. (DEDUCED: log entry 59.) -/
def linkUp (half rate width cxl : Nat) (s : State) : State :=
  if (half = 1 ∧ on s .pciLinkBif 0 = false) ∨ (cxl ≠ 0 ∧ bit s.power.straps (1 + half) = false)
      ∨ (on s .pciLinkBif 0 ∧ 8 < width) then s
  else dmaFlush (wr .pciLinkUp half 1 (wr .pciLinkRate half rate (wr .pciLinkWidth half width (wr .pciLinkCxl half cxl
    { s with dmaSince := drop (fun x => halfOf s x.1 == half) s.dmaSince }))))

/-- A link goes down (R422); reads of its functions that have not completed are lost with it. -/
def linkDown (half : Nat) (s : State) : State :=
  let fns := (List.range 17).filter (fun fn => halfOf s fn == half && !(s.dmaSince.any (fun x => x.1 == fn)))
  wr .pciLinkUp half 0 (wr .pciLinkRate half 0 (wr .pciLinkWidth half 0
    { s with dmaSince := s.dmaSince ++ fns.map (fun fn => (fn, s.localTime)),
             readsHeld := drop (fun x => halfOf s x.1 == half) s.readsHeld }))

end Sys2Proof.Machine
end

