-- ==== Sys2Proof/Machine/Fabric.lean ====
section
/-! DEFINITION. Acknowledgement, congestion, retransmission, egress, associations and ports (R350 to R357, R380 to
R406). -/
namespace Sys2Proof.Machine

/- Purposes of messages. -/

/-- A message has succeeded (R355): a completion's slot is free (R428), a command's last result write lets it complete
(R369), a trigger's write completes its CHIT_WAIT (R444). -/
def msgDone (p : Purpose) (s : State) : State :=
  match p with
  | .none => s
  | .completion r slot => freeSlot r slot s
  | .result cmd =>
    if outstanding s (.result cmd) then s else
    match cmdOf s cmd with
    | some c => match c.wait, c.outcome with
      | .results, some (st, w) => complete cmd st w s
      | _, _ => s
    | none => s
  | .remoteWrite cmd =>
    match cmdOf s cmd with
    | some c => match c.outcome with
      | some (st, w) => complete cmd st w s
      | none => s
    | none => s
  | .readReq _ => s

/- Acknowledgement. -/

/-- The SACK bits over a cumulative PSN (R353). -/
def sackBytes (cum : Nat) (seen : List Nat) : Bytes :=
  (List.range 32).map (fun b => BitVec.ofNat 8 (sumBy (fun i =>
    if seen.contains (psnAdd cum (1 + 8 * b + i)) then 2 ^ i else 0) (List.range 8)))

/-- The latest NAK sent that refers to a PSN at or below the cumulative one, or 0 (R353). -/
def nakHigh (x : Conn) : Nat :=
  match (x.naksOut.filter (fun n => !(later n.2 x.rxCum))).getLast? with
  | some n => n.1
  | none => 0

/-- Send an ACK caused by a packet that arrived at an instant (R351, R353). An LY-7 gets no SACK (R366). -/
def sendAck (c : Nat) (cause : Frame) (arrived : Nat) (s : State) : State :=
  let x := connOf s c
  let seen := if isLy7 s (connPeer s c) then [] else x.rxSeen
  let payload := leBytes 4 x.rxCum ++ leBytes 4 cause.sendTs ++ leBytes 4 ((s.localTime - arrived) / 8)
    ++ leBytes 4 (nakHigh x) ++ sackBytes x.rxCum seen
  sendUnsequenced c cause.port cause.udpSrc opAck payload
    (onConn c (fun x => { x with ackPending := 0, ackFrame := none }) s)

/-- Acknowledge a packet that asks for no ACK at once: after 16 packets, or by the delayed ACK (R356). -/
def ackLater (c : Nat) (f : Frame) (s : State) : State :=
  let x := connOf s c
  if 16 ≤ x.ackPending + 1 then sendAck c f s.localTime s
  else putConn { x with ackPending := x.ackPending + 1, ackFrame := some (x.ackFrame.getD f),
                        ackAt := if x.ackPending = 0 then s.localTime else x.ackAt } s

/-- The delayed ACK of a connection (R356). -/
def delayedAck (c : Nat) (s : State) : State :=
  let x := connOf s c
  match x.ackFrame with
  | none => s
  | some f => sendAck c f x.ackAt (reach (x.ackAt + 2000) s)

/- Retransmission. -/

/-- Halve the congestion window, at most once per round trip (R384). -/
def halveWindow (c : Nat) (s : State) : State :=
  let x := connOf s c
  if s.localTime - x.lastHalve < x.srtt ∧ x.lastHalve ≠ 0 then s
  else wr .fabConnCcCwnd c (max (maxPayload s) (rd s .fabConnCcCwnd c / 2)) (putConn { x with lastHalve := s.localTime } s)

/-- The 3-ACK rule of R357 on the packets of a connection. -/
def fastRetransmit (c : Nat) (s : State) : State :=
  let lost := ((connOf s c).unacked).filter (fun p => 3 ≤ p.later)
  each lost (fun p s => halveWindow c (resend c p s)) s

/- Congestion. -/

/-- The congestion window's least value (R382). -/
def cwndMin (s : State) : Nat := maxPayload s

/-- The congestion window's greatest value (R407). -/
def cwndMax (s : State) : Nat := rd s .fabCcCfgCwndMax 0 * 1024

/-- TARGET in ns (R407). -/
def ccTarget (s : State) : Nat := rd s .fabCcCfgTarget 0 * 100

/-- The path state of a path value. -/
def pathOf (x : Conn) (k : Nat) : PathSt :=
  (x.paths.find? (fun p => p.value == k)).getD { value := k, cur := none, prev := none, above := 0, avoidUntil := 0 }

/-- Store the path state of a path value. -/
def putPath (p : PathSt) (x : Conn) : Conn := { x with paths := p :: drop (fun q => q.value == p.value) x.paths }

/-- The least of two samples where they exist. -/
def minOpt : Option Nat → Option Nat → Option Nat
  | none, b => b
  | a, none => a
  | some a, some b => some (min a b)

/-- Avoid a path value after enough samples above TARGET, unless no path would be left (R385). -/
def avoidPath (c k : Nat) (s : State) : State :=
  let x := connOf s c
  let p := pathOf x k
  let mask := rd s .fabConnCcAvoided c
  let t := wr .fabConnCcAvoided c (mask ||| 2 ^ k)
    (putConn (putPath { p with above := 0, avoidUntil := s.localTime + 1000 * rd s .fabCcCfgHoldUs 0 } x) s)
  if p.above < rd s .fabCcCfgAvoidN 0 ∨ bit mask k ∨ rd s .fabConnCfgPathsM1 c < k ∨ (usableValues t c).isEmpty then s else t

/-- One RTT sample of a path, in units of 8 ns, covering a number of bytes (R357, R380 to R385). (PRESUMED: log entry 44.) -/
def rttSample (c k r bytes : Nat) (s : State) : State :=
  let x := connOf s c
  let ns := 8 * r
  let x := if x.rttSeen then
      let d := if ns < x.srtt then x.srtt - ns else ns - x.srtt
      { x with rttvar := (3 * x.rttvar + d) / 4, srtt := (7 * x.srtt + ns) / 8 }
    else { x with srtt := ns, rttvar := ns / 2, rttSeen := true }
  let p := pathOf x k
  let p := { p with cur := minOpt p.cur (some r) }
  let base := (minOpt p.cur p.prev).getD r
  let q := 8 * (r - base)
  let above := decide (ccTarget s < q)
  let p := { p with above := if above then p.above + 1 else 0 }
  let w := rd s .fabConnCcCwnd c
  let t := ccTarget s
  let cut := bytes != 0 && above && decide (x.srtt ≤ s.localTime - x.lastCut)
  let w' := if bytes = 0 then w else if !above then min (cwndMax s) (w + rd s .fabCcCfgAi 0 * 1024 * bytes / max w 1)
    else if cut then max (cwndMin s) (w - (w * rd s .fabCcCfgBeta 0 * (q - t) + 256 * q - 1) / (256 * q))
    else w
  let x := { x with lastCut := if cut then s.localTime else x.lastCut }
  let s := putConn (putPath p x) s
  let s := wr .fabConnCcCwnd c w' (wr .fabConnCcBaseRtt c (min base 0xFFFF) (wr .fabConnCcQdelay c (min (q / 8) 0xFFFF) s))
  avoidPath c k s

/-- The computed RTO in ns (R357). (PRESUMED: log entry 44.) -/
def computedRto (x : Conn) : Nat := max 20000 (x.srtt + 4 * x.rttvar)

/-- Show the RTO of a connection (R375). -/
def showRto (c : Nat) (s : State) : State := wr .fabConnStateRtoUs c (min ((connOf s c).rto / 1000) 0xFFFF) s

/-- Messages whose condition of R355 now holds succeed. -/
def settleMsgs (c : Nat) (s : State) : State :=
  let x := connOf s c
  let ok := fun (m : Nat × Purpose × Nat) => m.2.2 == 0 || !(later m.2.2 x.rxCum)
  each (x.doneMsgs.filter ok) (fun m => msgDone m.2.1)
    (putConn { x with doneMsgs := x.doneMsgs.filter (fun m => !ok m) } s)

/-- What an ACK says (R353). -/
structure AckInfo where
  cum     : Nat
  echo    : Nat
  delay   : Nat
  high    : Nat
  sack    : Nat

/-- Read an ACK's payload (R353). -/
def ackInfo (bs : Bytes) : AckInfo :=
  { cum := leAt bs 0 4, echo := leAt bs 4 4, delay := leAt bs 8 4, high := leAt bs 12 4, sack := leAt bs 16 32 }

/-- An ACK covers a PSN. -/
def AckInfo.covers (a : AckInfo) (psn : Nat) : Bool :=
  !(later psn a.cum) || (let d := psnDist psn a.cum; 1 ≤ d && d ≤ 256 && bit a.sack (d - 1))

/-- An ACK marks a PSN later than the given one. -/
def AckInfo.marksLater (a : AckInfo) (psn : Nat) : Bool :=
  later a.cum psn || (List.range 256).any (fun i => bit a.sack i && later (psnAdd a.cum (1 + i)) psn)

/-- An ACK arrives for a connection (R355, R357, R380 to R385). -/
def ackArrives (c : Nat) (f : Frame) (s : State) : State :=
  let a := ackInfo f.payload
  let a := if isLy7 s (connPeer s c) then { a with sack := 0 } else a
  let x := connOf s c
  let gone := x.unacked.filter (fun p => a.covers p.frame.psn)
  let kept := x.unacked.filter (fun p => !(a.covers p.frame.psn))
  let bytes := sumBy (fun p => p.frame.payload.length) gone
  let left := kept ++ x.queued
  let ended := gone.filter (fun p => !(left.any (fun q => q.frame.msgId == p.frame.msgId && q.frame.opcode == p.frame.opcode)))
  let msgs := distinct (ended.map (fun p => (p.frame.msgId, p.purpose, a.high)))
  let advanced := later a.cum x.txCum
  let x := { x with
    unacked := kept.map (fun p => if a.marksLater p.frame.psn then { p with later := p.later + 1 } else p),
    doneMsgs := x.doneMsgs ++ msgs, txCum := if advanced then a.cum else x.txCum }
  let r := (sendTs s + 2 * 4294967296 - a.echo - a.delay) % 4294967296
  let s := rttSample c (pathValue c f.udpSrc) r bytes (putConn x s)
  let s := if advanced ∨ (connOf s c).expiries = 0 then onConn c (fun x => { x with expiries := 0, rto := computedRto x }) s else s
  pumpAll c (settleMsgs c (fastRetransmit c (showRto c s)))

/- Egress (R387 to R390). -/

/-- A port's queues with the tokens that time has filled in (R390). Tokens are counted in 1/8,000 of a byte. -/
def fillTokens (s : State) (port q : Nat) (e : EgressQ) : EgressQ :=
  let rate := rd s .fabShaperRateMbps (32 * port + q)
  { e with tokens := min (8000 * rd s .fabShaperBurst (32 * port + q)) (e.tokens + rate * (s.localTime - e.filled)),
           filled := s.localTime }

/-- A queue is eligible (R388). -/
def eligible (s : State) (port q : Nat) (e : EgressQ) : Bool :=
  match e.frames with
  | [] => false
  | f :: _ => rd s .fabShaperRateMbps (32 * port + q) == 0 || decide (8000 * frameLen s f ≤ e.tokens)

/-- Queue q of a list of queues. -/
def queueAt (l : List EgressQ) (q : Nat) : EgressQ := (l[q]?).getD EgressQ.empty

/-- The queue chosen among the weighted group, with the round's state after it (R388, R389). The fuel bounds the visits. -/
def roundRobin (s : State) (port : Nat) : Nat → Nat → List EgressQ → Option (Nat × List EgressQ)
  | 0, _, _ => none
  | n + 1, k, l =>
    let e := queueAt l k
    let fits := match e.frames with
      | [] => false
      | f :: _ => decide (frameLen s f ≤ e.deficit)
    if eligible s port k e && fits then some (k, l)
    else
      let k' := if 31 ≤ k then 4 else k + 1
      let i := 32 * port + k'
      let credit := fun (e : EgressQ) => { e with
        deficit := min (e.deficit + rd s .fabEgressCfgWeight i * 1024) (rd s .fabEgressCfgBurstKib i * 1024) }
      roundRobin s port n k' ((l.zipIdx).map (fun x => if x.2 = k' then credit x.1 else x.1))

/-- Take a queue's head frame: tokens and, in the weighted group, credit pay for it. -/
def takeHead (s : State) (port q : Nat) (l : List EgressQ) : List EgressQ :=
  (l.zipIdx).map (fun x => if x.2 ≠ q then x.1 else match x.1.frames with
    | [] => x.1
    | f :: rest => { x.1 with
        frames := rest, deficit := if 4 ≤ q then x.1.deficit - frameLen s f else x.1.deficit,
        tokens := if rd s .fabShaperRateMbps (32 * port + q) = 0 then x.1.tokens else x.1.tokens - 8000 * frameLen s f })

/-- Visits of the weighted group that are enough for any frame: each round gives at least 1,024 B of credit. -/
def roundFuel : Nat := 28 * 12

/-- Rounds of the weighted group run while a queue of it holds a frame and none may be sent for want of tokens: every credit rises
to its cap (R388, R389). -/
def spinRounds (s : State) (port : Nat) (p : Port) : Port :=
  let l := (p.egress.zipIdx).map (fun x => fillTokens s port x.2 x.1)
  let group := (List.range 28).map (· + 4)
  if group.all (fun k => (queueAt l k).frames.isEmpty) || group.any (fun k => eligible s port k (queueAt l k)) then p
  else { p with egress := (p.egress.zipIdx).map (fun x =>
    if 4 ≤ x.2 then { x.1 with deficit := rd s .fabEgressCfgBurstKib (32 * port + x.2) * 1024 } else x.1) }

/-- The port's choice of its next frame: queue, queues with credits settled, current queue of the round (R388). -/
def choose (s : State) (port : Nat) (p : Port) : Option (Nat × List EgressQ × Nat) :=
  let l := (p.egress.zipIdx).map (fun x => fillTokens s port x.2 x.1)
  match (List.range 4).find? (fun k => eligible s port k (queueAt l k)) with
  | some k => some (k, l, p.round)
  | none =>
    if (List.range 28).any (fun i => !((queueAt l (i + 4)).frames.isEmpty)) then
      (roundRobin s port roundFuel p.round l).map (fun x => (x.1, x.2, x.1))
    else none

/-- Change a port. -/
def onPort (p : Nat) (f : Port → Port) (s : State) : State :=
  { s with ports := (s.ports.zipIdx).map (fun x => if x.2 = p then f x.1 else x.1) }

/-- What a port holds. -/
def portOf (s : State) (p : Nat) : Port := (s.ports[p]?).getD Port.empty

/- Associations (R395 to R400). -/

/-- The peer's association is up. -/
def assocUp (s : State) (p : Nat) : Bool := rd s .fabAssocStateState p == 2

/-- Seal a frame under the association as it leaves (R396, R398): phase and the next counter. -/
def protect (f : Frame) (s : State) : Frame × State :=
  match f.src with
  | none => (f, s)
  | some p =>
    let n := (peerOf s p).txCounter + 1
    ({ f with keyPhase := rd s .fabAssocStateKeyPhase p, counter := n }, onPeer p (fun x => { x with txCounter := n }) s)

/-- A replay record that accepts a counter, or the reason it does not: 0 old, 1 repeated (R398). -/
def replay (high : Nat) (seen : List Nat) (n : Nat) : Except Nat (Nat × List Nat) :=
  if high < n then .ok (n, (high :: seen).filter (fun k => n ≤ k + 1023 && k != 0))
  else if n + 1023 < high then .error 0
  else if n = high ∨ seen.contains n then .error 1
  else .ok (high, n :: seen)

/-- A frame is a stranger: dropped and counted (R370). -/
def stranger (port : Nat) (s : State) : State :=
  let p := portOf s port
  let s := bump .fabRxStatStrangers port 1 s
  let sec := s.localTime / 1000000000
  let n := if sec * 4294967296 ≤ p.strangersSec ∧ p.strangersSec < (sec + 1) * 4294967296 then p.strangersSec + 1
    else sec * 4294967296 + 1
  let count := n % 4294967296
  let said := p.saidSec && decide (n ≠ sec * 4294967296 + 1)
  let s := onPort port (fun x => { x with strangersSec := n, saidSec := said }) s
  if rd s .fabTransportCfgStrangerThresh 0 < count ∧ said = false then
    postEvent 0 0x0006 (srcPort port) (leBytes 1 port ++ leBytes 3 0 ++ leBytes 4 count)
      (onPort port (fun x => { x with saidSec := true }) s)
  else s

/-- The association layer's check of a frame (R395 to R399): the peer and the state with the record updated, or the
state with the stranger counted. -/
def admission (f : Frame) (s : State) : Except State (Nat × State) :=
  match f.src with
  | none => .error (stranger f.port s)
  | some q =>
    if !assocUp s q then .error (stranger f.port s) else
    if !f.tagOk then .error (stranger f.port (bump .fabAssocStateAuthFail q 1 s)) else
    let x := peerOf s q
    let drop := fun (e : Nat) => stranger f.port
      (bump (if e = 0 then .fabAssocStateReplayOld else .fabAssocStateReplayDup) q 1 s)
    let ok := fun (x : Peer) => (q, putPeer { x with lastHeard := s.localTime, probeAt := none } s)
    if f.keyPhase = x.rxPhase then
      match replay x.rxHigh x.rxSeen f.counter with
      | .error e => .error (drop e)
      | .ok (h, l) => .ok (ok { x with rxHigh := h, rxSeen := l })
    else if x.nextReady then
      .ok (ok { x with rxPhase := f.keyPhase, rxHigh := f.counter, rxSeen := [], nextReady := false, oldPhase := true,
                       oldHigh := x.rxHigh, oldSeen := x.rxSeen, rekeyAt := some s.localTime })
    else if x.oldPhase then
      match replay x.oldHigh x.oldSeen f.counter with
      | .error e => .error (drop e)
      | .ok (h, l) => .ok (ok { x with oldHigh := h, oldSeen := l })
    else .error (stranger f.port s)

/-- This device starts the rekeys of an association (R399): toward a client or an LY-7 always, toward an LY-9 where its device id is
the lower one. (DEDUCED: log entry 45.) -/
def initiates (s : State) (q : Nat) : Bool :=
  match peerPlan s q with
  | some r => r.kind != .ly9 || decide (deviceId s < r.deviceId)
  | none => true

/-- A rekey of an association starts (R399 step 1): by this device's own limits where it starts the rekeys, else as the peer asks.
(DEDUCED: log entry 45.) -/
def rekeyStart (q : Nat) (s : State) : State :=
  let x := peerOf s q
  let at_ := 2 ^ rd s .fabAssocCfgRekeyAt 0
  let age := rd s .fabAssocCfgRekeyAge 0 * 3600000000000
  if !assocUp s q || on s .fabAssocStateRekeying q then s else
  let s := if initiates s q ∧ x.txCounter < at_ ∧ x.rxHigh < at_ then reach (x.bornAt + age) s else s
  tell q .rekeyShare (onPeer q (fun x => { x with startedAt := s.localTime }) (wr .fabAssocStateRekeying q 1 s))

/-- The exchange of a rekey is in progress: the next phase's receive key is not installed yet (R399 step 2). -/
def exchanging (s : State) (q : Nat) : Bool :=
  assocUp s q && on s .fabAssocStateRekeying q && !(peerOf s q).nextReady && !(peerOf s q).oldPhase

/-- New frames go under the next phase already (R399 step 4): the phases of the two directions agree again only when the
peer's frames do too. -/
def switched (s : State) (q : Nat) : Bool :=
  (rd s .fabAssocStateKeyPhase q != (peerOf s q).rxPhase) != (peerOf s q).oldPhase

/-- The exchange has given the next phase's keys: the receive key is installed and INSTALLED sent (R399 steps 2, 3). -/
def rekeyExchanged (q : Nat) (s : State) : State :=
  if !(exchanging s q) then s
  else tell q .installed (onPeer q (fun x => { x with nextReady := true }) s)

/-- The peer's INSTALLED: new frames go under the next phase, counters from 1 (R399 step 4). -/
def installed (q : Nat) (s : State) : State :=
  if !assocUp s q || !(on s .fabAssocStateRekeying q) || switched s q then s
  else wr .fabAssocStateKeyPhase q (1 - rd s .fabAssocStateKeyPhase q)
    (onPeer q (fun x => { x with txCounter := 0 }) s)

/-- The old phase's keys are retired and destroyed; the rekey ends (R399 steps 5, 6). -/
def retireOldKey (q : Nat) (s : State) : State :=
  let x := peerOf s q
  match x.oldPhase, x.rekeyAt with
  | true, some t =>
    let s := reach (t + 1000000) s
    bump .fabAssocStateRekeys q 1 (wr .fabAssocStateRekeying q 0
      (onPeer q (fun x => { x with oldPhase := false, oldSeen := [], oldHigh := 0, rekeyAt := none, bornAt := s.localTime,
                                   failSaid := none }) s))
  | _, _ => s

/-- A rekey exchange fails, or passes 50 ms (R400): REKEY_FAIL at most once per second per peer. -/
def rekeyFails (q : Nat) (failed : Bool) (s : State) : State :=
  if !(exchanging s q) then s else
  let s := if failed then s else reach ((peerOf s q).startedAt + 50000000) s
  let x := peerOf s q
  let quiet := match x.failSaid with
    | some t => decide (s.localTime < t + 1000000000)
    | none => false
  let s := wr .fabAssocStateRekeying q 0 s
  if quiet then s
  else postEvent 0 0x0005 (srcPort 0) (leBytes 2 q) (onPeer q (fun x => { x with failSaid := some s.localTime }) s)

/-- A failed rekey is tried again, 100 ms after the last attempt (R400). -/
def rekeyRetry (q : Nat) (s : State) : State :=
  if !assocUp s q || on s .fabAssocStateRekeying q || (peerOf s q).failSaid.isNone then s
  else
    let s := reach ((peerOf s q).startedAt + 100000000) s
    tell q .rekeyShare (onPeer q (fun x => { x with startedAt := s.localTime }) (wr .fabAssocStateRekeying q 1 s))

/- Ports (R402 to R406). -/

/-- A supply stage is in effect: 1 to 4 for A to D (R534). -/
def stageOn (s : State) (g : Nat) : Bool := g ≤ rd s .pwrStageStage 0

/-- Lanes that a port of a speed and class uses (R402, R413). -/
def lanesOf (speed cls : Nat) : Nat :=
  match speed, cls with
  | 4, _ => 4
  | 3, 1 => 2
  | 3, _ => 4
  | 2, 1 => 1
  | 2, _ => 2
  | 1, _ => 1
  | _, _ => 0

/-- Speed in Mb/s of a speed code (R413). -/
def speedMbps (speed : Nat) : Nat :=
  match speed with
  | 1 => 100000
  | 2 => 200000
  | 3 => 400000
  | 4 => 800000
  | _ => 0

/-- The frames of a port are discarded, its credits and tokens zeroed, and the packets it carried unacknowledged are
sent again on other paths (R352, R394). -/
def leavePort (p : Nat) (s : State) : State :=
  let s := onPort p (fun x => { x with egress := List.replicate 32 { EgressQ.empty with filled := s.localTime } }) s
  let go := fun (c : Conn) (s : State) =>
    each (c.unacked.filter (fun k => match k.path with
      | some x => x.1 == p
      | none => false)) (fun k s => resend c.num k (onConn c.num (fun x =>
        { x with unacked := upd (fun y => y.frame.psn == k.frame.psn) (fun y => { y with path := none }) x.unacked }) s)) s
  each s.conns go s

/-- A port goes down with a cause (R404, R371, R352). Causes: 1 link lost, 2 LANE, 3 SPEED, 4 RESET. -/
def portDown (p cause lane : Nat) (s : State) : State :=
  let s := bump .fabPortStatusLinkDowns p 1 (wr .fabPortStatusState p 0 (wr .fabPortStatusCause p cause s))
  let s := if cause = 2 then wr .fabPortStatusFailedLane p lane s else s
  let s := if cause = 2 ∨ cause = 3 then report (srcPort p) .portDown sevDegraded none s else s
  let s := postEvent 0 0x0002 (srcPort p) (leBytes 1 p ++ leBytes 1 cause ++ leBytes 1 lane) s
  leavePort p (onPort p (fun x => { x with idle := false, retryAt := s.localTime + 1000000000 }) s)

/-- A lane of a port that is up fails (R404): one that the port uses. -/
def laneFails (p lane : Nat) (s : State) : State :=
  if rd s .fabPortStatusState p = 2 ∧ lane < lanesOf (rd s .fabPortCfgSpeed p) (rd s .fabPortCfgLaneClass p) then portDown p 2 lane s
  else s

/-- The base RTTs of a port's paths are forgotten when it comes up (R381). A path value belongs to the port it is on. -/
def forgetBase (p : Nat) (s : State) : State :=
  { s with conns := s.conns.map (fun c => { c with paths := c.paths.map (fun k =>
      if (usablePaths s c.num).contains (p, k.value) then { k with cur := none, prev := none } else k) }) }

/-- A port's lanes lock and align at a speed (R403, R26, R371). Under stage C FAB4 to FAB7 rest at once (R535). -/
def portUp (p speed : Nat) (s : State) : State :=
  let plan := rd s .fabPortCfgSpeed p
  if plan = 0 ∨ rd s .fabPortStatusState p = 2 then s
  else if speed ≠ plan then
    let s := report (srcPort p) .portDown sevDegraded none
      (wr .fabPortStatusState p 4 (wr .fabPortStatusCause p 3 (wr .fabPortStatusEqSettled p 0 s)))
    postEvent 0 0x0002 (srcPort p) (leBytes 1 p ++ leBytes 1 3 ++ leBytes 1 0)
      (onPort p (fun x => { x with retryAt := s.localTime + 1000000000 }) s)
  else
    let s := forgetBase p (wr .fabPortStatusState p 2 s)
    let s := postEvent 0 0x0001 (srcPort p) (leBytes 1 p) s
    if stageOn s 3 ∧ 4 ≤ p then wr .fabPortStatusState p 3 (onPort p (fun x => { x with idle := true }) s) else
    each s.conns (fun c => pumpAll c.num) s

/-- A down port tries to link again (R405): it is training. -/
def portRetry (p : Nat) (s : State) : State :=
  if rd s .fabPortCfgSpeed p = 0 ∨ (rd s .fabPortStatusState p ≠ 0 ∧ rd s .fabPortStatusState p ≠ 4) then s
  else wr .fabPortStatusState p 1 (reach (portOf s p).retryAt s)

/-- The equalisation loop of a port that is up settles (R403). (DEDUCED: log entry 59.) -/
def eqSettled (p : Nat) (s : State) : State := if rd s .fabPortStatusState p = 2 then wr .fabPortStatusEqSettled p 1 s else s

/-- The fields of a register of a port that a port reset restores (R405, R12). -/
def portReset (p : Nat) (s : State) : State :=
  if rd s .fabPortCfgSpeed p = 0 then s else
  let s := if portUsable s p ∨ rd s .fabPortStatusState p = 3 then portDown p 4 0 s else leavePort p s
  let s := restore (fun d i => match d.kind with
    | .port => (match d.reg with
      | .fabLaneStat => i / 4 == p
      | _ => i == p)
    | _ => false) s
  wr .fabPortStatusState p 1 s

/-- SHAPER_SET on one port: the values and empty tokens (R393). -/
def setShaper (q rate burst p : Nat) (s : State) : State :=
  let s := wr .fabShaperRateMbps (32 * p + q) rate
    (if rate = 0 then s else wr .fabShaperBurst (32 * p + q) burst s)
  onPort p (fun x => { x with egress := (x.egress.zipIdx).map (fun y =>
    if y.2 = q then { y.1 with tokens := 0, filled := s.localTime } else y.1) }) s

/-- The ports that a PORTS byte names. -/
def portsOf (mask : Nat) : List Nat := (List.range 8).filter (fun p => bit mask p)

/-- SHAPER_SET (R392, R393). -/
def opShaperSet (c : Cmd) (s : State) : State :=
  let e := c.entry
  let ports := portsOf (fieldOf e 0x10 1)
  let q := fieldOf e 0x11 1
  let rate := fieldOf e 0x14 4
  let burst := fieldOf e 0x18 4
  let slowest := (ports.map (fun p => speedMbps (rd s .fabPortCfgSpeed p))).foldl min 4294967296
  let bad := ports.isEmpty || decide (31 < q) || !(zeroAt e 0x12 2) || !(zeroAt e 0x1C 36)
    || ports.any (fun p => rd s .fabPortCfgSpeed p == 0) || decide (slowest < rate)
    || (rate != 0 && (decide (burst < 9216) || decide (16777216 < burst)))
  if bad then complete c.id .badParam 0 s
  else complete c.id .ok 0 (each ports (setShaper q rate burst) s)

end Sys2Proof.Machine
end

