-- ==== Sys2Proof/Machine/Power.lean ====
section
/-! DEFINITION. Supply stages, the power envelope, temperature and the resets of the device (R528 to R554). -/
namespace Sys2Proof.Machine

/- Supply sag (R534 to R538). -/

/-- Threshold of a stage in mV (R535). -/
def stageMv (g : Nat) : Nat := 39000 - 1000 * g

/-- The STAGE event and the INFO report of a change of stage (R565, R575). -/
def sayStage (c : Cond) (s : State) : State :=
  postEvent 0 0x0060 srcPower (leBytes 1 (rd s .pwrStageStage 0)) (report srcPower c sevInfo none s)

/-- FAB4 to FAB7 go to low-power idle, without PORT_DOWN (R535, R371). -/
def idlePorts (s : State) : State :=
  each [4, 5, 6, 7] (fun p s => if rd s .fabPortStatusState p = 2 then
    leavePort p (wr .fabPortStatusState p 3 (onPort p (fun x => { x with idle := true }) s)) else s) s

/-- FAB4 to FAB7 leave low-power idle and rejoin the rotation (R536): what waits for a path goes. -/
def wakePorts (s : State) : State :=
  each (s.conns.map (fun c => c.num)) pumpAll <| each [4, 5, 6, 7] (fun p s => if rd s .fabPortStatusState p = 3 ∧ (portOf s p).idle then
    wr .fabPortStatusState p 2 (onPort p (fun x => { x with idle := false }) s) else s) s

/-- What one stage sheds by itself when it is entered (R535). Stage A limits telemetry, stage C idles ports: from the wake on when the
device rests in a power state (R538). -/
def shed (g : Nat) (s : State) : State :=
  match g with
  | 1 => bump .pwrStageDips 0 1 (if rd s .pwrStateState 0 = 0 then wr .errTelemCtrlShed 0 1 s else s)
  | 3 => if rd s .pwrStateState 0 = 0 then idlePorts s else s
  | 4 => bump .pwrStageStageD 0 1 s
  | _ => s

/-- The stages from the lightest not in effect up to g are entered (R534: stages are cumulative).
(DESIGN CHOICE: log entry 14.) -/
def enterStage (g mv : Nat) (s : State) : State :=
  let s := wr .pwrSupplyVinMv 0 mv s
  if stageMv g < mv ∨ g ≤ rd s .pwrStageStage 0 then s else
  each ((List.range (g - rd s .pwrStageStage 0)).map (fun i => rd s .pwrStageStage 0 + 1 + i))
    (fun k s => sayStage .stageEntered (shed k (wr .pwrStageStage 0 k s))) s

/-- The flash writes that stage B has held are programmed in the order in which they were queued (R536). -/
def holdOrder (s : State) : State := { s with flashHeld := s.flashQueue }

/-- The heaviest stage ends (R536): stages end in the order D, C, B, A. -/
def endStage (g mv : Nat) (s : State) : State :=
  let s := wr .pwrSupplyVinMv 0 mv s
  if mv < stageMv g + 1000 ∨ g ≠ rd s .pwrStageStage 0 then s else
  let s := wr .pwrStageStage 0 (g - 1) s
  let s := if g = 1 then wr .errTelemCtrlShed 0 0 s else if g = 3 then wakePorts s else if g = 2 then holdOrder s else s
  sayStage .stageEnded s

/- The power envelope and temperature (R539 to R541). -/

/-- The least handshake-rate target in MHz (R540). -/
def rateFloor : Nat := 1200

/-- One reduction of the target by the power cap, or one step of stall throttling at the floor (R540). -/
def capStep (step : Nat) (count : Fld) (s : State) : State :=
  let t := rd s .hallRateRateTarget 0
  if t ≤ rateFloor then { s with power := { s.power with throttle := min 6 (s.power.throttle + 1), capHeld := true } }
  else
    let s := bump count 0 1 (wr .hallRateRateTarget 0 (max rateFloor (t - step)) s)
    { s with power := { s.power with capHeld := true } }

/-- A measure stands above its level (R540). Power in units of 0.1 W (R556). (DESIGN CHOICE: log entry 14.) -/
def powerCap (m : PowerMeasure) (in100 in1s stall : Nat) (s : State) : State :=
  let s := wr .pwrPowerInput100us 0 in100 (wr .pwrPowerInput1s 0 in1s (wr .pwrPowerStall 0 stall s))
  match m with
  | .input100us => if 6400 < in100 then capStep 100 .pwrLimitBurst s else s
  | .stretch10ms => if 6000 < in100 then capStep 100 .pwrLimitBurst s else s
  | .input1s => if 5850 < in1s then capStep 50 .pwrLimitSustained s else s
  | .stall100us => if 1450 < stall then capStep 50 .pwrLimitStallCap s else s

/-- Every measure has stayed below 95 % of its level for 1 ms (R540): throttling is released first, then the target
rises, up to 2.00 G/s or the temperature limit. -/
def capRelease (s : State) : State :=
  let p := s.power
  if 0 < p.throttle then { s with power := { p with throttle := p.throttle - 1 } }
  else
    let top := min 2000 p.tempLimit
    let t := min top (rd s .hallRateRateTarget 0 + 50)
    let s := wr .hallRateRateTarget 0 (max t (rd s .hallRateRateTarget 0)) s
    { s with power := { p with capHeld := p.capHeld && decide (rd s .hallRateRateTarget 0 < top) } }

/-- Tj has reached 100 °C: the target falls a step (R24, R557). (DESIGN CHOICE: log entry 14.) -/
def thermalStep (tj : Nat) (s : State) : State :=
  let s := wr .pwrSupplyTj 0 tj s
  let t := rd s .hallRateRateTarget 0
  if tj < 100 ∨ t ≤ rateFloor then s else
  let n := max rateFloor (t - 50)
  { bump .pwrLimitThermal 0 1 (wr .hallRateRateTarget 0 n s) with power := { s.power with tempLimit := n } }

/-- Tj has stayed below 97 °C for 1 ms: the temperature limit rises a step, and the target with it unless the power cap
holds it (R541). -/
def thermalRecover (tj : Nat) (s : State) : State :=
  let s := wr .pwrSupplyTj 0 tj s
  if 97 ≤ tj ∨ 2000 ≤ s.power.tempLimit then s else
  let n := min 2000 (s.power.tempLimit + 50)
  let s := { s with power := { s.power with tempLimit := n } }
  if s.power.capHeld then s else wr .hallRateRateTarget 0 n s

/- Resets (R550 to R554). -/

/-- Causes of a full reset (R562). -/
def causePowerOn : Nat := 0
def causePerst : Nat := 1
def causeHotReset : Nat := 2
def causeCommand : Nat := 3
def causeVinLow : Nat := 4
def causeVinHigh : Nat := 5
def causeFatal : Nat := 6
def causeTrip : Nat := 7
def causePldm : Nat := 8

/-- The read-threshold loop of a zone's blocks starts again from its initial offset (R23, R262). -/
def Zone.loopEnds (z : Zone) : Zone := { z with blocks := z.blocks.map (fun b => (b.1, 0, b.2.2)) }

/-- What no reset of the block touches: the host's memory, what has left the part, the fuses, the flashes and the
model's own counters. (DEDUCED: log entry 52.) -/
def keepOutside (s t : State) : State :=
  { t with pending := s.pending, fresh := s.fresh, order := s.order, hostMem := s.hostMem, msix := s.msix,
           answers := s.answers, sidebandOut := s.sidebandOut, wire := s.wire, svcOut := s.svcOut, cxlOut := s.cxlOut, certs := s.certs, serials := s.serials,
           fuses := s.fuses, ownerKeys := s.ownerKeys, shodunRevoked := s.shodunRevoked, romKeys := s.romKeys,
           keyArea := s.keyArea, xspi := s.xspi, stagedOk := s.stagedOk, catalogue := s.catalogue, journalRecs := s.journalRecs, zones := s.zones.map Zone.loopEnds,
           deviceCat := s.deviceCat }

/-- The crier after a full reset: the log is kept, budgets of the old time base end (R583). -/
def keepCrier (c : Crier) : Crier := { Crier.empty with log := c.log, dropped := c.dropped, dropAt := c.dropAt }

/-- The state of a device held in full reset (R552 step 3, R554): only the always-on domain and what lies outside the
hall die keep their contents. FATAL_N stays asserted until the reset is released (R566). (DEDUCED: log entry 54.) -/
def heldInReset (s : State) : State :=
  let t := restoreFull s
  let t := { keepOutside s State.reset with
    phase := .reset, plan := s.plan, regs := t.regs, raw := t.raw, crier := keepCrier s.crier,
    frames := s.frames, frameErrs := [], flashKeys := s.flashKeys,
    power := { Power.off with
      vauxOk := s.power.vauxOk, tileOn := s.power.tileOn, perst := s.power.perst, tripped := s.power.tripped,
      straps := s.power.straps } }
  let split := bits s.power.straps 0 1
  wr .pciLinkBif 0 split (wr .pciLinkBif 1 split (wr .errAlarmFatal 0 (rd s .errAlarmFatal 0) t))

/-- A full reset (R550 to R553). The first cause seen is the one recorded; a source that arises in reset adds none.
(DEDUCED: log entry 54.) -/
def fullReset (cause : Nat) (s : State) : State :=
  if s.phase == .reset then s else
  let s := bump .pwrResetCauseFullResets 0 1 (wr .pwrResetCauseCause 0 cause s)
  heldInReset (record 2 .resetRecord sevInfo s)

/-- A full reset with the tile off: VIN out of range, or a thermal trip (R537, R541). -/
def fullResetTileOff (cause : Nat) (s : State) : State :=
  let t := fullReset cause s
  { t with power := { t.power with tileOn := false } }

/-- A supply reset (R537): VIN at or below 34.0 V, or above 58.0 V. -/
def supplyReset (high : Bool) (s : State) : State :=
  if !s.power.tileOn then s else
  fullResetTileOff (if high then causeVinHigh else causeVinLow) (bump .pwrResetCauseSupplyResets 0 1 s)

/-- A power-on reset (R531, R554): the always-on SRAM is lost as well. -/
def powerOnReset (s : State) : State := { keepOutside s State.reset with serials := 0 }

/-- VAUX rises into range and the Abtoser ends its self-test (R530). -/
def powerOn (s : State) : State :=
  if s.power.vauxOk then s else
  let t := powerOnReset s
  { t with power := { t.power with vauxOk := true } }

/-- VIN has held at 40.0 V for 5 ms: the tile starts (R530), unless the device has tripped and is still hot (R541). -/
def tileStart (s : State) : State :=
  if s.power.vauxOk ∧ s.power.tripped = false then { s with power := { s.power with tileOn := true } } else s

/-- VAUX stays below 3.0 V for 10 µs (R531). -/
def vauxFail (s : State) : State := powerOnReset s

/-- Tj at or above 110 °C for 100 µs (R541). -/
def thermalTrip (tj : Nat) (s : State) : State :=
  if tj < 110 ∨ s.power.tripped then s else
  let s := report srcPower .thermalTrip sevFatal none (wr .pwrSupplyTj 0 tj s)
  let t := fullResetTileOff causeTrip s
  { t with power := { t.power with tripped := true } }

/-- Tj falls to 90 °C after a trip (R541). -/
def tripRelease (s : State) : State := { s with power := { s.power with tripped := false } }

/-- PERST_N is asserted (R550, R553). -/
def perstAssert (s : State) : State :=
  let t := fullReset causePerst s
  { t with power := { t.power with perst := true } }

/-- PERST_N is deasserted: the straps are sampled (R418, R453). Bit 0 is HP_BIF, bits 1 and 2 HP_CXL,
bits 3 to 5 SB_ADDR. -/
def perstDeassert (straps : Nat) (s : State) : State :=
  if !s.power.perst then s else
  let s := { s with power := { s.power with perst := false, straps := straps } }
  wr .pciLinkBif 0 (bits straps 0 1) (wr .pciLinkBif 1 (bits straps 0 1) s)

/-- The time in P1 to P3 is counted (R561). -/
def countResidency (ns : Nat) (s : State) : State :=
  let v := (RegFile.get s.raw ⟨.pwrStateStatResidencyMs, 0⟩).getD 0 + ns
  wr .pwrStateStatResidencyMs 0 (v / 1000000) { s with raw := RegFile.set s.raw ⟨.pwrStateStatResidencyMs, 0⟩ v }

/-- A fatal alarm ends a power state at once (R548). -/
def endPowerState (s : State) : State :=
  let s := if rd s .pwrStateState 0 = 0 then s
    else wr .pwrStateState 0 0 (countResidency (s.localTime - s.power.enteredAt) s)
  { s with power := { s.power with move := .none, event := none, pollAt := 0 } }

/-- The sideband's 7-bit SMBus address (R452). -/
def sidebandAddress (s : State) : Nat := 0x40 + bits s.power.straps 3 3

end Sys2Proof.Machine
end

