-- ==== Sys2Proof/Machine/Crates.lean ====
section
/-! DEFINITION. Crates, the references on them, the stock book and its records, and the capacity of the tiers
(R194 to R236, R247 to R251, R630). -/
namespace Sys2Proof.Machine

/- Tables of sequences and crates. -/

/-- The crate of a number. -/
def crateOf (s : State) (id : Nat) : Option Crate := s.crates.find? (fun c => c.id == id)

/-- Change a crate. -/
def onCrate (id : Nat) (f : Crate → Crate) (s : State) : State := { s with crates := upd (fun c => c.id == id) f s.crates }

/-- The sequence of a number. -/
def seqOf (s : State) (uid : Nat) : Option Seq := s.seqs.find? (fun q => q.uid == uid)

/-- Change a sequence. -/
def onSeq (uid : Nat) (f : Seq → Seq) (s : State) : State := { s with seqs := upd (fun q => q.uid == uid) f s.seqs }

/-- The sequence of a pitch with an id (R37). -/
def seqById (s : State) (p id : Nat) : Option Seq := s.seqs.find? (fun q => q.pitch == p && q.id == id)

/-- Change a member of a list by its index. -/
def setAt {α : Type} (l : List α) (i : Nat) (f : α → α) : List α :=
  (l.zipIdx).map (fun x => if x.2 = i then f x.1 else x.1)

/-- Change one layer of a sequence. -/
def onLayer (uid j : Nat) (f : Layer → Layer) (s : State) : State := onSeq uid (fun q => { q with layers := setAt q.layers j f }) s

/-- The layer of a sequence. -/
def layerOf (q : Seq) (j : Nat) : Option Layer := q.layers[j]?

/-- The crates that a sequence's page tables name. -/
def seqCrates (q : Seq) : List Nat := q.layers.flatMap (fun l => l.pages.filterMap id)

/-- A sequence references a crate. -/
def refers (q : Seq) (id : Nat) : Bool := q.layers.any (fun l => l.pages.contains (some id))

/-- The crates of a list of references that are local. -/
def localRefs (l : List Ref) : List Nat := l.filterMap (fun r => match r with
  | .here id => some id
  | .remote _ => none)

/-- REFS of a crate (R235): page tables, publication records, results, lookups on their way, remote holds, dependants. -/
def refCount (s : State) (id : Nat) : Nat :=
  sumBy (fun q => (seqCrates q).count id) s.seqs + sumBy (fun r => r.crates.count id) s.pubs
    + sumBy (fun r => (r.pages.flatMap (fun p => localRefs p.refs)).count id) s.results
    + sumBy (fun l => (l.pages.flatMap (fun p => localRefs p.refs)).count id) s.lookups
    + countBy (fun x => x.crate == some id) s.seals + sumBy (fun h => h.crates.count id) s.holds
    + sumBy (fun c => b2n (c.base == some id) + countBy (fun l => l.base == some id) c.leaving) s.crates

/-- A word that holds a handle of a crate (R236): an entry of a page table, the current handle in a publication record, a
handle in a result slot, the base handle of a dependant. -/
inductive Referrer where
  | page (seq layer page : Nat)
  | record (id layer : Nat)
  | slot (pitch slot page layer : Nat)
  | dependant (crate : Nat)
  deriving DecidableEq, Repr

/-- The places of a list at which a condition holds. -/
def placesOf {α : Type} (l : List α) (f : α → Bool) : List Nat := ((l.zipIdx).filter (fun x => f x.1)).map (fun x => x.2)

/-- The referrers of a crate, in list order (R236). -/
def referrers (s : State) (id : Nat) : List Referrer :=
  s.seqs.flatMap (fun q => (q.layers.zipIdx).flatMap (fun l => (placesOf l.1.pages (· == some id)).map (Referrer.page q.uid l.2)))
    ++ s.pubs.flatMap (fun r => (placesOf r.crates (· == id)).map (Referrer.record r.id))
    ++ s.results.flatMap (fun r => (r.pages.zipIdx).flatMap (fun g =>
      (placesOf g.1.refs (· == .here id)).map (Referrer.slot r.pitch r.slot g.2)))
    ++ (s.crates.filter (fun c => c.base == some id)).map (fun c => Referrer.dependant c.id)

/-- The referrer chunks of a crate: seven referrers each (R236). -/
def referrerChunks (s : State) (id : Nat) : List (List Referrer) :=
  let l := referrers s id
  groupsOf 7 (l.length + 1) l

/-- ACTIVE sequences that reference a crate; a dependant that one references counts as one (R309). -/
def activeRefs (s : State) (id : Nat) : Nat :=
  let act := fun (i : Nat) => countBy (fun q => q.st == .active && refers q i) s.seqs
  act id + countBy (fun c => c.base == some id && decide (0 < act c.id)) s.crates

/-- The charged size of a crate (R247). -/
def charge (c : Crate) : Nat := slotSize c.shape false

/-- The 2-to-the-30 bytes of a GiB. -/
def gib : Nat := 1073741824

/-- The crate is the base of a dependant in tier 1 (R309). -/
def isBase (s : State) (id : Nat) : Bool := s.crates.any (fun c => c.base == some id)

/-- The crate has a tier-1 copy. -/
def inDram (c : Crate) : Bool := c.dram.isSome

/-- The highest copy of a crate (R234). -/
def topHandle (c : Crate) : Option Handle :=
  match c.hall, c.dram, c.lease, c.flash with
  | some h, _, _, _ => some h
  | none, some h, _, _ => some h
  | none, none, some (h, _), _ => some h
  | none, none, none, some h => some h
  | none, none, none, none => c.origin

/-- Where a new copy of a tier lies, in 4 KiB units: in DRAM on a 16 KiB boundary (R58); the place itself is not visible
(R630). (DESIGN CHOICE: log entry 11.) -/
def newPlace (s : State) (tier : Nat) : BitVec 44 :=
  let at_ := Config.location s.fresh
  if tier = 1 then at_ - at_ % 4 else at_

/-- A new handle of a tier of this device for a crate. (DESIGN CHOICE: log entry 11.) -/
def newHandle (s : State) (c : Crate) (tier : Nat) : Handle :=
  { tier := tier, device := deviceId s, pitch := c.pitch, format := c.shape.format, location := newPlace s tier }

/-- The entries in use of the crate-header array of a stack (R58), by 16 KiB unit: the header of each crate at its slot's
first unit, and its extension entry, with the handle of its delta base, at the second. -/
def headerArray (s : State) (k : Nat) : List (Nat × Bytes) :=
  s.crates.flatMap (fun c => match c.dram with
    | some h =>
      let unit := h.location.toNat / 4
      if c.stack ≠ k then []
      else (unit, c.header) :: (if c.ext then
        [(unit + 1, extEntry c.dir ((c.base.bind (crateOf s)).bind (fun b => if b.dram.isSome then b.dram else topHandle b)))] else [])
    | none => [])

/-- A copy that a move leaves behind (R236). -/
def Crate.leave (c : Crate) (h : Handle) : Left := { handle := h, dir := c.dir, base := c.base }

/-- What a crate has left behind once its DRAM copy, and the hall copy on it, go: nothing where no run reads it (R236). -/
def Crate.left (c : Crate) (hs : List Handle) : List Left := c.leaving ++ (if c.readers = 0 then [] else hs.map c.leave)

/-- The crate without its lease copy, which runs may still hold (R236, R267). -/
def Crate.noLease (c : Crate) : Crate := { c with lease := none, leaving := c.left (c.lease.toList.map (fun l => l.1)) }

/-- The copy that a handle names has been left behind and can still be read (R46, R236). -/
def Crate.stillThere (c : Crate) (h : Handle) : Bool := c.leaving.any (fun l => l.handle == h) && !(c.bad.contains h)

/-- A page-table entry (R43 to R45): the handle of the crate at a place of a layer's page table, or the null handle. -/
def pageEntry (s : State) (l : Layer) (i : Nat) : Nat :=
  ((((l.pages[i]?).getD none).bind (crateOf s)).bind topHandle).elim nullHandle Handle.word

/- Capacity (R247, R630). -/

/-- The stack of a retired frame's granule and the pitch that owns it: granules of a stack belong to pitches in the
order the plan lists them. 512 frames of 2 MiB make a granule. (DEDUCED: log entry 65.) -/
def framePitch (s : State) (k frame : Nat) : Option Nat :=
  ((List.range 16).flatMap (fun p => ((pitchPlan s p).granules.filter (fun g => g == k)).map (fun _ => p)))[frame / 512]?

/-- Bytes of a pitch's crate area that retired frames of a stack have taken (R272). -/
def lostFrames (s : State) (p k : Nat) : Nat :=
  2097152 * countBy (fun f => f.1 == k && framePitch s k f.2 == some p) s.frames

/-- Bytes of a pitch that are lent on a stack (R265). -/
def lentBytes (s : State) (p k : Nat) : Nat :=
  gib * countBy (fun l => l.lent && l.pitch == p && (pitchPlan s p).granules[l.granule]? == some k) s.leases

/-- Number of stacks of a pitch, at least 1. -/
def stackCount (s : State) (p : Nat) : Nat := max 1 (pitchStacks s p).length

/-- A stack's share of the crate area outside the fetch reserve (R247). -/
def areaShare (s : State) (p k : Nat) : Nat :=
  gib * (rd s .pitchTierCapCrateGib p - rd s .pitchTierCapFetchReserve p) / stackCount s p - lostFrames s p k - lentBytes s p k

/-- A stack's share of the fetch reserve (R245). -/
def reserveShare (s : State) (p : Nat) : Nat := gib * rd s .pitchTierCapFetchReserve p / stackCount s p

/-- Charged bytes on a stack that count against the reserve. -/
def reserveUsed (s : State) (p k : Nat) : Nat :=
  sumBy (fun c => if c.pitch = p ∧ c.stack = k ∧ c.reserve then charge c else 0) s.crates

/-- Charged bytes on a stack that do not. -/
def areaUsed (s : State) (p k : Nat) : Nat :=
  sumBy (fun c => if c.pitch = p ∧ c.stack = k then
      (if inDram c ∧ c.reserve = false then charge c else 0) + charge c * countBy (fun l => l.handle.tier == 1) c.leaving
    else 0) s.crates

/-- Free space of a pitch's crate area on a stack outside the reserve (R252). -/
def areaFree (s : State) (p k : Nat) : Nat := areaShare s p k - areaUsed s p k

/-- Charged tier-0 and tier-1 use of a pitch (R276). -/
def dramUsed (s : State) (p : Nat) : Nat :=
  sumBy (fun c => if c.pitch = p then (b2n c.hall.isSome + b2n c.dram.isSome) * charge c else 0) s.crates

/-- A flash copy is opportunistic when the crate has an ORIGIN, a lease copy also when it has a flash copy (R248). -/
def flashOpp (c : Crate) : Bool := c.flash.isSome && c.origin.isSome
def leaseOpp (c : Crate) : Bool := c.lease.isSome && (c.flash.isSome || c.origin.isSome)

/-- The lease copy is the only copy below DRAM (R235). -/
def dirtyLease (c : Crate) : Bool := c.lease.isSome && c.flash.isNone && c.origin.isNone

/-- Charged tier-3 use of a pitch. -/
def flashUsed (s : State) (p : Nat) : Nat :=
  sumBy (fun c => if c.pitch = p ∧ c.flash.isSome ∧ flashOpp c = false then charge c else 0) s.crates

/-- Charged DIRTY_LEASE bytes of the device (R268). -/
def dirtyBytes (s : State) : Nat := sumBy (fun c => if dirtyLease c then charge c else 0) s.crates

/-- Charged bytes of the other crates of a pitch whose copies to flash are in progress. -/
def flashComing (s : State) (p id : Nat) : Nat :=
  sumBy (fun c => if c.pitch = p ∧ c.id ≠ id ∧ c.copying = .toFlash ∧ c.flash.isNone then charge c else 0) s.crates

/-- The crate's charged size fits in what is left of the namespace quota, with the copies in progress counted (R249). -/
def flashRoom (s : State) (c : Crate) : Bool :=
  decide (flashUsed s c.pitch + flashComing s c.pitch c.id + charge c ≤ gib * rd s .pitchTierCapFlashGib c.pitch)

/-- Channels that the dies of a pitch's namespace lie on, and those of them that have not failed (R256, R26). -/
def diesChannels (s : State) (p : Nat) : List Nat := distinct ((pitchPlan s p).dies.map (fun d => d.1))
def channelsOf (s : State) (p : Nat) : List Nat := (diesChannels s p).filter (fun c => !(bit s.channelsFailed c))

/-- 16 KiB units in a zone: a failed channel takes its block of every zone with it (R256, R258). -/
def zoneCap (s : State) (p : Nat) : Nat := (pitchPlan s p).zoneUnits * (channelsOf s p).length / max 1 (diesChannels s p).length

/-- Physical bytes of a namespace (R258). -/
def flashSpace (s : State) (p : Nat) : Nat := (pitchPlan s p).zones * zoneCap s p * 16384

/-- Space of the opportunistic pool of a namespace (R248): what the charged copies leave. -/
def poolSize (s : State) (p : Nat) : Nat :=
  flashSpace s p - sumBy (fun c => if c.pitch = p ∧ c.flash.isSome ∧ flashOpp c = false then packSize c.shape c.packDir else 0) s.crates

/-- Bytes of opportunistic flash copies of a pitch. -/
def poolUsed (s : State) (p : Nat) : Nat :=
  sumBy (fun c => if c.pitch = p ∧ flashOpp c then packSize c.shape c.packDir else 0) s.crates

/-- Room for an opportunistic flash copy of a crate. -/
def poolRoom (s : State) (c : Crate) : Bool := decide (poolUsed s c.pitch + packSize c.shape c.packDir ≤ poolSize s c.pitch)

/-- Charged bytes in a borrowed lease. -/
def leaseUsed (s : State) (l : Nat) : Nat :=
  sumBy (fun c => match c.lease with
    | some (_, k) => if k = l ∧ leaseOpp c = false then charge c else 0
    | none => 0) s.crates

/-- Bytes of one layer directory, page table and barrow of a sequence in the working pool (R44, R63). -/
def seqPool (q : Seq) : Nat :=
  sumBy (fun l => 256 + 4096 * ceilDiv l.pages.length 512 + barrowSizeOf q.shape * (b2n l.slot0.alloc + b2n l.slot1.alloc)) q.layers
    + 8192 * (ceilDiv q.keys.length 512 + ceilDiv q.baseKeys.length 512)

/-- The size of a pitch's working pool (R630): its granules less the fixed areas. -/
def poolBytes (s : State) (p : Nat) : Nat :=
  dramPlanned s p - 2 * roundUp (128 * rd s .pitchLedgerQuota p) 2097152 - gib * rd s .pitchTierCapCrateGib p
    - 1179648 * rd s .pitchDispatchCfgSaveSlots p

/-- What a pitch uses of its working pool: sequences, the crate directory and its referrer chunks, records. -/
def poolTaken (s : State) (p : Nat) : Nat :=
  sumBy (fun q => if q.pitch = p then seqPool q else 0) s.seqs
    + sumBy (fun c => if c.pitch = p then 64 + 64 * (referrerChunks s c.id).length else 0) s.crates
    + sumBy (fun r => if r.pitch = p then 16 * r.crates.length else 0) s.pubs
    + sumBy (fun c => if cmdPitch s c = some p then (c.room.bind id).getD 0 else 0) s.cmds

/-- The working pool can supply n more bytes. -/
def poolRoomFor (s : State) (p n : Nat) : Bool := decide (poolTaken s p + n ≤ poolBytes s p)

/- The stock book (R193 to R200). -/

/-- The row of the shard map of a key (R194). -/
def shardRow (s : State) (key : Bytes) : Option ShardRow :=
  s.plan.shard[((key[0]?).getD 0).toNat * 16 + ((key[1]?).getD 0).toNat / 16]?

/-- The home device of a key. -/
def homeOf (s : State) (key : Bytes) : Option Nat := (shardRow s key).map (fun r => r.home)

/-- Reachable LY-9 devices of a market, as peers in rising device id. -/
def marketPeers (s : State) (market : Nat) : List Nat :=
  let l := (List.range s.plan.peers.length).filter (fun i => match s.plan.peers[i]? with
    | some r => r.kind == .ly9 && r.market == market && (peerOf s i).reachable
    | none => false)
  sortBy (fun i => ((peerPlan s i).map (fun r => r.deviceId)).getD 0) l

/-- A copy with its row of an entry taken out. -/
def dropCopy (device pitch : Nat) (e : StockEntry) : StockEntry :=
  { e with copies := e.copies.map (fun c => match c with
      | some x => if x.device = device ∧ x.pitch = pitch then none else some x
      | none => none) }

/-- The entry of a scope and key. -/
def entryIn (l : List StockEntry) (scope : Nat) (key : Bytes) : Option StockEntry := l.find? (fun e => e.scope == scope && e.key == key)

/-- Push a replica, or its changes, to the market (R199); under supply stage A the push waits (R224). -/
def pushReplica (e : StockEntry) (s : State) : State :=
  if e.hot = false then s
  else if stageOn s 1 then
    { s with pushOwed := s.pushOwed ++ (if s.pushOwed.contains (e.scope, e.key) then [] else [(e.scope, e.key)]) }
  else each (marketPeers s s.plan.market) (fun q => tell q (.replica e)) s

/-- The pushes that waited for the end of stage A (R224). -/
def resumePushes (s : State) : State :=
  if stageOn s 1 then s else
  each s.pushOwed (fun k s => match entryIn s.homes k.1 k.2 with
    | some e => pushReplica e s
    | none => s) { s with pushOwed := [] }

/-- Withdraw an entry's replicas (R199). -/
def withdrawReplica (e : StockEntry) (s : State) : State :=
  each (marketPeers s s.plan.market) (fun q => tell q (.withdraw e.scope e.key)) s

/-- Store a changed home entry; without a copy it is removed (R221). -/
def putHome (e : StockEntry) (s : State) : State :=
  let same := fun (x : StockEntry) => x.scope == e.scope && x.key == e.key
  if e.copies.all (fun c => c.isNone) then
    let s := { s with homes := drop same s.homes }
    if e.hot then withdrawReplica e s else s
  else if s.homes.any same then pushReplica e { s with homes := upd same (fun _ => e) s.homes }
  else pushReplica e { s with homes := s.homes ++ [e] }

/-- Remove a copy from an entry at its home, here (R220). (DEDUCED: log entry 35.) -/
def homeDrop (scope : Nat) (key : Bytes) (device pitch : Nat) (s : State) : State :=
  match entryIn s.homes scope key with
  | none => s
  | some e => putHome (dropCopy device pitch e) s

/-- The peer that is a device, where it is reachable on a service connection (R202, R244, R332). -/
def servicePeer (s : State) (d : Nat) : Option Nat :=
  (peerOfDevice s d).filter (fun q => (peerOf s q).reachable && (serviceConn s q).isSome)

/-- Tell the home of a key to drop a copy, where the home is reachable. -/
def sendDrop (scope : Nat) (key : Bytes) (device pitch : Nat) (s : State) : State :=
  match homeOf s key with
  | none => s
  | some d =>
    if d = deviceId s then homeDrop scope key device pitch s else
    match servicePeer s d with
    | some q => tell q (.drop (rd s .hallStockCfgEpoch 0) scope key device pitch) s
    | none => s

/-- Change the page of a publication in progress. -/
def pageDone (cmd : Option Nat) (page : Nat) (st : Status) (added dedup : Bool) (winner : Nat) (s : State) : State :=
  match cmd with
  | none => s
  | some id => { s with publishes := upd (fun x => x.cmd == id) (fun x =>
      { x with pages := setAt x.pages (page - x.first) (fun _ => (some st, added, dedup, winner)) }) s.publishes }

/-- A publication record is released, as a PREFIX_DROP does (R220, R222, R223). A page whose insert is still under way ends
with POISON, as its sequence has lost a crate. (DEDUCED: log entry 34.) -/
def releaseRecord (id : Nat) (s : State) : State :=
  match s.pubs.find? (fun r => r.id == id) with
  | none => s
  | some r => sendDrop r.scope r.key (deviceId s) r.pitch
      (pageDone r.cmd r.page .poison false false nullHandle { s with pubs := drop (fun x => x.id == id) s.pubs })

/-- The two stacks of a pitch that hold its ledger copies (R270): its lowest two, or the one it has.
(DESIGN CHOICE: log entry 11.) -/
def ledgerStack (s : State) (p : Nat) (second : Bool) : Nat :=
  let l := pitchStacks s p
  ((if second && decide (1 < l.length) then l[1]? else l.head?)).getD 0

/-- POP of a record's entry, as far as this device knows it. -/
def recordPop (s : State) (r : PubRec) : Nat :=
  match entryIn s.homes r.scope r.key, entryIn (s.replicas.map (fun x => x.1)) r.scope r.key with
  | some e, _ => e.pop
  | none, some e => e.pop
  | none, none => 0

/-- Capacity has run short: the record of least POP goes (R222, R249). -/
def shedRecord (p : Nat) (s : State) : State :=
  match leastBy (recordPop s) (s.pubs.filter (fun r => r.pitch == p && r.st == .standing)) with
  | some r => if rd s .hallCoreState 2 = 0 then releaseRecord r.id s else s
  | none => s

/- Remote holds of this device (R203, R209). -/

/-- The references that name a remote handle: results, lookups and crates that have it as ORIGIN. -/
def remoteNamed (s : State) (h : Handle) : Bool :=
  s.results.any (fun r => r.pages.any (fun p => p.refs.contains (.remote h)))
    || s.lookups.any (fun r => r.pages.any (fun p => p.refs.contains (.remote h)))
    || s.crates.any (fun c => c.origin == some h)

/-- Release the remote holds none of whose handles is referenced any more: each hold that was granted is released once (R209). -/
def sweepHolds (s : State) : State :=
  let gone := fun (x : MyHold) => x.handles.all (fun h => !(remoteNamed s h))
  each (s.myHolds.filter gone) (fun x s => match peerOfDevice s x.device with
    | some q => tell q (.holdRelease x.pitch x.record) s
    | none => s) { s with myHolds := drop gone s.myHolds }

/- Freeing. -/

/-- A crate that nothing references or reads, with no fetch on its way, is freed with every copy (R237, R273). -/
def sweepCrates (s : State) : State :=
  let keep := fun (c : Crate) => decide (0 < refCount s c.id) || decide (0 < c.readers)
    || (match c.fetch with
      | some f => f.started
      | none => false)
  { s with crates := (s.crates.filter keep).map (fun c => if c.readers = 0 then { c with leaving := [], bad := [] } else c) }

/-- Sweep until nothing changes: a freed dependant may free its base. -/
def sweepAll (s : State) : State := sweepTables (sweepHolds (sweepCrates (sweepCrates s)))

/- Pins and protection (R250, R251). -/

/-- The highest priority class among the ACTIVE sequences that reference a crate. -/
def topClass (s : State) (id : Nat) : Nat :=
  (s.seqs.filter (fun q => q.st == .active && refers q id)).foldl (fun m q => max m q.cls) 0

/-- A crate qualifies for a pin under the first rule of R250. -/
def pinWorthy (s : State) (c : Crate) : Bool :=
  let k := rd s .pitchTierCfgPinClass c.pitch
  k != 0 && inDram c && s.seqs.any (fun q => q.st == .active && decide (k ≤ q.cls) && refers q c.id)

/-- Pinned bytes of a pitch (R250). -/
def pinnedBytes (s : State) (p : Nat) : Nat := sumBy (fun c => if c.pitch = p ∧ c.pinned then charge c else 0) s.crates

/-- A crate waits before another for a pin: higher class, then later use, then lower address (R250). -/
def pinBefore (s : State) (a b : Crate) : Bool :=
  let x := topClass s a.id
  let y := topClass s b.id
  let la : Nat := (a.dram.map (fun h => h.location.toNat)).getD 0
  let lb : Nat := (b.dram.map (fun h => h.location.toNat)).getD 0
  y < x || (x == y && (b.lastUse < a.lastUse || (a.lastUse == b.lastUse && decide (la ≤ lb))))

/-- The first of a list of crates in an order. -/
def firstBy (before : Crate → Crate → Bool) : List Crate → Option Crate
  | [] => none
  | c :: t => match firstBy before t with
    | none => some c
    | some d => if before c d then some c else some d

/-- Take pins in order while the limit of 75 % of CRATE_GIB allows. The fuel is the number of crates. -/
def takePins (p : Nat) : Nat → State → State
  | 0, s => s
  | n + 1, s =>
    match firstBy (pinBefore s) (s.crates.filter (fun c => c.pitch == p && !c.pinned && pinWorthy s c)) with
    | none => s
    | some c =>
      if 4 * (pinnedBytes s p + charge c) < 3 * gib * rd s .pitchTierCapCrateGib p then
        takePins p n (onCrate c.id (fun c => { c with pinned := true }) s)
      else s

/-- Pins follow what qualifies (R250). -/
def repin (p : Nat) (s : State) : State :=
  let s := { s with crates := upd (fun c => c.pitch == p) (fun c =>
    { c with pinned := isBase s c.id || (c.pinned && pinWorthy s c) }) s.crates }
  takePins p s.crates.length s

/-- LEAD of a pitch in ns. -/
def leadNs (s : State) (p : Nat) : Nat := 1000 * rd s .pitchHawkStatLead p

/-- A crate is protected by a hint of a sequence that references it (R251). -/
def protected_ (s : State) (c : Crate) : Bool :=
  s.seqs.any (fun q => match q.hint with
    | some h =>
      let u := h.next + c.layer * h.gap
      let d := 2 * leadNs s c.pitch
      refers q c.id && decide (u ≤ s.localTime + d) && decide (s.localTime ≤ u + d)
    | none => false)

/-- A crate is held (R251): a run reads it, or it is FETCH_HELD. -/
def held (c : Crate) : Bool := decide (0 < c.readers) || c.reserve

/-- A crate is MOVING (R235): a copy of it is on its way between tiers, or is being recoded. -/
def moving (c : Crate) : Bool := c.fetch.isSome || c.copying != .none || c.promoting || c.recoding.isSome || c.rebasing

/-- The 64 B crate record (R235). Where its first referrer chunk lies is not visible (R630). (DESIGN CHOICE: log entry 11.) -/
def crateRecord (s : State) (c : Crate) : Bytes :=
  let word := fun (h : Option Handle) => leBytes 8 (h.elim nullHandle Handle.word)
  leBytes 4 (refCount s c.id) ++ leBytes 2 c.readers
    ++ leBytes 2 (b2n c.pinned + 2 * b2n (protected_ s c) + 4 * b2n (isBase s c.id) + 8 * b2n (moving c) + 16 * b2n c.reserve
      + 32 * b2n (dirtyLease c))
    ++ leBytes 8 c.lastUse ++ word c.hall ++ word c.dram ++ word (c.lease.map (fun l => l.1)) ++ word c.flash ++ word c.origin
    ++ leBytes 8 (if (referrers s c.id).isEmpty then 0 else (Config.address (2 * c.id)).toNat)

end Sys2Proof.Machine
end

