-- ==== Sys2Proof/Machine/Tiers.lean ====
section
/-! DEFINITION. Moves between the tiers: fetches, eviction, flash, promotion, lost copies, retired frames and the
catalogue (R237 to R272). -/
namespace Sys2Proof.Machine

/-- a is less than b in lexicographic order. -/
def lexLt : List Nat → List Nat → Bool
  | [], [] => false
  | [], _ :: _ => true
  | _ :: _, [] => false
  | a :: s, b :: t => decide (a < b) || (a == b && lexLt s t)

/-- Ask a peer to read: the read's number and the state with the READ_REQ sent (R346). -/
def askRead (conn window offset len : Nat) (want : ReadFor) (resp : Nat × Nat) (s : State) : Nat × State :=
  let id := s.order
  let msg := (connOf s conn).msgId
  let r : Read := {
    id := id, conn := conn, msgId := msg, want := want, len := len,
    base := resp.2, data := [], endAt := none, done := false }
  let s := { ordered s with reads := s.reads ++ [r] }
  (id, sendMsg conn opReadReq window offset false (.readReq id)
    (leBytes 4 resp.1 ++ leBytes 4 len ++ leBytes 6 resp.2 ++ leBytes 2 0) s)

/- Runs that name a crate (R245). -/

/-- A tile is a crate's. -/
def ofCrate (id : Nat) (t : Tile) : Bool :=
  match t.src with
  | .crate k _ => k == id
  | _ => false

/-- Tiles of a run or group: its members share them. -/
def workTiles (w : Work) : List Tile := (w.runs.head?.map (fun r => r.tiles)).getD []

/-- Query rows per KV head of a run or group (R103). -/
def workRows (w : Work) : Nat := sumBy (fun r => r.rows) w.runs

/-- Passes per KV head of each of its tiles (R103). -/
def workPasses (w : Work) : Nat := max 1 (ceilDiv (workRows w) 32)

/-- Passes of a batch of 256 rows (R148). -/
def batchPasses : Nat := 8

/-- The tiles that a context has still to read: those from its next one, and all when a further batch follows (R148). -/
def tilesLeft (x : Ctx) (w : Work) : List Tile :=
  if x.done then [] else if batchPasses * (x.pass / batchPasses + 1) < workPasses w then workTiles w else (workTiles w).drop x.tile

/-- A run that names a crate has not read its tile of it yet: it is listed, queued, unplaced or in a context (R245). -/
def tileAhead (s : State) (id : Nat) : Bool :=
  s.attends.any (fun a => !a.listed && a.parts.any (fun p => p.status.isNone && p.runs.any (fun r => r.any (ofCrate id))))
    || s.stalls.any (fun k => k.queue.any (fun w => (workTiles w).any (ofCrate id)))
    || s.unplaced.any (fun w => (workTiles w).any (ofCrate id))
    || s.ctxs.any (fun x => match x.work with
      | some w => (tilesLeft x w).any (ofCrate id)
      | none => false)

/-- A fetched copy that every run which named it has read is an ordinary tier-1 copy from then on (R245). -/
def endReserve (id : Nat) (s : State) : State :=
  onCrate id (fun c => if c.fetch.isNone && !(tileAhead s id) then { c with reserve := false } else c) s

/- Fetches (R240 to R246). -/

/-- The tier below DRAM that a fetch of a crate would read (R271). -/
def sourceTier (c : Crate) : Option Nat :=
  if c.lease.isSome then some 2 else if c.flash.isSome then some 3 else if c.origin.isSome then some 4 else none

/-- Queue a fetch of a crate below tier 1; one that is queued or in flight keeps its place (R242). -/
def queueFetch (kind : FetchKind) (order useTime id : Nat) (s : State) : State :=
  onCrate id (fun c =>
    if inDram c ∨ c.fetch.isSome then c else
    match sourceTier c with
    | none => c
    | some t =>
      let f : Fetch := { kind := kind, tier := t, order := order, useTime := useTime, queuedAt := s.localTime, started := false }
      { c with fetch := some f, lateSeen := false }) s

/-- The place of a fetch in the hawker's order (R241). -/
def fetchKey (c : Crate) (f : Fetch) : List Nat :=
  match f.kind with
  | .demand => [0, f.order, c.layer, c.page]
  | _ => [1, f.useTime, f.order, c.layer, c.page]

/-- The crates with a queued fetch, in the hawker's order. -/
def fetchQueue (s : State) : List Crate :=
  let l := s.crates.filterMap (fun c => match c.fetch with
    | some f => if f.started then none else some (fetchKey c f, c)
    | none => none)
  (l.foldl (fun acc x =>
    acc.filter (fun y => !(lexLt x.1 y.1)) ++ [x] ++ acc.filter (fun y => lexLt x.1 y.1)) []).map (fun x => x.2)

/-- The holder's peer and the service connection to it, where the holder is reachable (R244). -/
def holderConn (s : State) (h : Handle) : Option Nat :=
  match peerOfDevice s h.device with
  | some q => if (peerOf s q).reachable then serviceConn s q else none
  | none => none

/-- A fetch starts: it takes its space in the reserve, and a tier-4 fetch sends its request (R244, R245). -/
def startFetch (c : Crate) (f : Fetch) (s : State) : State :=
  let go := onCrate c.id (fun c => { c with fetch := some { f with started := true }, reserve := true })
  if f.tier = 4 then
    match c.origin with
    | none => s
    | some h => match holderConn s h with
      | none => s
      | some conn => (askRead conn 1 (h.location.toNat + h.pitch * 2 ^ 44) (charge c) (.crate c.id) (0, 0) (go s)).2
  else go s

/-- Start queued fetches in order: one that a stack's share of the reserve has no room for waits, and those behind it that
want the same share wait with it (R241, R245). `full` holds the shares that are waited for. -/
def startEach : List Crate → List (Nat × Nat) → State → State
  | [], _, s => s
  | c :: rest, full, s =>
    match c.fetch with
    | none => startEach rest full s
    | some f =>
      if full.contains (c.pitch, c.stack) then startEach rest full s
      else if reserveUsed s c.pitch c.stack + charge c ≤ reserveShare s c.pitch then startEach rest full (startFetch c f s)
      else startEach rest ((c.pitch, c.stack) :: full) s

/-- Start the queued fetches that may start (R241, R245). -/
def startFetches (s : State) : State := startEach (fetchQueue s) [] s

/-- ACCESS of a source in ns (R240). (DESIGN CHOICE: log entry 75.) -/
def accessNs (tier : Nat) : Nat := if tier = 2 then 5000 else if tier = 3 then 40000 else 50000

/-- Nanoseconds that a number of bytes takes from a source (R240): 100 GB/s per lender, the nominal rate of the
namespace, 25 GB/s per holder. (DESIGN CHOICE: log entry 75.) -/
def transferNs (s : State) (p tier bytes : Nat) : Nat :=
  match tier with
  | 2 => bytes / 100
  | 3 => bytes * 10 / (36 * max 1 (channelsOf s p).length)
  | _ => bytes / 25

/-- The crates of a layer of a sequence that lie below tier 1. -/
def layerBelow (s : State) (q : Seq) (j : Nat) : List Crate :=
  match layerOf q j with
  | none => []
  | some l => (l.pages.filterMap (fun x => x.bind (crateOf s))).filter (fun c => !inDram c)

/-- The lender, namespace or holder that a crate's copy in a tier lies with (R240). -/
def sourceOf (s : State) (c : Crate) (tier : Nat) : Nat :=
  match tier with
  | 2 => ((c.lease.bind (fun l => s.leases.find? (fun x => x.id == l.2))).map (fun l => l.peer)).getD 0
  | 3 => c.pitch
  | _ => (c.origin.map (fun h => h.device)).getD 0

/-- The start time S of a hinted sequence's fetches (R240), the earliest over its layers and sources. -/
def planStart (s : State) (q : Seq) (h : Hint) : Nat :=
  let source := fun (c : Crate) => (sourceTier c).map (fun t => (t, sourceOf s c t))
  let sources := distinct ((List.range q.layers.length).flatMap (fun j => (layerBelow s q j).filterMap source))
  let per := fun (x : Nat × Nat) => (List.range q.layers.length).foldl (fun (acc : Nat × Option Nat) j =>
    let b := acc.1 + sumBy charge ((layerBelow s q j).filter (fun c => source c == some x))
    let u := h.next + j * h.gap - leadNs s q.pitch - accessNs x.1 - transferNs s q.pitch x.1 b
    (b, some (match acc.2 with
      | none => u
      | some m => min m u))) (0, none)
  (sources.filterMap (fun x => (per x).2)).foldl min (h.next + q.layers.length * h.gap)

/-- The hawker queues a hinted sequence's fetches at S (R240). -/
def scheduleFetches (uid : Nat) (s : State) : State :=
  match seqOf s uid with
  | none => s
  | some q => match q.hint with
    | none => s
    | some h =>
      if q.planned ∨ q.nextHint = 0 then s else
      let s := onSeq uid (fun q => { q with planned := true }) (reach (planStart s q h) s)
      each (List.range q.layers.length) (fun j s =>
        each (layerBelow s q j) (fun c => queueFetch .hinted j (h.next + j * h.gap) c.id) s) s

/-- A late crate raises LEAD (R246). (DEDUCED: log entry 77.) -/
def lateCrate (p : Nat) (s : State) : State :=
  let l := rd s .pitchHawkStatLead p
  let s := { s with leadRun := setN s.leadRun p 0 }
  bump .pitchHawkStatLate p 1 (wr .pitchHawkStatLead p (min 20000 (l + l / 4)) s)

/-- A hinted use that was not late: after 64 in a row with slack above LEAD / 2, LEAD falls (R246). (DEDUCED: log entry 77.) -/
def timelyUse (p slack : Nat) (s : State) : State :=
  let l := rd s .pitchHawkStatLead p
  if 2 * slack ≤ leadNs s p then { s with leadRun := setN s.leadRun p 0 }
  else
    let n := lookupN s.leadRun p + 1
    if n < 64 then { s with leadRun := setN s.leadRun p n }
    else wr .pitchHawkStatLead p (max 50 (l - l / 8)) { s with leadRun := setN s.leadRun p 0 }

/-- A run reaches its tile of a crate: the hawker's account of hinted plans (R246). `readable` says whether the crate
has arrived. -/
def hintedUse (id : Nat) (readable : Bool) (s : State) : State :=
  match crateOf s id with
  | none => s
  | some c =>
    let hintedFetch := match c.fetch with
      | some f => f.kind == .hinted
      | none => false
    if readable = false then
      (if hintedFetch && !c.lateSeen then lateCrate c.pitch (onCrate id (fun c => { c with lateSeen := true }) s) else s)
    else if c.hinted && !c.lateSeen then timelyUse c.pitch (c.useTime - c.arrived) s
    else s

/- Copies that are lost (R271, R272). -/

/-- A sequence becomes DAMAGED (R41). -/
def damage (uid : Nat) (s : State) : State :=
  onSeq uid (fun q => if q.st = .active ∨ q.st = .parked then { q with st := .damaged } else q) s

/-- No copy of a crate is left: its sequences are damaged, its records released, the loss reported (R271, R565). -/
def copiesLost (id : Nat) (s : State) : State :=
  match crateOf s id with
  | none => s
  | some c =>
    let s := report (if c.stack < 8 then c.stack else srcFlash) .unreadable sevContained (some c.pitch) s
    let s := each ((s.seqs.filter (fun q => refers q id)).map (fun q => q.uid)) damage s
    each ((s.pubs.filter (fun r => r.crates.contains id)).map (fun r => r.id)) releaseRecord s

/-- The crate without its tier-1 copy, which is no longer a dependant (R236, R310). -/
def Crate.noDram (c : Crate) : Crate :=
  { c with hall := none, dram := none, dir := c.packDir, base := none, recoding := none, rebasing := false }

/-- A dependant whose base is lost: its blocks are unreadable, and it is fetched from its own standalone copy, or is lost with
its base (R319). -/
def dependantLost (id : Nat) (s : State) : State :=
  match crateOf s id with
  | none => s
  | some c =>
    let s := onCrate id (fun c => { c.noDram with
      reserve := false, leaving := c.leaving ++ c.dram.toList.map c.leave, bad := c.bad ++ c.dram.toList }) s
    if (sourceTier c).isNone then copiesLost id s else queueFetch .demand s.order s.localTime id s

/-- A crate is lost, and its dependants lose their base (R271, R319). -/
def crateLost (id : Nat) (s : State) : State :=
  each ((s.crates.filter (fun c => c.base == some id)).map (fun c => c.id)) dependantLost (copiesLost id s)

/-- After a copy is gone: the crate is fetched from the next copy down, or is lost (R271). -/
def refetch (id : Nat) (s : State) : State :=
  match crateOf s id with
  | none => s
  | some c =>
    if inDram c then s
    else if (sourceTier c).isNone then crateLost id s
    else queueFetch .demand s.order s.localTime id s

/-- A copy below DRAM has been dropped: a fetch that was to read it reads the next copy down, and without one the crate is
lost (R236, R271). -/
def retarget (id : Nat) (s : State) : State :=
  match crateOf s id with
  | none => s
  | some c =>
    if inDram c then s
    else match sourceTier c with
      | none => crateLost id (onCrate id (fun c => { c with fetch := none, reserve := false }) s)
      | some t => onCrate id (fun c => { c with
          fetch := c.fetch.map (fun f => if f.tier = t then f else { f with tier := t, started := false }),
          reserve := c.reserve && (match c.fetch with
            | some f => f.tier == t
            | none => false) }) s

/-- The copy of a crate in a tier is unreadable and is dropped (R271). A DRAM slot is freed once no run reads it. -/
def dropCopyOf (id tier : Nat) (s : State) : State :=
  let gone := fun (c : Crate) => match tier with
    | 0 => { c with hall := none, bad := c.bad ++ c.hall.toList }
    | 1 => { c.noDram with
        reserve := false, leaving := c.leaving ++ c.dram.toList.map c.leave, bad := c.bad ++ c.dram.toList }
    | 2 => { c with lease := none }
    | 3 => { c with flash := none }
    | _ => { c with origin := none }
  refetch id (onCrate id gone s)

/-- The frame of its stack in which a tier-1 copy lies: 512 locations of 4 KiB each (R272). (DEDUCED: log entry 65.) -/
def frameOf (h : Handle) : Nat := h.location.toNat / 512

/-- The porters move the live copies of a frame to other slots (R272, R236); `gone` are those that they could not read. -/
def moveOut (k frame : Nat) (gone : List Nat) (s : State) : State :=
  let there := s.crates.filter (fun c => c.stack == k && (match c.dram with
    | some h => frameOf h == frame
    | none => false))
  each (there.map (fun c => c.id)) (fun id s =>
    if gone.contains id then dropCopyOf id 1 s else
    match crateOf s id with
    | none => s
    | some c =>
      let h := newHandle s c 1
      onCrate id (fun c => { c with dram := some h, leaving := c.left c.dram.toList }) (freshen s)) s

/-- A frame is retired and its live copies move (R272): 512 a stack; past that it stays in use, and the retirement is logged as
an error. -/
def retireFrame (k frame : Nat) (gone : List Nat) (s : State) : State :=
  if s.frames.contains (k, frame) then s
  else if 512 ≤ countBy (fun f => f.1 == k) s.frames then report k .frameListFull sevDegraded none s
  else report k .frameRetired sevContained (framePitch s k frame) (moveOut k frame gone { s with frames := s.frames ++ [(k, frame)] })

/-- A corrected error of a frame: the eighth within 60 s retires it (R272). -/
def correctedError (k frame : Nat) (gone : List Nat) (s : State) : State :=
  let near := fun (e : Nat × Nat × Nat) => s.localTime ≤ e.2.2 + 60000000000
  let errs := s.frameErrs.filter near ++ [(k, frame, s.localTime)]
  let s := report k .correctedEcc sevCorrected none { s with frameErrs := errs }
  if 8 ≤ countBy (fun e => e.1 == k && e.2.1 == frame) errs then
    retireFrame k frame gone { s with frameErrs := drop (fun e => e.1 == k && e.2.1 == frame) s.frameErrs }
  else s

/-- The channel of the i-th 16 KiB unit of a zone: consecutive units go to consecutive channels (R258). -/
def unitChannel (s : State) (p i : Nat) : Option Nat :=
  let l := channelsOf s p
  if l.length = 0 then none else l[i % l.length]?

/-- The channels that a copy in a zone lies on (R258). -/
def placeChannels (s : State) (p : Nat) (x : ZonePlace) : List Nat :=
  distinct ((List.range x.units).filterMap (fun i => unitChannel s p (x.first + i)))

/-- Retries of a flash read (R262): the block keeps the offset that succeeded, and is marked at its sixteenth soft decoding.
(DEDUCED: log entry 77.) -/
def noteRetries (id n : Nat) (soft : Bool) (ch : Nat) (s : State) : State :=
  match s.zones.find? (fun z => z.crates.contains id) with
  | none => s
  | some z =>
    let on_ := ((z.places.filter (fun x => x.crate == id)).getLast?).map (placeChannels s z.pitch)
    if (on_.getD []).contains ch = false then s else
    let b := (z.blocks.find? (fun b => b.1 == ch)).getD (ch, 0, 0)
    let b' : Nat × Nat × Nat := (ch, (b.2.1 + n) % 8, b.2.2 + b2n soft)
    let mark := soft && b'.2.2 == 16
    let s := if mark then bump .flashHealthBlocksMarked 0 1 s else s
    { s with zones := upd (fun x => x.pitch == z.pitch && x.id == z.id) (fun x =>
      { x with blocks := b' :: drop (fun b => b.1 == ch) x.blocks, marked := x.marked || mark }) s.zones }

/-- A flash read that needed retries is counted and reported (R262, R281, R565). -/
def flashRetried (id n : Nat) (soft : Bool) (ch : Nat) (s : State) : State :=
  let s := noteRetries id n soft ch s
  let s := bump .flashHealthRetries 0 n (if soft then bump .flashHealthSoft 0 1 s else s)
  report srcFlash .flashRetry sevCorrected none s

/-- What a read showed beside its data: one of the two ledger copies of a pitch, repaired from its twin (R270), or a page-table
segment or key list that is lost, with which its sequence is DAMAGED (R271). -/
def beside (r : ReadResult) (s : State) : State :=
  match r with
  | .ledgerCopy p second frame gone =>
    let k := ledgerStack s p second
    retireFrame k frame gone (report k .twinRepair sevCorrected (some p) s)
  | .lostList uid k frame gone =>
    retireFrame k frame gone (damage uid (report k .unreadable sevContained ((seqOf s uid).map (fun q => q.pitch)) s))
  | _ => s

/-- The directory of a crate's copy in a tier: those of tiers 1 to 3 name tables of this pitch (R301, R316). -/
def dirIn (c : Crate) (tier : Nat) : List BlockDir := if tier = 1 then c.dir else if tier = 2 ∨ tier = 3 then c.packDir else []

/-- What a read of a copy in a tier found: whether the copy was readable, and the state with the finding counted
(R262, R270, R271, R272, R318). A directory that names a table that is not VALID makes its copy unreadable (R303). With every
channel of the namespace failed nothing is readable from it. -/
def readFinding (id tier : Nat) (r : ReadResult) (s : State) : Bool × State :=
  match crateOf s id with
  | none => (false, s)
  | some c =>
    if badTable s c.pitch (dirIn c tier) then
      (false, dropCopyOf id tier (report c.stack .invalidTable sevContained (some c.pitch) s))
    else
      let gone := tier == 3 && (channelsOf s c.pitch).isEmpty
      match if gone then .lost else r with
      | .ok => (true, s)
      | .corrected k f m => (true, correctedError k f m s)
      | .retried n soft ch => (true, if tier = 3 then flashRetried id n soft ch s else s)
      | .lostBlock ch =>
        (false, dropCopyOf id tier (if tier = 3 then report srcFlash .codewordLost sevContained (some c.pitch)
          (bump .flashHealthUncorrectable 0 1 (flashRetried id 3 true ch s)) else s))
      | .lostFrame k f m => (false, if tier = 1 then retireFrame k f m (dropCopyOf id tier s) else dropCopyOf id tier s)
      | .undecodable b => (false, dropCopyOf id tier (reportAt c.stack .decodeFailure sevContained (some c.pitch) b s))
      | .lost => (false, dropCopyOf id tier s)
      | .ledgerCopy _ _ _ _ | .lostList _ _ _ _ => (true, beside r s)

/-- What a read of DRAM that is no crate copy found (R270 to R272): a barrow page, a save record, a page table. -/
def structFinding (r : ReadResult) (s : State) : Bool × State :=
  match r with
  | .ok | .retried _ _ _ => (true, s)
  | .corrected k f m => (true, correctedError k f m s)
  | .lostFrame k f m => (false, retireFrame k f m s)
  | .lost | .lostBlock _ | .undecodable _ => (false, s)
  | .ledgerCopy _ _ _ _ | .lostList _ _ _ _ => (true, beside r s)

/- Flash (R255 to R262). -/

/-- The bucket of the write budget fills (R261): DAILY_GIB a day, at most an hour's fill, in bytes.
(DESIGN CHOICE: log entry 66.) -/
def fillFlash (s : State) : State :=
  let day := rd s .flashBudgetDailyGib 0 * gib
  let n := s.flashTokens + day * (s.localTime - s.flashFilled) / 86400000000000
  { s with flashTokens := min (day / 24) n, flashFilled := s.localTime }

/-- A flash write of n bytes: tokens go, and what they do not cover is overdraft (R261). -/
def spendFlash (n : Nat) (s : State) : State :=
  let s := fillFlash s
  let above := n - min n s.flashTokens
  let s := { s with flashTokens := s.flashTokens - min n s.flashTokens }
  let v := (RegFile.get s.raw ⟨.flashBudgetOverdraftGib, 0⟩).getD 0 + above
  wr .flashBudgetOverdraftGib 0 (min (v / gib) 65535) { s with raw := RegFile.set s.raw ⟨.flashBudgetOverdraftGib, 0⟩ v }

/-- Free zones of a namespace. -/
def freeZones (s : State) (p : Nat) : Nat :=
  (pitchPlan s p).zones - countBy (fun z => z.pitch == p && z.state != 0) s.zones

/-- The free zone with the lowest erase count; a zone that was never used has none (R260). -/
def pickZone (s : State) (p : Nat) : Option Zone :=
  let known := s.zones.filter (fun z => z.pitch == p)
  let blank : Zone :=
    { pitch := p, id := known.length, state := 0, crates := [], places := [], units := 0, filledAt := 0, erases := 0, marked := false,
      blocks := [], old := false }
  if known.length < (pitchPlan s p).zones then some blank
  else leastBy (fun z => z.erases) (known.filter (fun z => z.state == 0))

/-- Store a zone. -/
def putZone (z : Zone) (s : State) : State :=
  let same := fun (x : Zone) => x.pitch == z.pitch && x.id == z.id
  { s with zones := if s.zones.any same then upd same (fun _ => z) s.zones else s.zones ++ [z] }

/-- The 16 KiB units that the summary of a zone of n copies takes in its last pages: 80 B a copy, its location, crate record and
digest (R258). (DESIGN CHOICE: log entry 89.) -/
def summaryUnits (n : Nat) : Nat := ceilDiv (80 * n) 16384

/-- The bytes of a zone's summary (R258): location, crate record and digest of each copy. (DESIGN CHOICE: log entry 89.) -/
def zoneSummary (z : Zone) : Bytes := z.places.flatMap (fun x => leBytes 8 x.location ++ x.record ++ x.digest)

/-- What a zone summary says of a new copy of a crate (R258). -/
def placeOf (s : State) (c : Crate) (h : Handle) : ZonePlace :=
  { crate := c.id, first := 0, units := ceilDiv (packSize c.shape c.packDir) 16384, location := h.location.toNat,
    record := crateRecord s { c with flash := some h }, digest := c.digest }

/-- Append a copy to the open zone of a kind: 1 for writes, 2 for collection (R258). The zone keeps room for its summary. None
when the namespace has no free zone. -/
def appendZone (kind p : Nat) (x : ZonePlace) (s : State) : Option State :=
  let cap := zoneCap s p
  let fits := fun (z : Zone) => decide (z.units + x.units + summaryUnits (z.places.length + 1) ≤ cap)
  let full := fun (z : Zone) => { z with state := 3, filledAt := s.localTime }
  let put := fun (z : Zone) (s : State) => some (putZone { z with
    crates := z.crates ++ [x.crate], places := z.places ++ [{ x with first := z.units }], units := z.units + x.units } s)
  let start := fun (s : State) => match pickZone s p with
    | none => none
    | some z =>
      let z := { z with state := kind, crates := [], places := [], units := 0, old := false }
      if fits z then put z s else none
  match s.zones.find? (fun z => z.pitch == p && z.state == kind) with
  | some z => if fits z then put z s else start (putZone (full z) s)
  | none => start s

/-- Program a flash copy of a crate: its handle, its place in a zone, the budget; none when no zone is free. Delta-coded
blocks are rebased on the way (R310, R314). -/
def programFlash (id : Nat) (s : State) : Option State :=
  match crateOf s id with
  | none => none
  | some c =>
    let n := packSize c.shape c.packDir
    -- A place of an earlier flash copy is no longer live.
    let s := { s with zones := s.zones.map (fun z => { z with crates := z.crates.erase id }) }
    let h := newHandle s c 3
    match appendZone 1 c.pitch (placeOf s c h) s with
    | none => none
    | some s =>
      some (spendFlash n (onCrate id (fun c => { c with flash := some h, flashWanted := 0 }) (freshen s)))

/-- The packed directory of a crate is chosen anew where its tier-1 copy is a dependant (R310, R314). -/
def standalone (id : Nat) (s : State) : State :=
  match crateOf s id with
  | none => s
  | some c =>
    if c.base.isNone then onCrate id (fun c => { c with packDir := c.dir }) s
    else if c.lease.isSome ∨ c.flash.isSome then s
    else
      let r := codeBody c.pitch c.shape c.body s
      bump .pitchDeltaStatRebased c.pitch 1 (countBlocks c.pitch r.1 (onCrate id (fun c => { c with packDir := r.1 }) r.2))

/-- Drop opportunistic flash copies, least recently used first, until the pool holds them (R248). A copy that is being
fetched stays. The fuel is the number of crates. -/
def shrinkPool (p : Nat) : Nat → State → State
  | 0, s => s
  | n + 1, s =>
    let loose := fun (c : Crate) => c.pitch == p && flashOpp c && (match c.fetch with
      | some f => !(f.started && f.tier == 3)
      | none => true)
    if poolUsed s p ≤ poolSize s p then s else
    match leastBy (fun c => c.lastUse) (s.crates.filter loose) with
    | none => s
    | some c => shrinkPool p n (bumpK .pitchTierPoolDropped p 1 (retarget c.id (onCrate c.id (fun c => { c with flash := none }) s)))

/-- Drop opportunistic lease copies of a pitch, least recently used first, until its leases hold them (R248). A copy that is
being fetched stays. The fuel is the number of crates. -/
def shrinkLeases (p : Nat) : Nat → State → State
  | 0, s => s
  | n + 1, s =>
    let held_ := gib * countBy (fun l => !l.lent && l.pitch == p && l.st == .live) s.leases
    let used := sumBy (fun c => if c.pitch = p ∧ c.lease.isSome then packSize c.shape c.packDir else 0) s.crates
    let loose := fun (c : Crate) => c.pitch == p && leaseOpp c && (match c.fetch with
      | some f => !(f.started && f.tier == 2)
      | none => true)
    if used ≤ held_ then s else
    match leastBy (fun c => c.lastUse) (s.crates.filter loose) with
    | none => s
    | some c => shrinkLeases p n (retarget c.id (onCrate c.id Crate.noLease s))

/-- A flash copy that waits may be written now: stage B holds writes, a full quota makes a charged one wait, an empty
bucket holds what may wait (R255, R261, R273). -/
def flashAllowed (s : State) (c : Crate) : Bool :=
  !(stageOn s 2) && (fillFlash s |>.flashTokens |> fun t => decide (2 ≤ c.flashWanted) || decide (0 < t))
    && (if c.origin.isSome then poolRoom s c else flashRoom s c)

/-- A home marks a copy of an entry DURABLE (R198, R214). -/
def markCopy (scope : Nat) (key : Bytes) (device p : Nat) (s : State) : State :=
  match entryIn s.homes scope key with
  | none => s
  | some e => putHome { e with copies := e.copies.map (fun c => match c with
      | some x => if x.device = device ∧ x.pitch = p then some { x with durable := true } else some x
      | none => none) } s

/-- The home of a record's key is told that its copy is DURABLE, once the copy stands there (R198, R214 step 7). -/
def reportDurable (r : PubRec) (s : State) : State :=
  if r.st ≠ .standing ∨ r.durable = false ∨ r.sentDurable then s else
  let s := { s with pubs := upd (fun x => x.id == r.id) (fun x => { x with sentDurable := true }) s.pubs }
  match homeOf s r.key with
  | none => s
  | some d =>
    if d = deviceId s then markCopy r.scope r.key d r.pitch s
    else match servicePeer s d with
      | some q => tell q (.durableMark r.scope r.key r.pitch) s
      | none => s

/-- The page of a crate becomes DURABLE where it completes a record's flash copies (R198, R214). -/
def markDurable (id : Nat) (s : State) : State :=
  let done := fun (r : PubRec) => r.crates.contains id && !r.durable && r.crates.all (fun k =>
    ((crateOf s k).bind (fun c => c.flash)).isSome)
  each (s.pubs.filter done) (fun r s => reportDurable { r with durable := true }
    { s with pubs := upd (fun x => x.id == r.id) (fun x => { x with durable := true }) s.pubs }) s

/-- A crate's flash copy waits. -/
def flashWaits (s : State) (id : Nat) : Bool := (crateOf s id).any (fun c => c.flashWanted != 0 && c.flash.isNone)

/-- A crate whose flash copy waits stands in the queue of flash writes once (R536). -/
def queueFlash (id : Nat) (s : State) : State :=
  if s.flashQueue.contains id || !(flashWaits s id) then s else { s with flashQueue := s.flashQueue.filter (flashWaits s) ++ [id] }

/-- A write that stage B held has one before it in the queue that may be programmed now (R536). -/
def heldBehind (s : State) (id : Nat) : Bool :=
  s.flashHeld.contains id && (s.flashHeld.takeWhile (fun k => k != id)).any (fun k =>
    flashWaits s k && (crateOf s k).any (fun c => flashAllowed s c && (inDram c || c.lease.isSome)))

/-- FLASH_COPY_WRITTEN (R255): a waiting flash copy is read from DRAM, or from the lease that holds the crate's only copy,
programmed and journalled. Writes that stage B held go in the order of their queue (R536). -/
def flashCopyWritten (id : Nat) (r : ReadResult) (s : State) : State :=
  match crateOf s id with
  | none => s
  | some c =>
    if c.flashWanted = 0 ∨ c.flash.isSome ∨ (inDram c = false ∧ c.lease.isNone) ∨ flashAllowed s c = false ∨ heldBehind s id then s else
    match readFinding id (if inDram c then 1 else 2) r s with
    | (false, s) => s
    | (true, s) => match programFlash id (if inDram c then standalone id s else s) with
      | none => s
      | some s => markDurable id s

/-- A crate's flash copy is asked for, where it has none (R255). 2: in any case; 1: as the budget allows. A crate with
an ORIGIN gets one only as an opportunistic copy. -/
def wantFlash (level id : Nat) (s : State) : State :=
  queueFlash id <| onCrate id (fun c => if c.flash.isSome ∨ (c.origin.isSome ∧ poolRoom s c = false) then c
    else { c with flashWanted := max c.flashWanted (if c.origin.isSome then 1 else level) }) s

/- Eviction (R252 to R254). -/

/-- Charged bytes of the other crates whose copies to a lease are in progress. -/
def leaseComing (s : State) (l id : Nat) : Nat :=
  sumBy (fun c => if c.id ≠ id ∧ c.copying = .toLease l then charge c else 0) s.crates

/-- Charged bytes of the other crates whose copies to any lease are in progress: they will be DIRTY_LEASE copies (R268). -/
def dirtyComing (s : State) (id : Nat) : Nat :=
  sumBy (fun c => match c.copying with
    | .toLease _ => if c.id = id then 0 else charge c
    | _ => 0) s.crates

/-- LEASE_DIRTY_MAX in bytes: at most 512 MiB, whatever the plan gives (R268). -/
def dirtyMax (s : State) : Nat := 1048576 * min 512 s.plan.leaseDirtyMax

/-- The device's dirty lease bytes stay within LEASE_DIRTY_MAX with one more crate (R254, R268). -/
def dirtyRoom (s : State) (c : Crate) : Bool := decide (dirtyBytes s + dirtyComing s c.id + charge c ≤ dirtyMax s)

/-- A lease of the pitch with room for a crate (R254): live, borrowed, its charged use below 1 GiB. -/
def leaseWithRoom (s : State) (c : Crate) : Option Lease :=
  s.leases.find? (fun l => !l.lent && l.pitch == c.pitch && l.st == .live && decide (leaseUsed s l.id + leaseComing s l.id c.id + charge c ≤ gib))

/-- A sequence that references a crate is ACTIVE. -/
def activeCrate (s : State) (id : Nat) : Bool := s.seqs.any (fun q => q.st == .active && refers q id)

/-- The crate has a copy below DRAM. -/
def lowerCopy (c : Crate) : Bool := (sourceTier c).isSome

/-- The crate would go to a lease (R254). -/
def wouldLease (s : State) (c : Crate) : Option Lease :=
  if activeCrate s c.id ∧ dirtyRoom s c then leaseWithRoom s c else none

/-- Age times weight of a victim (R252). -/
def evictScore (s : State) (c : Crate) : Nat :=
  let age := min ((s.localTime - c.lastUse) / 1000) (2 ^ 32)
  age * (if lowerCopy c then 4 else if (wouldLease s c).isSome then 2 else 1)

/-- A victim goes before another: larger score, then lower address. -/
def evictBefore (s : State) (a b : Crate) : Bool :=
  let x := evictScore s a
  let y := evictScore s b
  let la : Nat := (a.dram.map (fun h => h.location.toNat)).getD 0
  let lb : Nat := (b.dram.map (fun h => h.location.toNat)).getD 0
  decide (y < x) || (x == y && decide (la ≤ lb))

/-- The candidates for eviction on a stack (R252). Under stage B only crates that need no write are picked (R273), and
so is it while the flash quota is full (R249). -/
def candidates (s : State) (p k : Nat) : List Crate :=
  let all := s.crates.filter (fun c => c.pitch == p && c.stack == k && inDram c && !c.pinned && !held c
    && c.copying == .none && !c.rebasing
    && (lowerCopy c || (!(stageOn s 2) && ((wouldLease s c).isSome || flashRoom s c))))
  let open_ := all.filter (fun c => !protected_ s c)
  if open_.isEmpty then all else open_

/-- The DRAM copy of a crate is given up (R237); its tier-0 copy goes with it. -/
def dropDram (id : Nat) (s : State) : State :=
  onCrate id (fun c => { c.noDram with leaving := c.left (c.hall.toList ++ c.dram.toList) }) s

/-- A victim leaves tier 1 (R254): at once where a lower copy exists, else by a copy to a lease or to flash. -/
def evict (c : Crate) (s : State) : State :=
  if lowerCopy c then dropDram c.id s
  else match wouldLease s c with
    | some l => onCrate c.id (fun c => { c with copying := .toLease l.id }) s
    | none => onCrate c.id (fun c => { c with copying := .toFlash }) s

/-- Bytes of a stack that evictions in progress will free. -/
def leavingBytes (s : State) (p k : Nat) : Nat :=
  sumBy (fun c => if c.pitch = p ∧ c.stack = k ∧ inDram c ∧ (c.copying ≠ .none) then charge c else 0) s.crates

/-- Evict from a stack until twice EVICT_FREE_MIB is free or on its way (R252). The fuel is the number of crates. -/
def evictLoop (p k : Nat) : Nat → State → State
  | 0, s => s
  | n + 1, s =>
    if 2 * 1048576 * rd s .pitchTierCfgEvictFreeMib p ≤ areaFree s p k + leavingBytes s p k then s else
    match firstBy (evictBefore s) (candidates s p k) with
    | none => s
    | some c => evictLoop p k n (evict c s)

/-- Eviction of a stack found no candidate: counted once for each wait (R253, R279). -/
def evictWaits (p k : Nat) (s : State) : State :=
  let mine := fun (x : Nat × Nat × Bool) => x.1 == p && x.2.1 == k
  if s.evicting.any (fun x => mine x && x.2.2) then s
  else bump .hallTierStallWaits 0 1 { s with evicting := (p, k, true) :: drop mine s.evicting }

/-- An eviction from tier 0 or 2 of a pitch waits for a candidate, or no longer: each wait is counted once (R253, R279). -/
def tierWait (tier p : Nat) (waits : Bool) (s : State) : State :=
  if waits = s.tierWaits.contains (tier, p) then s
  else if waits then bump .hallTierStallWaits 0 1 { s with tierWaits := (tier, p) :: s.tierWaits }
  else { s with tierWaits := drop (fun x => x == (tier, p)) s.tierWaits }

/-- Run eviction on a stack (R252): it starts below EVICT_FREE_MIB and stops at twice that. A wait ends when a victim goes. -/
def runEviction (p k : Nat) (s : State) : State :=
  let mine := fun (x : Nat × Nat × Bool) => x.1 == p && x.2.1 == k
  let low := 1048576 * rd s .pitchTierCfgEvictFreeMib p
  if (areaFree s p k < low ∨ s.evicting.any mine) ∧ areaFree s p k < 2 * low then
    let s := if s.evicting.any mine then s else { s with evicting := (p, k, false) :: s.evicting }
    let before := areaFree s p k + leavingBytes s p k
    let s := evictLoop p k s.crates.length s
    let s := if before < areaFree s p k + leavingBytes s p k then { s with evicting := (p, k, false) :: drop mine s.evicting } else s
    let s := if areaFree s p k + leavingBytes s p k < 2 * low ∧ (candidates s p k).isEmpty then evictWaits p k s else s
    if 2 * low ≤ areaFree s p k then { s with evicting := drop mine s.evicting } else s
  else { s with evicting := drop mine s.evicting }

/-- EVICTION_COPY_DONE (R254, R267): the copy of a crate to a lease or to flash is written. -/
def evictionCopyDone (id : Nat) (r : ReadResult) (s : State) : State :=
  match crateOf s id with
  | none => s
  | some c =>
    match c.copying with
    | .none => s
    | .toLease l =>
      let s := onCrate id (fun c => { c with copying := .none }) s
      (match s.leases.find? (fun x => x.id == l && x.st == .live) with
      | none => s
      | some x => match readFinding id 1 r s with
        | (false, s) => s
        | (true, s) =>
          let s := standalone id s
          let h : Handle := { newHandle s c 2 with
            device := ((peerPlan s x.peer).map (fun q => q.deviceId)).getD 0 }
          let s := onCrate id (fun c => { c with lease := some (h, l) }) (freshen s)
          if c.pinned then s else dropDram id s)
    | .toFlash =>
      if stageOn s 2 ∨ (c.origin.isNone ∧ flashRoom s c = false) then s else
      let fromLease := c.lease.isSome
      let tier := if inDram c then 1 else 2
      let s := onCrate id (fun c => { c with copying := .none }) s
      (match readFinding id tier r s with
      | (false, s) => s
      | (true, s) => match programFlash id (if tier = 1 then standalone id s else s) with
        | none => onCrate id (fun c => { c with copying := .toFlash }) s
        | some s =>
          let s := markDurable id (onCrate id Crate.noLease s)
          if fromLease ∨ c.pinned then s else dropDram id s)
    | .dropDram => dropDram id (onCrate id (fun c => { c with copying := .none }) s)

/- Promotion to the hall (R237). -/

/-- The stalls of a pitch that are not retired (R499, R28). -/
def pitchStalls (s : State) (p : Nat) : List Nat :=
  (List.range 32).filter (fun k => bit (rd s .secPitchLayoutStalls p) k && !(bit (rd s .hallStallRetiredRetired 0) k))

/-- Bytes of a hall region that tier-0 copies leave free: a region is one bank of 4 MiB (R144). -/
def regionFree (s : State) (k : Nat) : Nat :=
  4194304 - sumBy (fun c => if c.region = k ∧ (c.hall.isSome ∨ c.promoting) then charge c else 0) s.crates

/-- The region of a pitch with the most room, the lowest among equals. (DEDUCED: log entry 65.) -/
def roomiest (s : State) (p : Nat) : Option Nat := leastBy (fun k => 4194304 - regionFree s k) (pitchStalls s p)

/-- The region of a pitch that takes a crate: the one with the most room, if the crate fits. (DEDUCED: log entry 65.) -/
def pickRegion (s : State) (c : Crate) : Option Nat := (roomiest s c.pitch).filter (fun k => decide (charge c ≤ regionFree s k))

/-- A tier-0 copy falls back to its tier-1 copy (R237). -/
def Crate.noHall (c : Crate) : Crate := { c with hall := none, leaving := c.left c.hall.toList }

/-- A tier-0 copy goes before another as a victim (R252): every one has a tier-1 copy, and 4 is the weight of those with another
copy below. Ties go to the lowest address. -/
def hallBefore (s : State) (a b : Crate) : Bool :=
  let addr := fun (c : Crate) => (c.hall.map (fun h => h.location.toNat)).getD 0
  decide (evictScore s b < evictScore s a) || (evictScore s a == evictScore s b && decide (addr a ≤ addr b))

/-- The candidates for eviction from a hall region (R252). -/
def hallCandidates (s : State) (k : Nat) : List Crate :=
  let all := s.crates.filter (fun c => c.hall.isSome && c.region == k && !c.pinned && !held c)
  let open_ := all.filter (fun c => !(protected_ s c))
  if open_.isEmpty then all else open_

/-- Evict from a hall region until n bytes are free (R237, R252). The fuel is the number of crates. -/
def evictHall (k n : Nat) : Nat → State → State
  | 0, s => s
  | m + 1, s =>
    if n ≤ regionFree s k then s else
    match firstBy (hallBefore s) (hallCandidates s k) with
    | none => s
    | some c => evictHall k n m (onCrate c.id Crate.noHall s)

/-- Room for a promotion (R237): a pitch's hall share has room for the crate, and no region has, so the region with the most room
needs room; eviction waits where it finds no candidate (R253). (DEDUCED: log entry 65.) -/
def makeRegion (c : Crate) (s : State) : State :=
  if (pickRegion s c).isSome then tierWait 0 c.pitch false s
  else if sumBy (regionFree s) (pitchStalls s c.pitch) < charge c then s
  else match roomiest s c.pitch with
    | none => s
    | some k =>
      let t := evictHall k (charge c) s.crates.length s
      tierWait 0 c.pitch (pickRegion t c).isNone t

/-- Fetches of a pitch wait to be served; promotions come behind them (R241). -/
def fetchesWait (s : State) (p : Nat) : Bool := s.crates.any (fun c => c.pitch == p && (match c.fetch with
  | some f => !f.started
  | none => false))

/-- Promotions start, behind every queued fetch, and tier-0 copies fall back (R237, R241). Supply stage A suspends promotions. -/
def promotions (p : Nat) (s : State) : State :=
  let refs := rd s .pitchTierCfgPromoteRefs p
  let few := fun (c : Crate) => c.pitch == p && c.hall.isSome && decide (2 * activeRefs s c.id < refs)
  let s := { s with crates := upd few Crate.noHall s.crates }
  if stageOn s 1 || fetchesWait s p then s else
  each ((s.crates.filter (fun c => c.pitch == p && inDram c && c.hall.isNone && !c.promoting
      && decide (refs ≤ activeRefs s c.id))).map (fun c => c.id)) (fun id s =>
    match crateOf s id with
    | some c =>
      let s := makeRegion c s
      (match pickRegion s c with
      | some k => onCrate id (fun c => { c with promoting := true, region := k }) s
      | none => s)
    | none => s) s

/-- PROMOTION_DONE (R237): the tier-1 copy has been read and its expanded copy stands in the hall. -/
def promotionDone (id : Nat) (r : ReadResult) (s : State) : State :=
  match crateOf s id with
  | none => s
  | some c =>
    if c.promoting = false then s else
    let s := onCrate id (fun c => { c with promoting := false }) s
    if inDram c = false then s else
    match readFinding id 1 r s with
    | (false, s) => s
    | (true, s) =>
      let h := newHandle s c 0
      onCrate id (fun c => { c with hall := if inDram c then some h else none }) (freshen s)

/- Fetches that end (R244, R245, R316). -/

/-- The lengths that decode a table of a fetched copy: a VALID table of the pitch with the fingerprint, or what has come
for it (R316, R317). -/
def fetchedLengths (s : State) (c : Crate) (print : Bytes) : Option (List Nat) :=
  match tableByPrint s c.pitch print with
  | some t => some t.lengths
  | none => match s.pendingTables.find? (fun x => x.1 == c.id && x.2.1 == print) with
    | some x => x.2.2
    | none => none

/-- The bytes of a read, in order of their offsets. -/
def readBytes (r : Read) : Bytes := (sortBy (fun (x : Nat × Bytes) => x.1) r.data).flatMap (fun x => x.2)

/-- The local table of one TABLE_REF of a fetched tier-4 copy (R316): a VALID table with the fingerprint, or the fetched one
installed in the role of the first block that names it; none where it is refused. -/
def mapRef (c : Crate) (l : List BlockDir) (r : Nat × Nat × Bytes) (s : State) : Option (Nat × Nat) × State :=
  match (l.zip (blockRoles c.shape)).find? (fun x => x.1.mode == 1 && x.1.tableId == r.1 && x.1.gen == r.2.1) with
  | none => (none, s)
  | some x => match tableByPrint s c.pitch r.2.2, fetchedLengths s c r.2.2 with
    | some t, _ => (some (t.id, t.gen), s)
    | none, some lens => (match admitTable c.pitch x.2.1 x.2.2 lens s with
      | (some t, s) => (some t, bump .hallTableStoreFetched 0 1 s)
      | (none, s) => (none, s))
    | none, none => (none, s)

/-- The local tables of the TABLE_REFs of a fetched copy, each asked for once. -/
def mapRefs (c : Crate) (l : List BlockDir) : List (Nat × Nat × Bytes) → State → List ((Nat × Nat) × Option (Nat × Nat)) × State
  | [], s => ([], s)
  | r :: rest, s =>
    let a := mapRef c l r s
    let b := mapRefs c l rest a.2
    (((r.1, r.2.1), a.1) :: b.1, b.2)

/-- The directory of a fetched tier-4 copy in the receiving pitch (R316): each table it names is mapped to a local one; a refused
one leaves its blocks raw. -/
def mapTables (c : Crate) (l : List BlockDir) (refs : List (Nat × Nat × Bytes)) (s : State) : List BlockDir × State :=
  let m := mapRefs c l refs s
  (l.map (fun d => match (m.1.find? (fun x => x.1 == (d.tableId, d.gen))).bind (fun x => x.2) with
    | some t => if d.mode = 1 then BlockDir.coded t d.codedLen 1 else BlockDir.raw
    | none => BlockDir.raw), m.2)

/-- A fetched copy stands in a DRAM slot and is readable; it is coded as its packed copy is (R310, R316). -/
def placeFetched (id : Nat) (s : State) : State :=
  match crateOf s id with
  | none => s
  | some c =>
    let hinted := match c.fetch with
      | some f => f.kind == .hinted
      | none => false
    let use := (c.fetch.map (fun f => f.useTime)).getD 0
    let h := newHandle s c 1
    let s := onCrate id (fun c => { c with
      dram := some h, fetch := none, dir := c.packDir, base := none, rebasing := false, reserve := true, hinted := hinted, arrived := s.localTime, useTime := use }) (freshen s)
    -- A demanded copy that no run names any more is an ordinary one at once (R245).
    let s := if (c.fetch.map (fun f => f.kind)) = some .demand then endReserve id s else s
    bump .pitchHawkStatFetches c.pitch 1 { s with pendingTables := drop (fun x => x.1 == id) s.pendingTables }

/-- The source that a fetch reads turns out unreadable (R244, R271). -/
def fetchFails (id : Nat) (s : State) : State :=
  match crateOf s id with
  | none => s
  | some c => match c.fetch with
    | none => s
    | some f =>
      let s := onCrate id (fun c => { c with fetch := none, reserve := false })
        { s with pendingTables := drop (fun x => x.1 == id) s.pendingTables,
                 reads := drop (fun r => r.want == .crate id) s.reads }
      dropCopyOf id f.tier s

/-- FETCH_DONE (R245): a started fetch has brought the copy, or has found it unreadable. A tier-4 fetch waits for its
data and for the tables that its blocks name. -/
def fetchDone (id : Nat) (r : ReadResult) (s : State) : State :=
  match crateOf s id with
  | none => s
  | some c => match c.fetch with
    | none => s
    | some f =>
      if f.started = false then s
      else if f.tier ≠ 4 then
        match readFinding id f.tier r s with
        | (true, s) => placeFetched id s
        | (false, s) => fetchFails id (onCrate id (fun c => { c with fetch := some f, reserve := true }) s)
      else match r with
        | .lost | .lostFrame _ _ _ | .lostBlock _ | .undecodable _ => fetchFails id s
        | _ => match s.reads.find? (fun x => x.want == .crate id) with
          | none => s
          | some x =>
            if x.done = false ∨ s.pendingTables.any (fun t => t.1 == id && t.2.2.isNone) then s else
            let bs := readBytes x
            match packIndex c.shape bs with
            | none => fetchFails id s
            | some (l, refs) =>
              let lens := fun (i g : Nat) => (refs.find? (fun r => r.1 == i && r.2.1 == g)).bind (fun r => fetchedLengths s c r.2.2)
              match unpackBody c.shape bs lens with
              | none => fetchFails id (reportAt c.stack .decodeFailure sevContained (some c.pitch)
                  (((List.range l.length).find? (fun i => (unpackBlock c.shape bs lens i).isNone)).getD 0) s)
              | some body =>
                let m := mapTables c l refs s
                placeFetched id (onCrate id (fun c => { c with
                    body := body, dir := m.1, packDir := m.1, digest := ((bs.drop 8).take 8) })
                  { m.2 with reads := drop (fun y => y.id == x.id) m.2.reads })

/-- The response of a tier-4 read has arrived whole: the tables it names that this pitch lacks are asked for (R317). -/
def askTables (id : Nat) (s : State) : State :=
  match crateOf s id, s.reads.find? (fun x => x.want == .crate id) with
  | some c, some x => match packIndex c.shape (readBytes x), c.origin.bind (fun h => peerOfDevice s h.device) with
    | some (_, refs), some q =>
      each (distinct ((refs.map (fun r => r.2.2)).filter (fun p => (tableByPrint s c.pitch p).isNone))) (fun p s =>
        if s.pendingTables.any (fun t => t.1 == id && t.2.1 == p) then s
        else tell q (.tableAsk p) { s with pendingTables := s.pendingTables ++ [(id, p, none)] }) s
    | _, _ => s
  | _, _ => s

/- Garbage collection (R259, R260). -/

/-- GC_LOW of a namespace: 2 % of its zones, at least 4. -/
def gcLow (s : State) (p : Nat) : Nat := max 4 ((pitchPlan s p).zones * 2 / 100)

/-- Erase counts of a namespace: lowest and highest. Zones that were never used have none. -/
def eraseRange (s : State) (p : Nat) : Nat × Nat :=
  let l := (s.zones.filter (fun z => z.pitch == p)).map (fun z => z.erases)
  let unused := l.length < (pitchPlan s p).zones
  match l with
  | [] => (0, 0)
  | x :: t => (if unused then 0 else t.foldl min x, t.foldl max x)

/-- Garbage collection runs (R259, R260, R262): few free zones, uneven wear or a marked zone. It pauses under stage B
(R273), and while core 2 restarts until GC_LOW / 2. -/
def gcRuns (s : State) (p : Nat) : Bool :=
  let free := freeZones s p
  let e := eraseRange s p
  !(stageOn s 2) && (if rd s .hallCoreState 2 = 0 then
      decide (free < gcLow s p) || decide (e.1 + 500 < e.2) || s.zones.any (fun z => z.pitch == p && z.marked)
    else decide (free < gcLow s p / 2))

/-- The live copies of a zone: crates that still have their flash copy (R259). -/
def liveIn (s : State) (z : Zone) : List Nat := z.crates.filter (fun id => ((crateOf s id).bind (fun c => c.flash)).isSome)

/-- Units of a zone that live copies take. -/
def liveUnits (s : State) (z : Zone) : Nat :=
  sumBy (fun id => (((z.places.filter (fun x => x.crate == id)).getLast?).map (fun x => x.units)).getD 0) (liveIn s z)

/-- A zone goes before another in collection by score, (1 − u) × age / (1 + u), with u its live fraction (R259). -/
def scoreAbove (s : State) (a b : Zone) : Bool :=
  let cap := zoneCap s a.pitch
  let num := fun (z : Zone) => (cap - liveUnits s z) * (s.localTime - z.filledAt)
  let den := fun (z : Zone) => cap + liveUnits s z
  decide (num b * den a < num a * den b)

/-- A full zone that collection relocates before another (R259, R260, R262): a marked one; where wear is uneven, among those with
live data the one with the lowest erase count; the larger score; while core 2 restarts the lower u. -/
def zoneBefore (s : State) (a b : Zone) : Bool :=
  let e := eraseRange s a.pitch
  let live := fun (z : Zone) => !((liveIn s z).isEmpty)
  if rd s .hallCoreState 2 ≠ 0 then decide (liveUnits s a < liveUnits s b)
  else if a.marked ≠ b.marked then a.marked
  else if e.1 + 500 < e.2 ∧ (live a ∨ live b) then (live a && (!(live b) || decide (a.erases < b.erases)))
  else scoreAbove s a b

/-- Collection may take a full zone now: no other full zone of the namespace goes before it. (DEDUCED: log entry 77.) -/
def isVictim (s : State) (z : Zone) : Bool :=
  z.state == 3 && (s.zones.filter (fun x => x.pitch == z.pitch && x.state == 3)).all (fun x => !(zoneBefore s x z))

/-- GC_ZONE_DONE: a zone's live copies have moved to the collection zone and the zone is erased; `lost` could not be
read (R259, R271). A zone whose copies find no place is not erased. (DEDUCED: log entry 77.) -/
def gcZoneDone (p zone : Nat) (lost : List Nat) (s : State) : State :=
  match s.zones.find? (fun z => z.pitch == p && z.id == zone) with
  | none => s
  | some z =>
    if isVictim s z = false ∨ gcRuns s p = false then s else
    let r := (liveIn s z).foldl (fun (acc : Bool × State) id =>
      if lost.contains id then (acc.1, dropCopyOf id 3 (bump .flashHealthUncorrectable 0 1 acc.2)) else
      match crateOf acc.2 id with
      | none => acc
      | some c =>
        let h := newHandle acc.2 c 3
        match appendZone 2 p (placeOf acc.2 c h) acc.2 with
        | none => (false, acc.2)
        | some s => (acc.1, spendFlash (packSize c.shape c.packDir) (onCrate id (fun c => { c with flash := some h }) (freshen s)))) (true, s)
    if r.1 = false then s else
    bump .flashWearGcZones p 1 (putZone { z with
      state := 0, crates := [], places := [], units := 0, erases := z.erases + 1, marked := false,
      blocks := z.blocks.map (fun b => (b.1, b.2.1, 0)), old := false } r.2)

/- Delta coding in tier 1 (R308, R310). -/

/-- RECODE_DONE (R308, R319): dropped when the crate or its base has left tier 1, or the base is a dependant; a base never
becomes one (R307). (DEDUCED: log entry 78.) -/
def recodeDone (id : Nat) (read baseRead : ReadResult) (s : State) : State :=
  match crateOf s id with
  | none => s
  | some c => match c.recoding with
    | none => s
    | some b =>
      if stageOn s 2 then s else
      let s := onCrate id (fun c => { c with recoding := none }) s
      match crateOf s b with
      | none => s
      | some base =>
        if inDram c = false ∨ inDram base = false ∨ base.base.isSome ∨ c.base.isSome ∨ isBase s id ∨ c.copying ≠ .none then s else
        let x := readFinding b (if base.hall.isSome then 0 else 1) baseRead s
        let y := readFinding id 1 read x.2
        let s := y.2
        if x.1 = false ∨ y.1 = false then s else
        let r := deltaBody c.pitch c.shape c.body base.body c.dir s
        if r.1.any (fun d => d.mode == 2) then
          let h := newHandle r.2 c 1
          countBlocks c.pitch (r.1.filter (fun d => d.mode == 2)) (onCrate id (fun c => { c with
            packDir := c.dir, dir := r.1, base := some b, dram := some h, leaving := c.left c.dram.toList }) (freshen r.2))
        else s

/-- REBASE_DONE (R310): a dependant that is to be rebased is read and stored standalone again. -/
def rebaseDone (id : Nat) (read : ReadResult) (s : State) : State :=
  match crateOf s id with
  | none => s
  | some c =>
    if c.rebasing = false ∨ c.base.isNone then s else
    match readFinding id 1 read s with
    | (false, s) => s
    | (true, s) =>
    let r := codeBody c.pitch c.shape c.body s
    let h := newHandle r.2 c 1
    bump .pitchDeltaStatRebased c.pitch 1 (countBlocks c.pitch r.1 (onCrate id (fun c => { c with
      rebasing := false, base := none, dir := r.1, packDir := if lowerCopy c then c.packDir else r.1, dram := some h,
      leaving := c.left c.dram.toList }) (freshen r.2)))

/-- Bases are released, least recently used first: all their dependants are to be rebased (R310). -/
def releaseBases (p : Nat) (s : State) : State :=
  let bases := s.crates.filter (fun c => c.pitch == p && isBase s c.id)
  let waits := s.evicting.any (fun x => x.1 == p && x.2.2)
  let above := decide (gib * rd s .pitchPackCfgDeltaBaseGib p < sumBy charge bases) || (waits && !bases.isEmpty)
  let busy := s.crates.any (fun c => c.pitch == p && c.rebasing)
  if above && !busy then
    match leastBy (fun c => c.lastUse) bases with
    | none => s
    | some b => { s with crates := upd (fun c => c.base == some b.id) (fun c => { c with rebasing := true }) s.crates }
  else s

/- The catalogue (R263, R264). -/

/-- Leading pages of a sequence whose crates have a flash copy or an ORIGIN in every layer. -/
def durablePages (s : State) (q : Seq) : List (List Crate) :=
  let n := (q.layers.map (fun l => l.sealed)).foldl min (8192)
  let page := fun (p : Nat) => q.layers.filterMap (fun l => ((l.pages[p]?).getD none).bind (crateOf s))
  let good := fun (l : List Crate) => l.length == q.layers.length && l.all (fun c => c.flash.isSome || c.origin.isSome)
  ((List.range n).map page).takeWhile good

/-- What the catalogue of a pitch holds of the running device (R263). -/
def catalogueOf (s : State) (p : Nat) : Catalogue :=
  let seqs := (s.seqs.filter (fun q => q.pitch == p && q.st != .free && q.st != .open_)).map (fun q =>
    ({ pitch := p, seq := q, pages := durablePages s q, damaged := q.st == .damaged, closing := q.st == .closing } : CatSeq))
  let recs := (s.pubs.filter (fun r => r.pitch == p && r.durable)).map (fun r => (r, r.crates.filterMap (crateOf s)))
  let used := fun (t : CodeTable) => s.crates.any (fun c => c.pitch == p && c.flash.isSome && decide (0 < dirUses c.packDir t.id t.gen))
  { seqs := seqs, tables := s.tables.filter (fun t => t.pitch == p && used t), records := recs, homes := [],
    holds := s.myHolds.filter (fun h => s.crates.any (fun c => c.pitch == p && h.handles.any (fun x => c.origin == some x))) }

/-- Events of R263 that a catalogue has taken in since an earlier image of it: sequences, tables, records and holds that are new
or changed, and those that are gone. -/
def catalogueEvents (old new : Catalogue) : Nat :=
  let fresh := fun {α : Type} [DecidableEq α] (a b : List α) => countBy (fun x => !(a.contains x)) b
  let gone := countBy (fun x => !(new.seqs.any (fun y => y.seq.uid == x.seq.uid))) old.seqs
    + countBy (fun x => !(new.records.any (fun y => y.1.id == x.1.id))) old.records
  fresh old.seqs new.seqs + fresh old.tables new.tables + fresh old.records new.records + fresh old.holds new.holds + gone

/-- The journal of a namespace grows by 4 KiB records, one an event; after every 4 GiB of it a checkpoint is written (R263).
(DESIGN CHOICE: log entry 89.) -/
def journalled (s : State) (p : Nat) (new : Catalogue) : Nat :=
  let old := ((s.catalogue.find? (fun x => x.1 == p)).map (fun x => x.2)).getD Catalogue.empty
  (lookupN s.journalRecs p + catalogueEvents old new) % 1048576

/-- The journals follow the events of R263: of each pitch whose key is not volatile and that does not replay, and of the
home entries with a DURABLE copy. -/
def journal (s : State) : State :=
  let ps := (List.range 16).filter (fun p => (pitchPlan s p).laidOut && !(s.replaying.contains p)
    && !(on s .secPitchStateVolatile p))
  { s with
    journalRecs := ps.foldl (fun l p => setN l p (journalled s p (catalogueOf s p))) s.journalRecs,
    catalogue := (ps.map (fun p => (p, catalogueOf s p))).filter (fun x => x.2 != Catalogue.empty)
      ++ drop (fun x => ps.contains x.1) s.catalogue,
    deviceCat := s.homes.filter (fun e => e.copies.any (fun c => match c with
      | some x => x.durable
      | none => false)) }

/-- A charged flash copy of a pitch finds FLASH_GIB full (R249): one that waits to be written, or that an eviction which runs on
its crate's stack needs. -/
def flashShort (s : State) (p : Nat) : Bool :=
  s.crates.any (fun c => c.pitch == p && c.origin.isNone && !(flashRoom s c)
    && (decide (1 ≤ c.flashWanted) || (!(stageOn s 2) && inDram c && !c.pinned && !held c && c.copying == .none && !(lowerCopy c)
      && (wouldLease s c).isNone && s.evicting.any (fun x => x.1 == p && x.2.1 == c.stack))))

/-- The work that the tiers do between events: freeing, pins, promotions, bases, eviction, fetches, journals. -/
def tidy (s : State) : State :=
  let s := sweepAll s
  let ps := distinct (s.crates.map (fun c => c.pitch))
  let s := each ps (fun p s => releaseBases p (repin p s)) s
  let s := each ps (fun p s => each (pitchStacks s p) (fun k s => runEviction p k s) s) s
  let s := each ps (fun p s => if flashShort s p then shedRecord p s else s) s
  let s := each ps promotions (startFetches s)
  journal (sweepAll (each ps (fun p s => shrinkPool p s.crates.length s) s))

end Sys2Proof.Machine
end

