-- ==== Sys2Proof/Machine/Windows.lean ====
section
/-! DEFINITION. Etlos windows (R335 to R343, R631) and leases (R265 to R269). -/
namespace Sys2Proof.Machine

/- Windows. -/

/-- Windows that a device holds at once (R335). -/
def windowMax : Nat := 262144

/-- The free index that was freed longest ago, with the generation it takes next (R335). -/
def freeIndex (s : State) : Option (Nat × Nat) :=
  if s.winNext < windowMax then some (s.winNext, 1) else s.winFreed.head?

/-- Open a window: its handle. None when all are in use. -/
def openWindow (w : Window) (s : State) : Option (Nat × State) :=
  match freeIndex s with
  | none => none
  | some (i, g) =>
    let w := { w with index := i, gen := g }
    let s := if s.winNext < windowMax then { s with winNext := s.winNext + 1 } else { s with winFreed := s.winFreed.tail }
    some (w.handle, { s with windows := s.windows ++ [w] })

/-- Free a window's index: its generation advances and skips 0 (R335, R342). -/
def closeWindow (index : Nat) (s : State) : State :=
  match windowAt s index with
  | none => s
  | some w =>
    let g := (w.gen + 1) % 8192
    { s with windows := drop (fun x => x.index == index) s.windows,
             winFreed := s.winFreed ++ [(index, if g = 0 then 1 else g)] }

/-- A window before it has an index. -/
def newWindow (p kind perms conn chit base len : Nat) : Window :=
  { index := 0, gen := 0, pitch := p, kind := kind, perms := perms, conn := conn, chit := chit, base := base, length := len,
    revoking := false, waiters := [] }

/-- Windows of a pitch open or revoking (R376). -/
def windowsOf (s : State) (p : Nat) : Nat := countBy (fun w => w.pitch == p) s.windows

/-- The connection belongs to the pitch. -/
def connOfPitch (s : State) (c p : Nat) : Bool :=
  on s .fabConnCfgValid c && !(on s .fabConnCfgService c) && rd s .fabConnCfgPitch c == p

/-- The region of a new window lies in the pitch's memory (R338, R425, R426). (DEDUCED: log entries 36 and 37.) -/
def regionOk (s : State) (p kind conn base len : Nat) : Bool :=
  let h := (pitchPlan s p).hallBase
  match kind with
  | 0 => inGranules s p base len
  | 1 => decide (h + ringArea s p ≤ base) && decide (base + len ≤ h + hallSize s p)
  | 2 => (ringPitch s base == some p) && rd s .pciRingCfgConn base == conn
  | _ => chitOwned s (p + 1) base && chitOwned s (p + 1) (base + len / 8 - 1)

/-- WIN_OPEN (R337, R338). -/
def opWinOpen (c : Cmd) (s : State) : State :=
  let e := c.entry
  let kind := fieldOf e 0x10 1
  let perms := fieldOf e 0x11 1
  let conn := fieldOf e 0x12 2
  let chit := fieldOf e 0x14 4
  let base := fieldOf e 0x18 6
  let len := fieldOf e 0x20 6
  let bad (st : Status) : State := complete c.id st (freeBits s 64) (freshen s)
  match ringPitch s c.ring with
  | none => bad .access
  | some p =>
    if 3 < kind ∨ 15 < perms ∨ !(zeroAt e 0x1E 2) ∨ !(zeroAt e 0x26 2) ∨ !(zeroAt e 0x28 24) ∨ len % 64 ≠ 0 ∨ len < 64
        ∨ (kind ≤ 1 ∧ base % 64 ≠ 0) ∨ (kind = 2 ∧ 1024 ≤ base) ∨ (kind = 3 ∧ 16384 < base + len / 8) then bad .badParam
    else if kind = 2 ∧ (conn = 0xFFFF ∨ bit perms permRemoteRead ∨ len ≠ 64 * ringSize s base) then bad .badParam
    else if 2 ≤ kind ∧ chit ≠ noChit then bad .badParam
    else if !(regionOk s p kind conn base len) ∨ (conn ≠ 0xFFFF ∧ !(connOfPitch s conn p))
        ∨ (chit ≠ noChit ∧ !(chitOwned s (p + 1) chit)) then bad .access
    else if rd s .fabWinUseQuota p ≤ windowsOf s p then bad .noSpace
    else match openWindow (newWindow p kind perms conn chit base len) s with
      | none => bad .noSpace
      | some (h, s) => complete c.id .ok h s

/-- WIN_REVOKE step 1 (R341, R342): the window is marked, and the command waits. -/
def opWinRevoke (c : Cmd) (s : State) : State :=
  let e := c.entry
  let h := fieldOf e 0x10 4
  match ringPitch s c.ring, windowAt s (bits h 0 18) with
  | some p, some w =>
    if !(zeroAt e 0x14 44) ∨ bit h 31 ∨ w.gen ≠ bits h 18 13 ∨ w.pitch ≠ p then complete c.id .badParam 0 s
    else
      let mark := fun (x : Window) => { x with revoking := true, waiters := x.waiters ++ [c.id] }
      startedCmd c.id { s with windows := upd (fun x => x.index == w.index) mark s.windows }
  | _, _ => complete c.id .badParam 0 s

/-- WIN_REVOKE_DONE (R342 step 5). -/
def winRevokeDone (index : Nat) (s : State) : State :=
  match windowAt s index with
  | none => s
  | some w =>
    if w.revoking = false then s else
    let s := bump .fabWinUseRevokes w.pitch w.waiters.length (closeWindow index s)
    each w.waiters (fun id s => complete id .ok 0 s) s

/- Leases: the lender (R265 to R267). -/

/-- A lease. -/
def leaseOf (s : State) (id : Nat) : Option Lease := s.leases.find? (fun l => l.id == id)

/-- GiB that a pitch has lent. -/
def lentCount (s : State) (p : Nat) : Nat := countBy (fun l => l.lent && l.pitch == p) s.leases

/-- Two devices may lend to each other: same market, associated (R265). -/
def sameMarket (s : State) (q : Nat) : Bool :=
  (match peerPlan s q with
  | some r => r.kind == .ly9 && r.market == s.plan.market
  | none => false) && assocUp s q

/-- Zero a granule of a pitch's DRAM space (R267 step 7). -/
def zeroGranule (p g : Nat) (s : State) : State := { s with dram := Memory.zero s.dram (dramKey p (g * gib)) gib }

/-- A lent lease ends: its window goes, its granule is zeroed and returns to its pitch. -/
def endLent (id : Nat) (s : State) : State :=
  match leaseOf s id with
  | none => s
  | some l =>
    if l.lent then
      zeroGranule l.pitch l.granule (closeWindow (bits l.window 0 18) { s with leases := drop (fun x => x.id == id) s.leases })
    else s

/-- A granule of a pitch may be lent: it is not lent yet, and no DRAM window of the pitch maps a byte of it.
(DEDUCED: log entry 65.) -/
def mayLend (s : State) (p g : Nat) : Bool :=
  !((lentGranules s p).contains g) && !(s.windows.any (fun w => w.pitch == p && w.kind == 0
    && decide (w.base < (g + 1) * gib) && decide (g * gib < w.base + w.length)))

/-- LEASE_ASK (R266, R267 step 2): a grant of the last granule that may be lent, or a refusal. (DEDUCED: log entry 65.) -/
def leaseAsk (q p : Nat) (s : State) : State :=
  let lent := lentCount s p
  let free := ((List.range (pitchPlan s p).granules.length).filter (mayLend s p)).getLast?
  let ok := sameMarket s q && !(stageOn s 1) && rd s .secPitchStateState p == 2
    && decide (lent < rd s .pitchTierCfgLendGib p)
    && decide (dramUsed s p + gib * (lent + 2) < gib * rd s .pitchTierCapCrateGib p)
  match ok, free with
  | true, some g =>
    let conn := ((connsOfPeer s q).find? (fun c => connOfPitch s c p)).getD 0xFFFF
    (match openWindow (newWindow p 0 3 conn noChit (g * gib) gib) s with
    | none => tell q .leaseRefuse s
    | some (h, s) =>
      let l : Lease :=
        { id := s.order, lent := true, peer := q, pitch := p, window := h, granule := g, st := .live, deadline := 0 }
      tell q (.leaseGrant h) { ordered s with leases := s.leases ++ [l] })
  | _, _ => tell q .leaseRefuse s

/-- The lender recalls its most recently granted lease of a pitch (R266, R267 step 4). -/
def recallNewest (p : Nat) (s : State) : State :=
  match (s.leases.filter (fun l => l.lent && l.pitch == p && l.st == .live)).getLast? with
  | none => s
  | some l =>
    let d := s.localTime + 50000000
    tell l.peer (.leaseRecall l.window d)
      { s with leases := upd (fun x => x.id == l.id) (fun x => { x with st := .recalled, deadline := d }) s.leases }

/-- The lender recalls as a pitch's use rises (R266): one lease at a time. -/
def recallOnUse (s : State) : State :=
  each (distinct ((s.leases.filter (fun l => l.lent)).map (fun l => l.pitch))) (fun p s =>
    if s.leases.any (fun l => l.lent && l.pitch == p && l.st == .recalled) then s
    else if gib * rd s .pitchTierCapCrateGib p < dramUsed s p + gib * (lentCount s p + 1) then recallNewest p s
    else s) s

/-- Every lender pitch recalls at stage B (R266, R273). -/
def recallOnStage (s : State) : State :=
  each (distinct ((s.leases.filter (fun l => l.lent)).map (fun l => l.pitch))) recallNewest s

/-- The lender takes RECALL_DROP: discard, zero, confirm (R485). -/
def recallDrop (id : Nat) (s : State) : State :=
  match leaseOf s id with
  | none => s
  | some l => if l.lent then tell l.peer (.recallDropDone l.window) (endLent id s) else s

/-- LEASE_BORROWER_ORPHAN (R273). -/
def borrowerOrphan (q : Nat) (s : State) : State :=
  if (peerOf s q).reachable then s else
  let s := reach ((peerOf s q).unreachableSince + 1000000000 * rd s .hallStockCfgOrphan 0) s
  each ((s.leases.filter (fun l => l.lent && l.peer == q)).map (fun l => l.id)) endLent s

/- Leases: the borrower. -/

/-- The crates with a copy in a lease. -/
def inLease (s : State) (l : Nat) : List Crate := s.crates.filter (fun c => match c.lease with
  | some (_, k) => k == l
  | none => false)

/-- LEASE_GRANT (R267): the pitch holds the lease and may place copies. -/
def leaseGranted (q p window : Nat) (s : State) : State :=
  let mine := fun (l : Lease) => !l.lent && l.peer == q && l.pitch == p && l.st == .asked
  { s with leases := upd mine (fun l => { l with st := .live, window := window }) s.leases }

/-- LEASE_REFUSE (R267). -/
def leaseRefused (q p : Nat) (s : State) : State :=
  { s with leases := drop (fun l => !l.lent && l.peer == q && l.pitch == p && l.st == .asked) s.leases }

/-- A lease is needed for a newer crate (R252): eviction runs, and a crate that would go to a lease finds none with room. -/
def leaseWanted (s : State) (p : Nat) : Bool :=
  s.crates.any (fun c => c.pitch == p && inDram c && !c.pinned && !held c && c.copying == .none && !(lowerCopy c)
    && s.evicting.any (fun x => x.1 == p && x.2.1 == c.stack)
    && activeCrate s c.id && dirtyRoom s c && (leaseWithRoom s c).isNone)

/-- The borrower asks for a lease (R252, R267 step 1), at the lowest-numbered lender of its market: one is needed, and the
pitch holds fewer than BORROW_MAX. Not under stage A (R273). -/
def askLease (p : Nat) (s : State) : State :=
  let mine := s.leases.filter (fun l => !l.lent && l.pitch == p)
  let lender := (List.range s.plan.peers.length).find? (fun q => match s.plan.peers[q]? with
    | some r => r.lends && sameMarket s q && (peerOf s q).reachable && (serviceConn s q).isSome
    | none => false)
  if stageOn s 1 ∨ rd s .pitchTierCfgBorrowMax p ≤ mine.length ∨ mine.any (fun l => l.st != .live) ∨ leaseWanted s p = false then s
  else match lender with
    | none => s
    | some q =>
      let l : Lease :=
        { id := s.order, lent := false, peer := q, pitch := p, window := 0, granule := 0, st := .asked, deadline := 0 }
      tell q (.leaseAsk p) { ordered s with leases := s.leases ++ [l] }

/-- A lease copy goes before another in tier-2 eviction (R252): the weight is 4 where another copy exists below it. -/
def leaseBefore (s : State) (a b : Crate) : Bool :=
  let score := fun (c : Crate) => min ((s.localTime - c.lastUse) / 1000) (2 ^ 32) * (if dirtyLease c then 1 else 4)
  let addr : Crate → Nat := fun c => match c.lease with
    | some l => l.1.location.toNat
    | none => 0
  decide (score b < score a) || (score a == score b && decide (addr a ≤ addr b))

/-- Tier-2 eviction (R252, R237): the pitch holds BORROW_MAX leases and one is needed, so one copy moves on. Where no copy is a
candidate, eviction waits (R253). -/
def evictLease (p : Nat) (s : State) : State :=
  let mine := s.leases.filter (fun l => !l.lent && l.pitch == p)
  let all := s.crates.filter (fun c => c.pitch == p && c.lease.isSome && !c.pinned && !held c && c.copying == .none && c.fetch.isNone
    && (!(dirtyLease c) || flashRoom s c))
  let open_ := all.filter (fun c => !(protected_ s c))
  if mine.length < rd s .pitchTierCfgBorrowMax p ∨ leaseWanted s p = false ∨ stageOn s 2
      ∨ s.crates.any (fun c => c.pitch == p && c.lease.isSome && c.copying == .toFlash) then tierWait 2 p false s
  else match firstBy (leaseBefore s) (if open_.isEmpty then all else open_) with
    | none => tierWait 2 p true s
    | some c =>
      let s := tierWait 2 p false s
      if dirtyLease c then onCrate c.id (fun c => { c with copying := .toFlash }) s
      else onCrate c.id Crate.noLease s

/-- A lease is given back (R267 step 5): dirty copies go to flash, or to tier 1 where stage B holds flash writes and the
crate area has room (R273); the others are dropped, and so are those already fetched. A copy that is being fetched waits for its
fetch, a copy on its way to flash for its write, unless stage B holds that. -/
def returnCopies (l : Nat) (s : State) : State :=
  each (inLease s l) (fun c s =>
    let fetching : Bool := match c.fetch with
      | some f => f.started && f.tier == 2
      | none => false
    if fetching ∨ (c.copying ≠ .none ∧ stageOn s 2 = false) then s
    else if inDram c then onCrate c.id (fun c => { c.noLease with copying := .none }) s
    else if !(dirtyLease c) then retarget c.id (onCrate c.id (fun c => { c.noLease with copying := .none }) s)
    else if stageOn s 2 then
      (if charge c ≤ areaFree s c.pitch c.stack then
         let h := newHandle s c 1
         onCrate c.id (fun c => { c.noLease with copying := .none, dram := some h, dir := c.packDir, base := none }) (freshen s)
       else s)
    else onCrate c.id (fun c => { c with copying := .toFlash }) s) s

/-- Returns that go on: copies that can leave do, and an empty lease is released (R267 step 6). -/
def leaseReturns (s : State) : State :=
  let ls := s.leases.filter (fun l => !l.lent && (l.st == .recalled || l.st == .returning))
  each ls (fun l s =>
    let s := returnCopies l.id s
    let lender := ((peerPlan s l.peer).map (fun r => r.deviceId)).getD 0
    let read := s.crates.any (fun c => c.pitch == l.pitch && decide (0 < c.readers)
      && c.leaving.any (fun x => x.handle.tier == 2 && x.handle.device == lender))
    if (inLease s l.id).isEmpty && !read then
      tell l.peer (.leaseRelease l.window) { s with leases := drop (fun x => x.id == l.id) s.leases }
    else s) s

/-- The borrower takes RECALL (R267 step 4, R575). -/
def leaseRecalled (q window : Nat) (s : State) : State :=
  match s.leases.find? (fun l => !l.lent && l.peer == q && l.window == window && l.st == .live) with
  | none => s
  | some l =>
    let d := s.localTime + 50000000
    let s := bump .hallLeaseRecalls 0 1
      { s with leases := upd (fun x => x.id == l.id) (fun x => { x with st := .recalled, deadline := d }) s.leases }
    let dev := ((peerPlan s q).map (fun r => r.deviceId)).getD 0
    postTo [0, l.pitch + 1] 0x0010 srcPedlar (leBytes 1 l.pitch ++ leBytes 1 0 ++ leBytes 2 dev ++ leBytes 4 (d / 1000)) s

/-- LEASE_RETURN (R269): a return without a RECALL. -/
def leaseReturned (id : Nat) (s : State) : State :=
  { s with leases := upd (fun l => l.id == id && !l.lent && l.st == .live) (fun l => { l with st := .returning }) s.leases }

/-- A borrowed lease is gone with what it held (R273): dirty copies are lost, others dropped, and R271 applies. -/
def loseLease (id : Nat) (s : State) : State :=
  let gone := (inLease s id).map (fun c => c.id)
  let s := { s with leases := drop (fun l => l.id == id) s.leases }
  each gone (fun k s =>
    retarget k (onCrate k (fun c => { c with
      lease := none, copying := .none }) s)) (if gone.isEmpty then s else report srcPedlar .leaseLost sevContained none s)

/-- LEASE_RECALL_DEADLINE (R273): the lender discards the granule; at the borrower what has not moved is lost. -/
def leaseDeadline (id : Nat) (s : State) : State :=
  match leaseOf s id with
  | none => s
  | some l =>
    if l.st ≠ .recalled then s else
    let s := bump .hallLeaseDeadlineMissed 0 1 (reach l.deadline s)
    if l.lent then endLent id s else loseLease id s

/-- The leases of an unreachable lender end at once (R273). -/
def lenderLost (q : Nat) (s : State) : State :=
  each ((s.leases.filter (fun l => !l.lent && l.peer == q)).map (fun l => l.id)) loseLease s

/-- What the pedlar does between events. -/
def pedlar (s : State) : State :=
  let ps := distinct (s.crates.map (fun c => c.pitch))
  each ps (fun p s => shrinkLeases p s.crates.length (evictLease p (askLease p s))) (recallOnUse (leaseReturns s))

end Sys2Proof.Machine
end

