-- ==== Sys2Proof/Machine/Seq.lean ====
section
/-! DEFINITION. Sequences: the barrow, sealing, and SEQ_OPEN, SEQ_FORK, SEQ_PARK, SEQ_CLOSE, ACCEPT and HINT_STEP
(R36 to R88, R238, R239). -/
namespace Sys2Proof.Machine

/- Stripes (R45, R124). -/

/-- Members of a sequence's stripe; 1 when unstriped. -/
def memberCount (q : Seq) : Nat := if q.striped then q.members.length else 1

/-- The member that owns a page (R45). -/
def pageOwner (q : Seq) (p : Nat) : Nat := if q.striped then (p / 16) % max 1 (memberCount q) else 0

/-- The place of an own page in the member's page table (R45). -/
def localPage (q : Seq) (p : Nat) : Nat :=
  if q.striped then 16 * (p / (16 * max 1 (memberCount q))) + p % 16 else p

/-- The page of the sequence at a place of the member's page table. -/
def globalPage (q : Seq) (l : Nat) : Nat :=
  if q.striped then (l / 16) * 16 * memberCount q + 16 * q.ownIndex + l % 16 else l

/-- Positions below n that this member owns. -/
def ownCount (q : Seq) (n : Nat) : Nat :=
  if q.striped then
    let m := max 1 (memberCount q)
    n / (4096 * m) * 4096 + min 4096 (n % (4096 * m) - 4096 * q.ownIndex)
  else n

/-- This device owns a position. -/
def ownsPos (q : Seq) (n : Nat) : Bool := !q.striped || pageOwner q (n / 256) == q.ownIndex

/- Layers and the barrow (R39, R63). -/

/-- A barrow slot that is not allocated. -/
def BSlot.empty : BSlot := { alloc := false, toks := [], readers := 0, stale := false }

/-- A layer with nothing in it. -/
def Layer.fresh : Layer :=
  { pages := [], slot0 := BSlot.empty, slot1 := BSlot.empty, len := 0, sealed := 0, cur := 0, tent := 0, sealing := false }

/-- A barrow slot of a layer. -/
def slotOf (l : Layer) (i : Nat) : BSlot := if i = 0 then l.slot0 else l.slot1

/-- Store a barrow slot of a layer. -/
def putSlot (i : Nat) (b : BSlot) (l : Layer) : Layer := if i = 0 then { l with slot0 := b } else { l with slot1 := b }

/-- The slot that holds the page after the one in CUR_SLOT. -/
def otherSlot (l : Layer) : Nat := 1 - l.cur

/-- The ledger's LENGTH, SEALED_PAGES and TENTATIVE: minima over the layers (R39). -/
def seqLength (q : Seq) : Nat := match q.layers.map (fun l => l.len) with
  | [] => 0
  | x :: t => t.foldl min x
def seqSealed (q : Seq) : Nat := match q.layers.map (fun l => l.sealed) with
  | [] => 0
  | x :: t => t.foldl min x
def seqTent (q : Seq) : Nat := match q.layers.map (fun l => l.tent) with
  | [] => 0
  | x :: t => t.foldl min x

/-- Committed tokens of a layer that this member holds. -/
def ownLen (q : Seq) (l : Layer) : Nat := ownCount q l.len

/-- The tokens of a layer in its barrow, from the first position of page LAYER_SEALED. -/
def barrowToks (l : Layer) : List Token := (slotOf l l.cur).toks ++ (slotOf l (otherSlot l)).toks

/-- The page in CUR_SLOT is full of committed tokens. -/
def curFull (q : Seq) (l : Layer) : Bool := decide (256 * (l.sealed + 1) ≤ ownLen q l)

/-- Give the barrow its tokens: the first 256 lie in CUR_SLOT, the rest in the other slot, which is freed when it holds
nothing, has no reader and the page in CUR_SLOT is not full (R63). -/
def putBarrow (q : Seq) (toks : List Token) (l : Layer) : Layer :=
  let a := slotOf l l.cur
  let b := slotOf l (otherSlot l)
  let l := putSlot l.cur { a with toks := toks.take 256, alloc := a.alloc || !toks.isEmpty } l
  let rest := toks.drop 256
  let keep := !rest.isEmpty || decide (0 < b.readers) || (curFull q l && b.alloc)
  putSlot (otherSlot l) { b with toks := rest, alloc := if rest.isEmpty then b.alloc && keep else true } l

/-- The slots that n more own tokens would need and that are not allocated. -/
def slotsNeeded (l : Layer) (n : Nat) : Nat :=
  if n = 0 then 0 else
  let have_ := (barrowToks l).length
  b2n (!(slotOf l l.cur).alloc && decide (have_ < 256)) + b2n (decide (256 < have_ + n) && !(slotOf l (otherSlot l)).alloc)

/-- An append of n own tokens has to wait (R65): a position falls in a slot that still holds an earlier page, by its
tokens or by its readers. -/
def appendWaits (l : Layer) (n : Nat) : Bool :=
  let have_ := (barrowToks l).length
  decide (0 < n) && (decide (512 < have_ + n) || (decide (256 < have_ + n) && (slotOf l (otherSlot l)).stale)
    || (decide (have_ < 256) && (slotOf l l.cur).stale))

/-- Release slots whose last reader has gone (R63, R71 step 8). -/
def releaseSlots (q : Seq) (l : Layer) : Layer :=
  let tidy := fun (i : Nat) (l : Layer) =>
    let b := slotOf l i
    if b.readers = 0 ∧ b.stale then putSlot i { b with stale := false, alloc := b.alloc && !(b.toks.isEmpty) } l else l
  putBarrow q (barrowToks l) (tidy 0 (tidy 1 l))

/- Sealing (R70, R71). -/

/-- A page of a layer starts sealing. -/
def startSeal (uid j lp : Nat) (toks : List Token) (fromSlot : Bool) (s : State) : State :=
  let x : Seal := { id := s.order, seq := uid, layer := j, page := lp, toks := toks, fromSlot := fromSlot, crate := none }
  onLayer uid j (fun l => { l with sealing := true }) { ordered s with seals := s.seals ++ [x] }

/-- The local pages that are full of committed tokens and not sealing yet, with their tokens (R70). -/
def fullPages (s : State) (q : Seq) (j : Nat) (l : Layer) : List (Nat × List Token) :=
  let toks := barrowToks l
  ([0, 1].filter (fun i => decide (256 * (l.sealed + i + 1) ≤ ownLen q l)
      && !(s.seals.any (fun x => x.seq == q.uid && x.layer == j && x.page == l.sealed + i)))).map
    (fun i => (l.sealed + i, (toks.drop (256 * i)).take 256))

/-- Seals are abandoned (R74): the SEALING flags of their layers follow. -/
def abandonSeals (gone : Seal → Bool) (s : State) : State :=
  let mine := s.seals.filter gone
  let s := { s with seals := drop gone s.seals }
  each mine (fun x s => onLayer x.seq x.layer (fun l => { l with
    sealing := s.seals.any (fun y => y.seq == x.seq && y.layer == x.layer) }) s) s

/-- Start the seals of a layer's full pages. -/
def startSeals (uid j : Nat) (s : State) : State :=
  match seqOf s uid with
  | none => s
  | some q => match layerOf q j with
    | none => s
    | some l => each (fullPages s q j l) (fun x s => startSeal uid j x.1 x.2 true s) s

/-- Append tokens to a layer (R64 to R66, R93): `own` are those that this member holds, `n` all of them. -/
def appendTokens (uid j n : Nat) (own : List Token) (tentative : Bool) (s : State) : State :=
  match seqOf s uid with
  | none => s
  | some q =>
    let s := onLayer uid j (fun l =>
      let l := if tentative then { l with tent := l.tent + n } else { l with len := l.len + n }
      putBarrow q (barrowToks l ++ own) l) s
    startSeals uid j s

/-- A crate as a seal writes it. -/
def newCrate (q : Seq) (id layer page stack now : Nat) (body : List Block) (dir : List BlockDir) : Crate :=
  { id := id, pitch := q.pitch, layer := layer, page := page, shape := q.shape, body := body,
    digest := if body.isEmpty then [] else crateDigest q.shape body, dir := dir, packDir := dir, base := none,
    readers := 0, pinned := false, lastUse := now, hall := none, region := 0, dram := none, stack := stack, lease := none,
    flash := none, origin := none, leaving := [], bad := [], fetch := none, reserve := false, hinted := false, lateSeen := false,
    arrived := 0, useTime := 0, copying := .none, flashWanted := 0, promoting := false, recoding := none, rebasing := false }

/-- Steps 2 to 5 of a seal (R71): quantise, choose tables, code, place on the page's stack. Nothing happens while no
slot is free for the crate (R74). -/
def sealPage (x : Seal) (q : Seq) (toks : List Token) (s : State) : State :=
  let page := globalPage q x.page
  let stack := stackOf s q.pitch page
  let body := quantPage q.shape toks
  let c0 := newCrate q s.order x.layer page stack s.localTime body []
  if areaFree s q.pitch stack < charge c0 then s else
  let r := codeBody q.pitch q.shape body s
  let s := countBlocks q.pitch r.1 r.2
  let h := newHandle s c0 1
  let c := { c0 with dir := r.1, packDir := r.1, dram := some h }
  let s := bump .hallSealStatSeals 0 1 (if r.1.all (fun d => d.mode == 0) then bump .hallSealStatSealsRaw 0 1 s else s)
  ordered (freshen { s with
    crates := s.crates ++ [c],
    seals := upd (fun y => y.id == x.id) (fun y => { y with crate := some c.id, toks := [] }) s.seals })

/-- Step 6 of a seal (R71): the swap, in page order. -/
def sealSwap (id : Nat) (s : State) : State :=
  match s.seals.find? (fun x => x.id == id) with
  | none => s
  | some x => match x.crate, seqOf s x.seq with
    | some k, some q => match layerOf q x.layer with
      | none => s
      | some l =>
        if l.sealed ≠ x.page then s else
        let pages := if x.page < l.pages.length then setAt l.pages x.page (fun _ => some k)
          else l.pages ++ List.replicate (x.page - l.pages.length) none ++ [some k]
        let more := s.seals.any (fun y => y.id != id && y.seq == x.seq && y.layer == x.layer)
        let l := { l with pages := pages, sealing := more }
        let l := if x.fromSlot then
            let b := slotOf l l.cur
            let l := putSlot l.cur { b with toks := [], stale := decide (0 < b.readers), alloc := decide (0 < b.readers) } l
            { l with sealed := l.sealed + 1, cur := 1 - l.cur }
          else { l with sealed := l.sealed + 1 }
        let s := { s with seals := drop (fun y => y.id == id) s.seals }
        let s := onSeq x.seq (fun q => { q with
          layers := setAt q.layers x.layer (fun _ => l),
          import_ := if x.fromSlot then q.import_ else q.import_.map (fun i => { i with pagesLeft := i.pagesLeft - 1 }) }) s
        if rd s .pitchTierCfgPolicy q.pitch = 0 then wantFlash 1 k s else s
    | _, _ => s

/- Shared answers of these commands. -/

/-- A word the completion leaves open: the result word of a SEQ_OPEN or SEQ_FORK that fails. (DESIGN CHOICE: log entry 61.) -/
def failWord (id : Nat) (st : Status) (s : State) : State := complete id st (freeBits s 64) (freshen s)

/-- BUSY_POWER, counted (R538, R558). -/
def busyPower (id : Nat) (s : State) : State := bumpK .pwrStageBusyPower 0 1 (failWord id .busyPower s)

/-- A pending answer of a stripe member. -/
def pendingCode : Nat := 0xFF

/-- The status that a striped command completes with (R76): the first that is not OK, in member order. -/
def stripeStatus (l : List (Nat × Nat)) : Status :=
  match (sortBy (fun (x : Nat × Nat) => x.1) l).find? (fun x => x.2 != 0) with
  | some x => (Status.ofCode x.2).getD .peerLost
  | none => .ok

/-- A sequence is FREE again: its entry, layers and barrow go; what it referenced loses a reference (R41, R85). -/
def freeSeq (uid : Nat) (s : State) : State :=
  sweepAll { s with seqs := drop (fun q => q.uid == uid) s.seqs, seals := drop (fun x => x.seq == uid) s.seals }

/-- A closing sequence gives up what it references and keeps its entry until its SEQ_CLOSE completes (R37, R85). -/
def emptySeq (uid : Nat) (s : State) : State :=
  sweepAll (onSeq uid (fun q => { q with layers := [], keys := [], baseKeys := [], recodes := [] }) s)

/-- The result word of a failing command on a sequence is 0 (R437); one that names a word it then has not leaves it open.
(DESIGN CHOICE: log entry 61.) -/
def seqFails (id : Nat) (st : Status) (s : State) : State :=
  if (cmdOf s id).any (fun c => c.op == .seqPark || c.op == .seqClose) then complete id st 0 s else failWord id st s

/-- A command on a sequence ends. A SEQ_OPEN or SEQ_FORK makes its sequence ACTIVE only with OK, and frees it otherwise; the
sequence of a SEQ_CLOSE is FREE with its completion (R37, R41). -/
def seqEnd (id : Nat) (st : Status) (result : Nat) (s : State) : State :=
  let made := s.seqs.find? (fun q => q.st == .open_ && (q.fork == some id || q.closer == some id))
  let closed := s.seqs.find? (fun q => q.st == .closing && q.closer == some id)
  let s := match made, closed with
    | some q, _ => if st = .ok then onSeq q.uid (fun q => { q with st := .active, fork := none, closer := none, import_ := none }) s
        else freeSeq q.uid s
    | none, some q => freeSeq q.uid s
    | none, none => s
  if st = .ok then complete id st result s else seqFails id st s

/-- A command whose stripe has answered, every member and this device, ends with the first status that is not OK (R76), once
its executor is there (R18). -/
def membersEnd (id : Nat) (s : State) : State :=
  match cmdOf s id with
  | none => s
  | some c =>
    if c.members.isEmpty ∨ c.members.any (fun x => x.2 == pendingCode) ∨ executorReady s c.op = false then s
    else seqEnd id (stripeStatus c.members) ((c.outcome.map (fun o => o.2)).getD 0) (onCmd id (fun c => { c with outcome := none }) s)

/-- A member answers, or this device itself as member 0 (R76). -/
def memberAnswer (id member code result : Nat) (s : State) : State :=
  match cmdOf s id with
  | none => s
  | some c =>
    let ms := c.members.map (fun x => if x.1 = member ∧ x.2 = pendingCode then (x.1, code) else x)
    let word := if member = 0 then result else (c.outcome.map (fun o => o.2)).getD 0
    membersEnd id (onCmd id (fun c => { c with members := ms, outcome := some (.ok, word) }) s)

/-- Commands whose stripe has answered end. -/
def membersGoOn (s : State) : State :=
  each ((s.cmds.filter (fun c => !(c.members.isEmpty) && c.op != .attend)).map (fun c => c.id)) membersEnd s

/-- The own part of a command on a sequence has ended. -/
def seqDone (id : Nat) (st : Status) (result : Nat) (s : State) : State :=
  match cmdOf s id with
  | none => s
  | some c => if c.members.isEmpty then seqEnd id st result s else memberAnswer id 0 st.code result s

/-- The peers of a stripe's other members, by member index; an unknown device gives none. -/
def memberPeers (s : State) (devices : List Nat) : List (Nat × Option Nat) :=
  ((devices.zipIdx).filter (fun x => x.2 != 0)).map (fun x => (x.2, peerOfDevice s x.1))

/-- The entry of a command as the lead sends it to a member: that of a SEQ_OPEN carries the member's own index in its
STRIPE_INDEX byte. (DESIGN CHOICE: log entry 88.) -/
def memberEntry (c : Cmd) (m : Nat) : Entry :=
  if c.op = .seqOpen then BitVec.ofNat 512 (c.entry.toNat + (m % 256 - fieldOf c.entry 0x26 1) * 2 ^ 304) else c.entry

/-- The lead forwards a command to the other members (R76): one that is unreachable answers PEER_LOST (R359).
(DEDUCED: log entry 32.) -/
def forwardCmd (c : Cmd) (devices : List Nat) (s : State) : State :=
  let ps := memberPeers s devices
  let s := onCmd c.id (fun x => { x with
    peers := ps.filterMap (fun m => m.2.map (fun q => (m.1, q))),
    members := (0, pendingCode) :: ps.map (fun m => (m.1, match m.2 with
    | some q => if (peerOf s q).reachable then pendingCode else Status.peerLost.code
    | none => Status.peerLost.code)) }) s
  each ps (fun m s => match m.2 with
    | some q => if (peerOf s q).reachable then tell q (.forwardCmd c.op (memberEntry c m.1)) s else s
    | none => s) s

/-- The sequence is striped and this device leads it: the command came on a ring of its own. -/
def leads (c : Cmd) (q : Seq) : Bool := q.striped && decide (c.ring < 1024)

/-- A command on a sequence that is in use fails at this device: a stripe's lead forwards it like any other, and its own
answer stands first in member order (R76). (DEDUCED: log entry 32.) -/
def failSeq (c : Cmd) (q : Seq) (st : Status) (s : State) : State :=
  if leads c q then seqDone c.id st 0 (forwardCmd c q.members s) else seqFails c.id st s

/-- A stripe's lead lacks a connection of the pitch to some member (R333). -/
def unlinked (s : State) (c : Cmd) (q : Seq) : Bool :=
  leads c q && (memberPeers s q.members).any (fun x => match x.2 with
    | some r => (connBetween s q.pitch r).isNone
    | none => true)

/- SEQ_OPEN (R77, R78). -/

/-- Fields of a SEQ_OPEN that name a shape. -/
def shapeOf (e : Entry) : Shape :=
  { layers := fieldOf e 0x22 1, format := fieldOf e 0x17 1, latent := bit (fieldOf e 0x16 1) 4, kvHeads := fieldOf e 0x23 1,
    headDim32 := fieldOf e 0x24 1 }

/-- A shape is one that a sequence may have (R47, R55, R56, R77). -/
def shapeOk (h : Shape) : Bool :=
  (1 ≤ h.format && h.format ≤ 5) && (1 ≤ h.layers && h.layers ≤ 128)
    && (if h.latent then h.kvHeads == 1 && h.headDim32 == 0 && h.format != 5
        else (1 ≤ h.kvHeads && h.kvHeads ≤ 16) && (1 ≤ h.headDim32 && h.headDim32 ≤ 8))

/-- The VALID client row of a CLIENT_ID in a pitch: its class (R137, R138). -/
def clientClass (s : State) (p client : Nat) : Option Nat :=
  (List.range 15).find? (fun c => on s .pitchClientValid (16 * p + c) && rd s .pitchClientClientId (16 * p + c) == client)

/-- A ledger slot is in use. -/
def ledgerUsed (s : State) (p : Nat) : List Nat := (s.seqs.filter (fun q => q.pitch == p)).map (fun q => q.slot)

/-- Ledger slots that commands hold for sequences they have not created yet (R65, R86). -/
def ledgerHeld (s : State) (p : Nat) : Nat := countBy (fun c => cmdPitch s c == some p && (c.room.bind id).isSome) s.cmds

/-- The lowest-numbered free ledger slot of a pitch below its quota (R36), beside those that commands hold. -/
def ledgerSlot (s : State) (p : Nat) : Option Nat :=
  if rd s .pitchLedgerQuota p ≤ (ledgerUsed s p).length + ledgerHeld s p then none else
  (List.range (min (rd s .pitchLedgerQuota p) ((ledgerUsed s p).length + 1))).find? (fun i => !((ledgerUsed s p).contains i))

/-- A new sequence in state OPEN. -/
def newSeq (uid p slot id cls client fp adapter : Nat) (h : Shape) (members : List Nat) (own : Nat) (striped : Bool) : Seq :=
  { uid := uid, pitch := p, slot := slot, id := id, st := .open_, cls := cls, client := client, modelFp := fp,
    adapter := adapter, shape := h, striped := striped, members := members, ownIndex := own,
    layers := List.replicate h.layers Layer.fresh, lastAttend := 0, nextHint := 0, hint := none, sharedPages := 0, keys := [],
    baseKeys := [], recodes := [], import_ := none, fork := none, forkLen := 0, forkFrom := none, closer := none, closedFrom := .active, lastStalls := [],
    planned := false }

/-- Working-pool bytes that a sequence of n tokens of a shape needs at its start: directories, segments, and a slot for
the tokens after the last full page (R65). -/
def startPool (h : Shape) (own : Nat) : Nat :=
  h.layers * (256 + 4096 * ceilDiv (own / 256) 512 + (if own % 256 = 0 then 0 else barrowSizeOf h))

/-- Bytes of one layer's import data. -/
def importStride (h : Shape) (tokens : Nat) : Nat := tokens * tokBytes h

/-- Read the same operand for every layer: the bytes from `off j` of `len` bytes. -/
def readLayers (s : State) (c : Cmd) (win len : Nat) (off : Nat → Nat) (n : Nat) : Got (List Bytes) :=
  (List.range n).foldl (fun acc j => acc.bind (fun l => (readOperand s c win (off j) len).bind (fun b => .val (l ++ [b])))) (.val [])

/-- What happens next with an operand that is not at hand: the command ends, or waits and runs again. A remote one is
asked for (R346); the window its data lands in is the device's own. -/
def gotElse (c : Cmd) (fail : Status → State → State) : Got State → State → State
  | .val t, _ => t
  | .bad st, s => fail st s
  | .wait w, s => onCmd c.id (fun x => { x with wait := w }) s
  | .held p off len, s => onCmd c.id (fun x => { x with wait := .snoop }) (snoop p off len s)
  | .remote w off len, s =>
    match ringConn s c.ring with
    | none => fail .access s
    | some conn =>
      let r := askRead conn (w % 2147483648) off len (.operand c.id w off) (freeBits s 32, freeBits (freshen s) 48)
        (freshen (freshen s))
      onCmd c.id (fun x => { x with wait := .reading r.1 }) r.2

/-- The test of R65 at the acceptance of a SEQ_OPEN, once: a free ledger slot and, for an import, what the working pool must
supply; what it finds free is held for the command. (DEDUCED: log entry 64.) -/
def holdRoom (c : Cmd) (p bytes : Nat) (s : State) : State :=
  if c.room.isSome then s
  else if (ledgerSlot s p).isSome ∧ poolRoomFor s p bytes then onCmd c.id (fun c => { c with room := some (some bytes) }) s
  else onCmd c.id (fun c => { c with room := some none }) s

/-- What the test of R65 held for a command is its sequence's now. -/
def useRoom (id : Nat) (s : State) : State := onCmd id (fun c => { c with room := none }) s

/-- The space that a command holds, if the test of R65 found it. -/
def hasRoom (s : State) (id : Nat) : Bool := ((cmdOf s id).bind (fun c => c.room.bind (fun r => r))).isSome

/-- SEQ_OPEN creates the sequence: seals for every full own page of an import, the remainder in CUR_SLOT (R78). -/
def createSeq (c : Cmd) (p slot tokens : Nat) (h : Shape) (members : List Nat) (own : Nat) (striped : Bool)
    (tails : List Bytes) (s : State) : State :=
  let e := c.entry
  let uid := s.order
  let q := newSeq uid p slot (fieldOf e 0x10 4) (bits (fieldOf e 0x16 1) 0 4) (fieldOf e 0x14 2) (fieldOf e 0x18 8)
    (fieldOf e 0x20 2) h members own striped
  let mine := ownCount q tokens
  let full := mine / 256
  let tail := if ownsPos q (tokens - 1) ∧ 0 < tokens then tokens % 256 else 0
  let layers := (List.range h.layers).map (fun j =>
    putBarrow q (tokensOf h tail ((tails[j]?).getD [])) { Layer.fresh with len := tokens, pages := List.replicate full none })
  let left := full * h.layers
  let q := { q with layers := layers, closer := some c.id,
                    import_ := if tokens = 0 then none else some { cmd := c.id, tokens := tokens, pagesLeft := left } }
  let entry := [(p, 128 * slot), (p, 128 * slot + 64)]
  let s := startedCmd c.id { ordered s with seqs := s.seqs ++ [q], ledgerPoison := drop entry.contains s.ledgerPoison }
  let s := each ((List.range h.layers).flatMap (fun j => (List.range full).map (fun k => (j, k)))) (fun x s =>
    startSeal uid x.1 x.2 [] false s) s
  if left = 0 then seqDone c.id .ok slot s else s

/-- SEQ_OPEN (R77, R78, R86). On a fabric ring a SRC_WIN with bit 31 set is refused where the command reads through it.
(DESIGN CHOICE: log entry 84.) -/
def opSeqOpen (c : Cmd) (s : State) : State :=
  let e := c.entry
  let flags := fieldOf e 0x16 1
  let h := shapeOf e
  let striped := bit flags 5
  let import_ := bit flags 6
  let m := fieldOf e 0x25 1 + 1
  let own := fieldOf e 0x26 1
  let word := fieldOf e 0x2C 4
  let tokens := if import_ then bits word 0 22 else 0
  let win := fieldOf e 0x28 4
  let forwarded := decide (1024 ≤ c.ring)
  match cmdPitch s c with
  | none => failWord c.id .access s
  | some p =>
    if (seqById s p (fieldOf e 0x10 4)).isSome then failWord c.id .exists_ s
    else if bit flags 7 ∨ !(shapeOk h) ∨ (striped = false ∧ m ≠ 1) ∨ 64 < m ∨ (forwarded = false ∧ own ≠ 0) ∨ m ≤ own
        ∨ !(zeroAt e 0x27 1) ∨ bits word 22 10 ≠ 0 ∨ !(zeroAt e 0x36 2) ∨ !(zeroAt e 0x3E 2) ∨ 2097152 < bits word 0 22
        ∨ (clientClass s p (fieldOf e 0x14 2)).isNone then failWord c.id .badParam s
    else
      let probe := newSeq 0 p 0 0 0 0 0 0 h (List.replicate m 0) own striped
      let tail := if ownsPos probe (tokens - 1) ∧ 0 < tokens then tokens % 256 else 0
      let off := fieldOf e 0x30 6
      let stride := importStride h tokens
      let tailAt := fun (j : Nat) => off + j * stride + (tokens - tail) * tokBytes h
      -- The windows are checked whole before anything is read.
      let whole := if import_ ∧ forwarded = false then (match locate s c.ring win off (h.layers * stride) false with
        | .error st => Got.bad st
        | .ok _ => Got.val ()) else Got.val ()
      let table : Got Bytes := if striped ∧ forwarded = false then readOperand s c win (fieldOf e 0x38 6) 128 else Got.val []
      -- A SRC_WIN that is used is a window on this device (R77); one that is not is not looked at.
      let local_ := if bit win 31 ∧ fabricRing s c.ring ∧ (import_ ∨ striped) then Got.bad .access else Got.val ()
      let s := holdRoom c p (if import_ then startPool h (ownCount probe tokens) else 0) s
      let go := local_.bind (fun _ => whole.bind (fun _ => table.bind (fun t =>
        (readLayers s c win (tail * tokBytes h) tailAt (if tail = 0 then 0 else h.layers)).bind (fun tails =>
        let devices := if forwarded then List.replicate m 0 else (List.range m).map (fun i => leAt t (2 * i) 2)
        let linked := forwarded || !striped || ((memberPeers s devices).all (fun x => match x.2 with
          | some q => (connBetween s p q).isSome
          | none => false) && devices.head? == some (deviceId s))
        Got.val (
          if !linked then failWord c.id .badParam s
          else
            let room := hasRoom s c.id
            let s := useRoom c.id (if striped ∧ forwarded = false then forwardCmd c devices s else s)
            match ledgerSlot s p with
            | none => seqDone c.id .noSpace 0 s
            | some slot =>
              if room = false then seqDone c.id .noSpace 0 s
              else if c.stageD then bumpK .pwrStageBusyPower 0 1 (seqDone c.id .busyPower 0 s)
              else createSeq c p slot tokens h devices own striped tails s)))))
      gotElse c (fun st s => failWord c.id st s) go s

/-- A packer takes a page of an import (R78): its data is read, once, and kept with its seal. A refused read ends the import
(R86). Nothing happens for a page that has been read, and while its data is on its way. -/
def takeImportPage (id : Nat) (s : State) : State :=
  match s.seals.find? (fun x => x.id == id) with
  | none => s
  | some x => match seqOf s x.seq, (seqOf s x.seq).bind (fun q => q.import_) with
    | some q, some i => match cmdOf s i.cmd with
      | none => s
      | some c =>
        if x.crate.isSome ∨ !(x.toks.isEmpty) then s else
        let e := c.entry
        let size := 256 * tokBytes q.shape
        let off := fieldOf e 0x30 6 + x.layer * importStride q.shape i.tokens + globalPage q x.page * size
        let keep := fun (bs : Bytes) (s : State) => { s with
          seals := upd (fun y => y.id == id) (fun y => { y with toks := tokensOf q.shape 256 bs }) s.seals }
        match s.reads.find? (fun r => r.want == .importPage id) with
        | some r => if r.done then keep (readBytes r) { s with reads := drop (fun y => y.id == r.id) s.reads } else s
        | none => match readOperand s c (fieldOf e 0x28 4) off size with
          | .val bs => keep bs s
          | .bad st => seqDone c.id st 0 s
          | .held p o n => snoop p o n s
          | .wait _ => s
          | .remote w o n => match ringConn s c.ring with
            | some conn => (askRead conn w o n (.importPage id) (freeBits s 32, freeBits (freshen s) 48) (freshen (freshen s))).2
            | none => s
    | _, _ => s

/-- The pages of an import that packers take before a page, and the page itself, in layer order and page order (R78). -/
def importBefore (s : State) (x : Seal) : List Nat :=
  let key := fun (y : Seal) => y.layer * 16384 + y.page
  (sortBy key (s.seals.filter (fun y => y.seq == x.seq && !y.fromSlot && decide (key y ≤ key x)))).map (fun y => y.id)

/-- Steps 2 to 5 of a seal. The packer reads its page from the barrow, which may be uncorrectable: the seal is abandoned and
the sequence DAMAGED (R74). A page of an import is taken after those before it (R78). -/
def sealCrateWritten (id : Nat) (read : ReadResult) (s : State) : State :=
  match s.seals.find? (fun x => x.id == id) with
  | none => s
  | some x => match seqOf s x.seq with
    | none => s
    | some q =>
      if x.crate.isSome then s
      else if x.fromSlot then
        let r := structFinding read s
        if r.1 then sealPage x q x.toks r.2
        else damage q.uid (abandonSeals (fun y => y.seq == q.uid && y.layer == x.layer && y.fromSlot && y.crate.isNone) r.2)
      else
        let s := each (importBefore s x) takeImportPage s
        match s.seals.find? (fun y => y.id == id) with
        | some y => if y.toks.isEmpty then s else sealPage y q y.toks s
        | none => s

/-- Imports whose pages have all swapped complete (R78). -/
def importsDone (s : State) : State :=
  if coreThere s 1 = false then s else
  each (s.seqs.filter (fun q => match q.import_ with
    | some i => q.st == .open_ && i.pagesLeft == 0
    | none => false)) (fun q s => match q.import_ with
      | some i => seqDone i.cmd .ok q.slot (onSeq q.uid (fun q => { q with import_ := none }) s)
      | none => s) s

/- SEQ_FORK (R79 to R82, R209). -/

/-- The result slot that a hall offset names (R204). -/
def slotAt (s : State) (p off : Nat) : Option Nat :=
  let base := rd s .pitchPrefixBaseResultBase p
  let size := rd s .pitchPrefixCfgResultKib p * 1024
  (List.range (rd s .pitchPrefixCfgResultSlots p)).find? (fun i => base + i * size == off)

/-- The result in a slot of a pitch. -/
def resultIn (s : State) (p slot : Nat) : Option Result := s.results.find? (fun r => r.pitch == p && r.slot == slot)

/-- What a fork takes from the slot at a hall offset (R80, R224): fingerprint, adapter and shape of its result, or, where it
was released, of the header that it still holds. -/
def slotHead (s : State) (off : Nat) (r : Option Result) : Nat × Nat × Shape :=
  match r with
  | some r => (r.modelFp, r.adapter, r.shape)
  | none =>
    let b := Memory.readN s.hall off 0x18
    (leAt b 0x08 8, leAt b 0x10 2,
      { layers := leAt b 0x12 1, format := leAt b 0x13 1, latent := bit (leAt b 0x16 1) 0, kvHeads := leAt b 0x14 1,
        headDim32 := leAt b 0x15 1 })

/-- The crate record of a remote handle in a pitch: made when there is none (R235). -/
def remoteCrate (q : Seq) (layer page : Nat) (h : Handle) (s : State) : Nat × State :=
  match s.crates.find? (fun c => c.pitch == q.pitch && c.origin == some h) with
  | some c => (c.id, s)
  | none =>
    let id := s.order
    let c := { newCrate q id layer page (stackOf s q.pitch page) s.localTime [] [] with
      origin := some h, packDir := (blocksOf q.shape).map (fun _ => BlockDir.raw) }
    (id, ordered { s with crates := s.crates ++ [c] })

/-- The pages of a result for one layer as crates of a pitch (R209). -/
def resultPages (q : Seq) (layer : Nat) (pages : List PageRec) (s : State) : List (Option Nat) × State :=
  (pages.zipIdx).foldl (fun (acc : List (Option Nat) × State) (x : PageRec × Nat) =>
    match x.1.refs[layer]? with
    | some (.here own) => (acc.1 ++ [some own], acc.2)
    | some (.remote h) =>
      let r := remoteCrate q layer x.2 h acc.2
      (acc.1 ++ [some r.1], r.2)
    | none => (acc.1 ++ [none], acc.2)) ([], s)

/-- Own tokens of the parent's page that holds the fork's tail, where they still lie in its barrow. -/
def tailToks (q : Seq) (l : Layer) (n : Nat) : List Token :=
  let tail := n % 256
  let lp := localPage q (n / 256)
  ((barrowToks l).drop (256 * (lp - l.sealed))).take tail

/-- SEQ_FORK (R79 to R82, R86): the checks, and the child in state OPEN. -/
def opSeqFork (c : Cmd) (s : State) : State :=
  let e := c.entry
  let flags := fieldOf e 0x16 1
  let kind := bit flags 4
  let word := fieldOf e 0x1C 4
  let n := bits word 0 22
  match cmdPitch s c with
  | none => failWord c.id .access s
  | some p =>
    let parent := seqById s p (fieldOf e 0x18 4)
    let id := fieldOf e 0x10 4
    let bad := bits flags 5 3 ≠ 0 || !(zeroAt e 0x17 1) || bits word 22 10 ≠ 0 || !(zeroAt e 0x28 24)
      || (clientClass s p (fieldOf e 0x14 2)).isNone
    let make := fun (q : Seq) (slot : Nat) (s : State) =>
      startedCmd c.id { ordered s with seqs := s.seqs ++ [{ q with uid := s.order, slot := slot, fork := some c.id, forkLen := n }] }
    let cls := bits flags 0 4
    let client := fieldOf e 0x14 2
    if kind then
      let slot := slotAt s p (fieldOf e 0x20 8)
      let res := slot.bind (resultIn s p)
      let pages := (res.map (fun r => r.pages.length)).getD 0
      if (seqById s p id).isSome then failWord c.id .exists_ s
      else if bad ∨ slot.isNone ∨ n % 256 ≠ 0 ∨ 256 * pages < n then failWord c.id .badParam s
      else match ledgerSlot s p with
        | none => failWord c.id .noSpace s
        | some k =>
          let hd := slotHead s (fieldOf e 0x20 8) res
          let h := hd.2.2
          if !(poolRoomFor s p (startPool h n)) then failWord c.id .noSpace s
          else if c.stageD then busyPower c.id s
          else
            let q := newSeq s.order p k id cls client hd.1 hd.2.1 h [] 0 false
            let take := (((res.map (fun r => r.pages)).getD []).take (n / 256))
            let r := (List.range h.layers).foldl (fun (acc : List Layer × State) j =>
              let x := resultPages q j take acc.2
              (acc.1 ++ [{ Layer.fresh with pages := x.1, len := n, sealed := n / 256 }], x.2)) ([], make q k s)
            let uid := s.order
            let s := onSeq uid (fun q => { q with layers := r.1, keys := take.map (fun x => x.key), sharedPages := n / 256 }) r.2
            seqDone c.id .ok k s
    else match parent with
      | none => failWord c.id .noSeq s
      | some par =>
        if (seqById s p id).isSome then failSeq c par .exists_ s
        else if unlinked s c par then failWord c.id .badParam s
        else if bad ∨ seqLength par < n then failSeq c par .badParam s
        else if par.st = .open_ ∨ par.st = .closing then failSeq c par .badState s
        else if par.st = .damaged then failSeq c par .poison s
        else match ledgerSlot s p with
          | none => failSeq c par .noSpace s
          | some k =>
            if !(poolRoomFor s p (startPool par.shape (ownCount par n))) then failSeq c par .noSpace s
            else if c.stageD then bumpK .pwrStageBusyPower 0 1 (failSeq c par .busyPower s)
            else
              let q := newSeq s.order p k id cls client par.modelFp par.adapter par.shape par.members par.ownIndex par.striped
              -- A tail whose page is not full in the parent is copied now; space is reserved for every tail.
              let owns := ownsPos par (n - 1) && decide (n % 256 ≠ 0)
              let layers := par.layers.map (fun l =>
                let l' := { Layer.fresh with pages := List.replicate (ownCount par n / 256) none, len := n, sealed := ownCount par n / 256 }
                if owns then
                  (if 256 * (n / 256 + 1) ≤ l.len then putSlot 0 { BSlot.empty with alloc := true } l'
                   else putSlot 0 { BSlot.empty with alloc := true, toks := tailToks par l n } l')
                else l')
              let s := if leads c par then forwardCmd c par.members s else s
              make { q with forkFrom := some par.uid, layers := layers, keys := par.keys.take (n / 256), sharedPages := n / 256 } k s

/-- A fork's parent has swapped every page that the fork takes, and the crates of its tail are in DRAM (R81, R74). -/
def forkReady (s : State) (q par : Seq) : Bool :=
  let lp := ownCount par q.forkLen / 256
  (q.layers.zip par.layers).all (fun x => decide (lp ≤ x.2.sealed) && (!(x.1.slot0.alloc && x.1.slot0.toks.isEmpty)
    || (decide (lp < x.2.sealed) && (match (x.2.pages[lp]?).getD none with
      | some k => (match crateOf s k with
        | some c => inDram c
        | none => false)
      | none => false))))

/-- Ask for the crates of a fork's tail that lie below DRAM. -/
def fetchTails (q par : Seq) (s : State) : State :=
  let lp := ownCount par q.forkLen / 256
  each ((q.layers.zip par.layers).filterMap (fun x => if x.1.slot0.alloc ∧ x.1.slot0.toks.isEmpty then (x.2.pages[lp]?).getD none else none))
    (fun k s => queueFetch .demand s.order s.localTime k s) s

/-- A fork completes: the child takes the parent's pages by reference and decodes its tail (R80, R81). -/
def forkStep (uid : Nat) (s : State) : State :=
  match seqOf s uid with
  | none => s
  | some q => match q.fork, q.forkFrom with
    | some cmd, some pu => match seqOf s pu with
      | none => seqDone cmd .badState 0 s
      | some par =>
        if par.st = .damaged then seqDone cmd .poison 0 (onSeq uid (fun q => { q with forkFrom := none }) s)
        else if !(forkReady s q par) then fetchTails q par s
        else
          let lp := ownCount par q.forkLen / 256
          let tail := q.forkLen % 256
          let layers := (q.layers.zip par.layers).map (fun x =>
            let l := { x.1 with pages := x.2.pages.take lp }
            if x.1.slot0.alloc ∧ x.1.slot0.toks.isEmpty then
              match ((x.2.pages[lp]?).getD none).bind (crateOf s) with
              | some k => putSlot 0 { x.1.slot0 with toks := decodeTokens par.shape k.body tail } l
              | none => l
            else l)
          seqDone cmd .ok q.slot (onSeq uid (fun q => { q with layers := layers, forkFrom := none }) s)
    | _, _ => s

/-- The forks that can go on do. -/
def forksGoOn (s : State) : State :=
  if coreThere s 1 = false then s else
  each ((s.seqs.filter (fun q => q.forkFrom.isSome)).map (fun q => q.uid)) forkStep s

/- SEQ_PARK and SEQ_CLOSE (R83 to R85). -/

/-- An ATTEND whose body has not been read names a sequence id, or may: the body's entries (R91) cannot be read yet.
(DEDUCED: log entry 64.) -/
def mayName (s : State) (c : Cmd) (id : Nat) : Bool :=
  match s.forwards.find? (fun f => f.1 == c.id) with
  | some f => leAt f.2.seqEntry 0 4 == id
  | none =>
  let n := fieldOf c.entry 0x11 1 + 1
  match readOperand s c (fieldOf c.entry 0x1C 4) (fieldOf c.entry 0x28 6) (32 * n) with
  | .val bs => (List.range n).any (fun i => leAt bs (32 * i) 4 == id)
  | .bad _ => false
  | _ => true

/-- An ATTEND is for a sequence: one of its parts is, or its body, not read yet, names it. -/
def attendFor (s : State) (q : Seq) (c : Cmd) : Bool :=
  c.op == .attend && cmdPitch s c == some q.pitch && (match c.uses with
    | some l => l.contains q.uid
    | none => mayName s c q.id)

/-- An ATTEND for the sequence, accepted before, has not completed (R84); an entry that a ring of the pitch has accepted and
not fetched may be one. (DEDUCED: log entry 64.) -/
def attendBefore (s : State) (q : Seq) (before : Nat) : Bool :=
  s.cmds.any (fun c => decide (c.order < before) && attendFor s q c)
    || s.rings.any (fun r => ringPitch s r.num == some q.pitch && r.accepted.any (fun a => decide (a.order < before)))

/-- An ATTEND has begun: it reads its operands, computes, or writes its results. -/
def begun (c : Cmd) : Bool :=
  match c.wait with
  | .runnable | .chained | .fenced | .core => false
  | _ => true

/-- An ATTEND is in flight for a closing sequence (R85): accepted before its SEQ_CLOSE, or with a part that still uses it. -/
def attendInFlight (s : State) (q : Seq) : Bool :=
  let before := ((q.closer.bind (cmdOf s)).map (fun c => c.order)).getD 0
  s.cmds.any (fun c => decide (c.order < before) && begun c && attendFor s q c)
    || s.attends.any (fun a => a.parts.any (fun p => p.seq == q.uid && p.status.isNone))

/-- Seals of a sequence in progress. -/
def seqSealing (s : State) (uid : Nat) : Bool := s.seals.any (fun x => x.seq == uid)

/-- SEQ_PARK, when its waiting is over (R84). -/
def parkNow (c : Cmd) (q : Seq) (s : State) : State :=
  if 0 < seqTent q ∨ q.layers.any (fun l => decide (0 < l.tent)) then seqDone c.id .badState 0 s
  else if q.st ≠ .active ∧ q.st ≠ .parked then seqDone c.id .badState 0 s
  else
    let s := onSeq q.uid (fun q => { q with st := .parked }) s
    let s := if bit (fieldOf c.entry 0x14 1) 0 then each (seqCrates q) (wantFlash 2) s else s
    seqDone c.id .ok 0 s

/-- A SEQ_PARK that waits goes on when it can. (DEDUCED: log entry 64.) -/
def parkStep (id : Nat) (s : State) : State :=
  match cmdOf s id with
  | none => s
  | some c => match (cmdPitch s c).bind (fun p => seqById s p (fieldOf c.entry 0x10 4)) with
    | none => seqDone id .badState 0 s
    | some q =>
      if attendBefore s q c.order ∨ seqSealing s q.uid then onCmd id (fun x => { x with wait := .park }) s
      else parkNow c q (startedCmd id s)

/-- SEQ_PARK (R83, R84, R86). (DEDUCED: log entry 64.) -/
def opSeqPark (c : Cmd) (s : State) : State :=
  let e := c.entry
  match (cmdPitch s c).bind (fun p => seqById s p (fieldOf e 0x10 4)) with
  | none => complete c.id .noSeq 0 s
  | some q =>
    if 1 < fieldOf e 0x14 1 ∨ !(zeroAt e 0x15 43) then failSeq c q .badParam s
    else parkStep c.id (if leads c q then forwardCmd c q.members s else s)

/-- SEQ_PARKs that wait and may go on. -/
def parksGoOn (s : State) : State :=
  if coreThere s 1 = false then s else
  each ((s.cmds.filter (fun c => c.op == .seqPark && c.wait == .park)).map (fun c => c.id)) parkStep s

/-- SEQ_CLOSE (R83, R85, R86). -/
def opSeqClose (c : Cmd) (s : State) : State :=
  let e := c.entry
  match (cmdPitch s c).bind (fun p => seqById s p (fieldOf e 0x10 4)) with
  | none => complete c.id .noSeq 0 s
  | some q =>
    if !(zeroAt e 0x14 44) then failSeq c q .badParam s
    else if q.st = .open_ ∨ q.st = .closing then failSeq c q .badState s
    else
      let s := if leads c q then forwardCmd c q.members s else s
      startedCmd c.id (onSeq q.uid (fun q => { q with st := .closing, closer := some c.id, closedFrom := q.st }) s)

/-- A closing sequence is free of uses: no ATTEND, no seal, no publication in progress, no fork that still takes its pages
(R41, R85). -/
def closeReady (s : State) (q : Seq) : Bool :=
  !(s.pubs.any (fun r => r.seq == q.uid && (r.st == .waitSwap || r.st == .sent))) && !(attendInFlight s q) && !(seqSealing s q.uid)
    && !(s.seqs.any (fun x => x.forkFrom == some q.uid))

/-- A closing sequence that nothing uses gives up its references; its SEQ_CLOSE completes, a striped one once every member has
answered (R37, R76, R85). -/
def closeStep (q : Seq) (s : State) : State :=
  match q.closer.bind (cmdOf s) with
  | some c =>
    if !(closeReady s q) ∨ q.layers.isEmpty then s
    else if c.members.isEmpty then seqEnd c.id .ok 0 s
    else seqDone c.id .ok 0 (emptySeq q.uid s)
  | none => s

/-- Closing sequences that can go do. -/
def closesGoOn (s : State) : State :=
  if coreThere s 1 = false then s else each (s.seqs.filter (fun q => q.st == .closing)) closeStep s

/- ACCEPT (R68, R69). -/

/-- Keep the tentative tokens that a mask names in one layer (R68). -/
def acceptLayer (q : Seq) (mask : Nat) (l : Layer) : Layer :=
  let toks := barrowToks l
  let kept := sumBy (fun i => b2n (bit mask i)) (List.range l.tent)
  let own := decide (ownCount q (l.len + l.tent) = ownLen q l + l.tent)
  let base := toks.length - (if own then l.tent else 0)
  let keep := ((toks.drop base).zipIdx).filter (fun x => bit mask x.2)
  let l' := { l with len := l.len + kept, tent := 0 }
  putBarrow q (toks.take base ++ keep.map (fun x => x.1)) l'

/-- ACCEPT (R68, R69, R83, R86). Its result is LENGTH after the ACCEPT (R437). -/
def opAccept (c : Cmd) (s : State) : State :=
  let e := c.entry
  let mask := fieldOf e 0x18 8
  match (cmdPitch s c).bind (fun p => seqById s p (fieldOf e 0x10 4)) with
  | none => failWord c.id .noSeq s
  | some q =>
    let t := seqTent q
    if !(zeroAt e 0x14 4) ∨ !(zeroAt e 0x20 32) then failSeq c q .badParam s
    else if q.layers.any (fun l => l.tent != t) then failSeq c q .badState s
    else if mask / 2 ^ t ≠ 0 then failSeq c q .badParam s
    else if q.st = .damaged then failSeq c q .poison s
    else if q.st ≠ .active then failSeq c q .badState s
    else
      let s := if leads c q then forwardCmd c q.members s else s
      let s := onSeq q.uid (fun q => { q with layers := q.layers.map (acceptLayer q mask) }) s
      let s := each (List.range q.layers.length) (startSeals q.uid) s
      seqDone c.id .ok (((seqOf s q.uid).map seqLength).getD 0) s

/- HINT_STEP (R238, R239). -/

/-- HINT_STEP. A striped sequence's lead forwards it (R239). -/
def opHintStep (c : Cmd) (s : State) : State :=
  let e := c.entry
  let delay := fieldOf e 0x14 4
  let flags := fieldOf e 0x1C 1
  match (cmdPitch s c).bind (fun p => seqById s p (fieldOf e 0x10 4)) with
  | none => complete c.id .noSeq 0 s
  | some q =>
    if 60000000 < delay ∨ 1 < flags ∨ !(zeroAt e 0x1D 35) then complete c.id .badParam 0 s
    else if q.st = .open_ ∨ q.st = .closing then complete c.id .badState 0 s
    else if q.st = .damaged then complete c.id .ok 0 s
    else
      let next := c.at_ + delay * 1000
      let s := onSeq q.uid (fun q =>
        if bit flags 0 then { q with nextHint := 0, hint := none, planned := false }
        else
          let h : Hint := { next := next, gap := fieldOf e 0x18 4 }
          { q with nextHint := next, hint := some h, planned := false }) s
      let s := if leads c q then each (memberPeers s q.members) (fun m s => match m.2 with
          | some r => tell r (.forwardCmd c.op e) s
          | none => s) s else s
      complete c.id .ok 0 s

/- Delta coding (R304 to R310). -/

/-- Both crates of a recode are in tier 1. -/
def recodable (s : State) (id base : Nat) : Bool :=
  match crateOf s id, crateOf s base with
  | some c, some b => inDram c && inDram b
  | _, _ => false

/-- The recodes of a sequence that wait for their page's seal reach its crate (R306); those whose base has left tier 1 are
dropped (R319). (DEDUCED: log entry 78.) -/
def placeRecodes (q : Seq) (s : State) : State :=
  if q.recodes.isEmpty then s else
  let crateAt := fun (x : Nat × Nat × Nat) => if ownsPos q (256 * x.2.1)
    then ((layerOf q x.1).bind (fun l => l.pages[localPage q x.2.1]?)).getD none else none
  let s := each q.recodes (fun x s => match crateAt x with
    | some id => if recodable s id x.2.2 then onCrate id (fun c => if c.recoding.isSome then c else { c with recoding := some x.2.2 }) s
        else s
    | none => s) s
  let waits := fun (x : Nat × Nat × Nat) => ownsPos q (256 * x.2.1) && (crateAt x).isNone
    && (match crateOf s x.2.2 with
      | some b => inDram b
      | none => false)
  onSeq q.uid (fun q => { q with recodes := q.recodes.filter waits }) s

/-- Queued recodes follow their crates (R306, R319): one whose crate or base has left tier 1 is dropped.
(DEDUCED: log entry 78.) -/
def recodesFollow (s : State) : State :=
  let s := each s.seqs placeRecodes s
  { s with crates := upd (fun c => match c.recoding with
      | some b => !(recodable s c.id b)
      | none => false) (fun c => { c with recoding := none }) s.crates }

end Sys2Proof.Machine
end

