-- ==== Sys2Proof/Machine/Stalls.lean ====
section
/-! DEFINITION. Placement, contexts, preemption, the timetable and the till (R143 to R174). -/
namespace Sys2Proof.Machine

/- Stalls and their classes. -/

/-- A stall. -/
def stallAt (s : State) (k : Nat) : Stall := (s.stalls[k]?).getD Stall.idle

/-- Change a stall. -/
def onStall (k : Nat) (f : Stall → Stall) (s : State) : State := { s with stalls := setAt s.stalls k f }

/-- A stall is retired (R28). -/
def stallRetired (s : State) (k : Nat) : Bool := bit (rd s .hallStallRetiredRetired 0) k

/-- The pitch that owns a stall. -/
def stallPitch (s : State) (k : Nat) : Nat := rd s .stallCtxPitch k

/-- The timetable in effect (R155, R175). -/
def ttTable (s : State) : List TtSlot := if on s .hallTtStatusActive 0 then s.plan.tableB else s.plan.tableA

/-- The class of a stall in a slot entry (R153, R156). -/
def slotClass (s : State) (t : Option TtSlot) (k : Nat) : Nat :=
  if stallRetired s k then 15 else match t with
    | some x => bits x.classMap (4 * k) 4
    | none => 15

/-- The stalls that a class of a pitch holds in the current slot, ascending (R143). -/
def classStalls (s : State) (p cls : Nat) : List Nat :=
  (List.range 32).filter (fun k => cls != 15 && stallPitch s k == p && (stallAt s k).cls == cls && !(stallRetired s k))

/- Work. -/

/-- Tile-passes of a run or group. -/
def workLoad (w : Work) : Nat := (workTiles w).length * w.heads * workPasses w

/-- load(s) of R144. -/
def stallLoad (s : State) (k : Nat) : Nat := sumBy workLoad (stallAt s k).queue

/-- The order of R145. (DEDUCED: log entry 21.) -/
def workKey (w : Work) : List Nat := [15 - w.prio, w.order, w.entry, w.first]

/-- A queue with one more run, in the order of R145. (DEDUCED: log entry 21.) -/
def insertWork (w : Work) : List Work → List Work
  | [] => [w]
  | x :: t => if lexLt (workKey w) (workKey x) then w :: x :: t else x :: insertWork w t

/-- The stall that ran a run index of a sequence in its last ATTEND (R144): 32 where there is none. A group's is that of its
first member. (DESIGN CHOICE: log entry 81.) -/
def lastStall (s : State) (w : Work) : Nat :=
  match w.runs.head? with
  | none => 32
  | some r => match (s.attends.find? (fun a => a.cmd == w.cmd)).bind (fun a => a.parts[r.part]?) with
    | none => 32
    | some p => if r.index < 64 then (p.stallMemo[r.index]?).getD 32 else 32

/-- The tier that a run reads a tile of a crate in (R46, R120): the hall where its handle names tier 0 or where the copy that
the handle names has gone and the hall has one, else DRAM. -/
def tileTier (s : State) (t : Tile) : Nat :=
  match t.src with
  | .crate id h => if h.tier = 0 then 0 else if h.tier = 1 then 1 else match crateOf s id with
    | some c => if c.dram.isNone && c.hall.isSome then 0 else 1
    | none => 1
  | _ => 1

/-- The stall whose region holds the replay copy of a crate (R120, R143): a shared tile that it reads from DRAM lies in the
hall, in the region beside the stall that reads it, from its first pass on. (DEDUCED: log entry 86.) -/
def replayRegion (s : State) (id : Nat) : Option Nat :=
  (s.ctxs.findSome? (fun x => match x.place, x.work, x.work.bind (fun w => (workTiles w)[x.tile]?) with
    | .resident k, some w, some t =>
      if ofCrate id t && decide (1 < w.runs.length) && tileTier s t == 1 && !x.done && (decide (0 < x.pass) || decide (0 < x.head)) then some k
      else none
    | _, _, _ => none))

/-- The hall region that holds a run's first tile: a tier-0 copy's or a replay copy's (R143). -/
def firstRegion (s : State) (w : Work) : Option Nat :=
  match (workTiles w).head?.map (fun (t : Tile) => t.src) with
  | some (TileSrc.crate id _) => (crateOf s id).bind (fun c => if c.hall.isSome then some c.region else replayRegion s id)
  | _ => none

/-- Place a run or group (R143, R144). -/
def placeWork (w : Work) (s : State) : State :=
  let all := classStalls s w.pitch w.cls
  let near := all.filter (fun k => firstRegion s w == some k)
  let same := all.filter (fun k => lastStall s w == k)
  let c := if near.isEmpty then (if same.isEmpty then all else same) else near
  match leastBy (stallLoad s) c, leastBy (stallLoad s) all with
  | some best, some low =>
    let k := if stallLoad s low + rd s .pitchDispatchCfgAffSlack w.pitch < stallLoad s best then low else best
    onStall k (fun x => { x with queue := insertWork w x.queue }) s
  | _, _ => { s with unplaced := s.unplaced ++ [w] }

/- Contexts (R148 to R152). -/

/-- A context. -/
def ctxOf (s : State) (id : Nat) : Option Ctx := s.ctxs.find? (fun x => x.id == id)

/-- Change a context. -/
def onCtx (id : Nat) (f : Ctx → Ctx) (s : State) : State := { s with ctxs := upd (fun x => x.id == id) f s.ctxs }

/-- The stall whose slots a context occupies. -/
def ctxStall (x : Ctx) : Option Nat :=
  match x.place with
  | .resident k | .saving k | .restoring k => some k
  | .saved _ => none

/-- Resident contexts of a stall. -/
def residents (s : State) (k : Nat) : List Ctx := s.ctxs.filter (fun x => x.place == .resident k)

/-- The first of n adjacent slots of a stall that are free when the slots of some contexts are taken as free.
(DEDUCED: log entry 23.) -/
def findBase (s : State) (k n : Nat) (gone : List Nat) : Option Nat :=
  let taken := (s.ctxs.filter (fun x => ctxStall x == some k && !(gone.contains x.id))).flatMap (fun x =>
    (List.range x.slots).map (fun i => x.base + i))
  (List.range (5 - n)).find? (fun b => (List.range n).all (fun i => !(taken.contains (b + i))))

/-- Save slots of a pitch that live contexts reserve (R150). -/
def saveReserved (s : State) (p : Nat) : Nat := sumBy (fun x => if x.pitch = p then x.slots else 0) s.ctxs

/-- The pitch can reserve n more save slots. -/
def saveRoom (s : State) (p n : Nat) : Bool := decide (saveReserved s p + n ≤ rd s .pitchDispatchCfgSaveSlots p)

/-- A delta base, where there is one, has a tier-0 or tier-1 copy: reads of its dependants wait for it (R312, R319). -/
def baseThere (s : State) (base : Option Nat) : Bool :=
  match base with
  | none => true
  | some b => match crateOf s b with
    | some c => c.hall.isSome || c.dram.isSome
    | none => false

/-- A tile's data is readable (R152, R46): its crate is in the hall or DRAM, or the copy that its handle names still is, and the base
of a delta-coded copy is there too. -/
def tileReadable (s : State) (t : Tile) : Bool :=
  match t.src with
  | .crate id h => match crateOf s id with
    | some c => c.hall.isSome || (c.dram.isSome && baseThere s c.base)
      || (c.stillThere h && c.leaving.any (fun l => l.handle == h && baseThere s l.base))
    | none => false
  | .barrow _ _ => true
  | .awaitSwap => false

/-- The next tile of a context. -/
def nextTile (x : Ctx) : Option Tile := x.work.bind (fun w => (workTiles w)[x.tile]?)

/-- A context is runnable: its run is not finished and its next tile is readable. -/
def ctxRunnable (s : State) (x : Ctx) : Bool :=
  match nextTile x with
  | some t => !x.done && tileReadable s t
  | none => false

/-- Blocked (R152): the data of its next tile is not yet readable. -/
def ctxBlocked (s : State) (x : Ctx) : Bool :=
  match nextTile x with
  | some t => !x.done && !(tileReadable s t)
  | none => false

/-- Priority, then acceptance, as one number: lower runs first (R152). -/
def ctxKey (x : Ctx) : Nat := (15 - x.prio) * 2 ^ 64 + x.order

/-- Context slots for R rows (R148). -/
def slotsFor (rows : Nat) : Nat := max 1 (min 4 (ceilDiv rows 64))

/-- Context slots that a run of a stall's queue needs when its context becomes resident (R148). -/
def needSlots (s : State) (k : Nat) (w : Work) : Nat :=
  slotsFor (((stallAt s k).queue.filter (fun x => x.cmd == w.cmd)).foldl (fun m x => max m (workRows x)) (workRows w))

/-- Remember where a run of a sequence runs (R144). -/
def rememberStall (k : Nat) (w : Work) (s : State) : State :=
  each w.runs (fun r s => match (s.attends.find? (fun a => a.cmd == w.cmd)).bind (fun a => a.parts[r.part]?) with
    | some p => if 64 ≤ r.index then s else onSeq p.seq (fun q =>
        let l := q.lastStalls ++ List.replicate (r.index + 1 - q.lastStalls.length) 32
        { q with lastStalls := setAt l r.index (fun _ => k) }) s
    | none => s) s

/-- A context reaches its next tile: the hawker's account of hinted plans (R246). -/
def reachTile (id : Nat) (s : State) : State :=
  match (ctxOf s id).bind nextTile with
  | some t => match t.src with
    | .crate k _ => hintedUse k (tileReadable s t) s
    | _ => s
  | none => s

/-- A run starts in a context, whose priority is the highest of the runs it has held. (DESIGN CHOICE: log entry 81.) -/
def startRun (id k : Nat) (w : Work) (s : State) : State :=
  reachTile id (rememberStall k w (onCtx id (fun x => { x with
    work := some w, prio := max x.prio w.prio, tile := 0, head := 0, pass := 0, done := false }) s))

/-- A run leaves a stall's queue. -/
def unqueue (k : Nat) (w : Work) (s : State) : State := onStall k (fun x => { x with queue := x.queue.erase w }) s

/-- A run of a queue starts in a context of its own (R149). -/
def startCtx (k base : Nat) (w : Work) (s : State) : State :=
  let id := s.order
  let x : Ctx :=
    { id := id, cmd := w.cmd, pitch := w.pitch, cls := w.cls, slots := needSlots s k w, prio := w.prio, order := w.order,
      place := .resident k, base := base, work := none, tile := 0, head := 0, pass := 0, done := false, stop := none,
      why := .preempt, since := 0, savedOrder := 0 }
  startRun id k w (unqueue k w (ordered { s with ctxs := s.ctxs ++ [x] }))

/-- A saved context is read back onto a stall (R163 step 6). (DEDUCED: log entry 23.) -/
def startRestore (k base id : Nat) (s : State) : State :=
  onCtx id (fun x => { x with place := .restoring k, base := base, since := s.localTime }) s

/-- A context goes into its save slots (R163 step 3). -/
def startSave (k : Nat) (why : SaveWhy) (id : Nat) (s : State) : State :=
  let s := onCtx id (fun x => { x with place := .saving k, why := why, stop := none, since := s.localTime }) s
  onStall k (fun x => { x with
    running := if x.running = some id then none else x.running,
    grace := drop (fun g => g.1 == id) x.grace }) s

/-- A resident context is to be saved: from the stall's next tile boundary on, at once where the stall runs nothing (R157,
R163). -/
def stopCtx (k : Nat) (why : SaveWhy) (id : Nat) (s : State) : State :=
  if (stallAt s k).running.isSome then onCtx id (fun x => { x with stop := some why }) s else startSave k why id s

/-- A stall at a tile boundary freezes the contexts that are marked (R163 step 2); one whose run has ended is not saved. -/
def saveMarked (k : Nat) (s : State) : State :=
  if (stallAt s k).running.isSome then s else
  each (residents s k) (fun x s => match x.stop with
    | some why => if x.done then s else startSave k why x.id s
    | none => s) s

/-- A context leaves its stall (R149). -/
def leaveCtx (id : Nat) (s : State) : State :=
  { s with
    ctxs := drop (fun x => x.id == id) s.ctxs,
    stalls := s.stalls.map (fun x => { x with
      running := if x.running = some id then none else x.running, grace := drop (fun g => g.1 == id) x.grace }) }

/- Candidates (R162, R164, R166). -/

/-- What may take free slots of a stall. -/
inductive Cand where
  | saved (x : Ctx)
  | unstarted (w : Work)

/-- Priority of a candidate. -/
def Cand.prio : Cand → Nat
  | .saved x => x.prio
  | .unstarted w => w.prio

/-- Slots that a candidate needs. -/
def Cand.slots (s : State) (k : Nat) : Cand → Nat
  | .saved x => x.slots
  | .unstarted w => needSlots s k w

/-- The order of R164. -/
def Cand.key : Cand → List Nat
  | .saved x => [15 - x.prio, if x.why = .blocked then 0 else 1, x.savedOrder]
  | .unstarted w => [15 - w.prio, 2, w.order, w.entry, w.first]

/-- A list of candidates in the order of R164. -/
def sortCands (l : List Cand) : List Cand :=
  l.foldl (fun acc x => acc.filter (fun y => !(lexLt x.key y.key)) ++ [x] ++ acc.filter (fun y => lexLt x.key y.key)) []

/-- A saved context may come to a stall: it prefers the stall that saved it, while its class holds that one and it has
room there (R165). (DEDUCED: log entry 23.) -/
def mayRestore (s : State) (k : Nat) (x : Ctx) : Bool :=
  match x.place with
  | .saved j => decide (j = k) || (stallAt s j).cls != x.cls || (findBase s j x.slots []).isNone
  | _ => false

/-- The candidates of a stall, in the order of R164: runnable saved contexts of its class, and unstarted runs of its queue
whose ATTEND has no context on the stall. -/
def candidates_ (s : State) (k : Nat) : List Cand :=
  let st := stallAt s k
  if st.cls = 15 then [] else
  let saved := s.ctxs.filter (fun x => x.pitch == stallPitch s k && x.cls == st.cls && mayRestore s k x && ctxRunnable s x)
  let works := st.queue.filter (fun w => !(s.ctxs.any (fun x => x.cmd == w.cmd && ctxStall x == some k)))
  sortCands (saved.map Cand.saved ++ works.map Cand.unstarted)

/-- A candidate's save slots can be had (R150): a saved context keeps its own. -/
def Cand.reserves (s : State) (k : Nat) : Cand → Bool
  | .saved _ => true
  | .unstarted w => saveRoom s w.pitch (needSlots s k w)

/-- Where a candidate can go now. -/
def fitsNow (s : State) (k : Nat) (c : Cand) (gone : List Nat) : Option Nat :=
  if c.reserves s k then findBase s k (c.slots s k) gone else none

/-- Start a candidate at a base slot. -/
def startCand (k base : Nat) (c : Cand) (s : State) : State :=
  match c with
  | .saved x => startRestore k base x.id s
  | .unstarted w => startCtx k base w s

/-- Contexts whose slots are on their way to be free. -/
def leavingCtxs (s : State) (k : Nat) : List Nat :=
  (s.ctxs.filter (fun x => x.place == .saving k || (x.place == .resident k && x.stop.isSome))).map (fun x => x.id)

/-- The victims, in an order, that let a candidate fit; none when they are not enough. -/
def victimsFor (s : State) (k : Nat) (c : Cand) : List Nat → List Nat → Option (List Nat)
  | taken, [] => if (fitsNow s k c (leavingCtxs s k ++ taken)).isSome then some taken else none
  | taken, v :: t => if (fitsNow s k c (leavingCtxs s k ++ taken)).isSome then some taken else victimsFor s k c (taken ++ [v]) t

/-- Preemption (R162): a candidate that lacks slots has contexts of strictly lower priority saved. One whose run has ended
leaves by itself. -/
def preemptFor (k : Nat) (c : Cand) (s : State) : State :=
  let lower := (residents s k).filter (fun x => x.stop.isNone && !x.done && decide (x.prio < c.prio))
  let order := sortBy (fun x => x.prio * 2 ^ 64 + (2 ^ 64 - 1 - x.order)) lower
  match victimsFor s k c [] (order.map (fun x => x.id)) with
  | some l => each l (stopCtx k .preempt) s
  | none => s

/-- Bytes ahead of a crate's fetch in its source's queue, its own included (R243): those in flight before those queued, each in the
hawker's order. -/
def bytesAhead (s : State) (c : Crate) (f : Fetch) : Nat :=
  let before := fun (x : Crate) (g : Fetch) => g.tier == f.tier && sourceOf s x g.tier == sourceOf s c f.tier
    && (x.id == c.id || (g.started && !f.started) || (g.started == f.started && lexLt (fetchKey x g) (fetchKey c f)))
  sumBy (fun x => match x.fetch with
    | some g => if before x g then charge x else 0
    | none => 0) s.crates

/-- ETA of what a blocked context awaits (R167, R243); none when it is unknown. -/
def ctxEta (s : State) (x : Ctx) : Option Nat :=
  match (nextTile x).map (fun (t : Tile) => t.src) with
  | some TileSrc.awaitSwap => some (s.localTime + 2000)
  | some (TileSrc.crate id _) => match crateOf s id with
    | none => none
    | some c => match c.fetch with
      | none => none
      | some f =>
        let reachable : Bool := match f.tier, c.origin with
          | 4, some h => (holderConn s h).isSome
          | _, _ => true
        if reachable then some (max f.queuedAt s.localTime + accessNs f.tier + transferNs s c.pitch f.tier (bytesAhead s c f))
        else none
  | _ => some s.localTime

/-- Blocked swaps (R166): every resident context is blocked and a candidate waits. -/
def swapFor (k : Nat) (c : Cand) (s : State) : State :=
  let rs := residents s k
  if rs.isEmpty ∨ rs.any (fun x => x.stop.isSome ∨ !(ctxBlocked s x)) then s else
  let late := rs.filter (fun x => match ctxEta s x with
    | none => true
    | some t => decide (s.localTime + 1000 * rd s .pitchDispatchCfgSwapMin x.pitch < t))
  let key := fun (x : Ctx) =>
    let eta : Nat := match ctxEta s x with
      | none => 0
      | some t => 2 ^ 64 - t
    (eta * 16 + x.prio) * 2 ^ 64 + (2 ^ 64 - 1 - x.order)
  match victimsFor s k c [] ((sortBy key late).map (fun x => x.id)) with
  | some l => each l (stopCtx k .blocked) s
  | none => s

/-- A stall with nothing runnable and free slots takes the last unstarted run of the most loaded stall of its class
(R146). (DEDUCED: log entry 22.) -/
def stealFor (k : Nat) (s : State) : State :=
  let st := stallAt s k
  if st.cls = 15 ∨ !(candidates_ s k).isEmpty ∨ (residents s k).any (ctxRunnable s) then s else
  let others := (classStalls s (stallPitch s k) st.cls).filter (fun j => j != k && decide (0 < stallLoad s j))
  match leastBy (fun j => 2 ^ 64 - stallLoad s j) others with
  | none => s
  | some j => match (stallAt s j).queue.getLast? with
    | none => s
    | some w =>
      if (fitsNow s k (.unstarted w) []).isSome then
        onStall k (fun x => { x with queue := insertWork w x.queue }) (unqueue j w s)
      else s

/-- A candidate may preempt (R162): a saved context, which is runnable, or the run at the head of the stall's queue when its
first tile is readable. -/
def mayPreempt (s : State) (k : Nat) : Cand → Bool
  | .saved _ => true
  | .unstarted w => (stallAt s k).queue.head? == some w && (((workTiles w).head?).map (tileReadable s)).getD false

/-- Candidates that do not fit, in their order: the first that can make room by preemption (R162) or by a blocked swap
(R166) does. A candidate whose room is already on its way waits. -/
def makeRoom (k : Nat) : List Cand → State → State
  | [], s => s
  | c :: rest, s =>
    if !(c.reserves s k) ∨ (fitsNow s k c (leavingCtxs s k)).isSome then makeRoom k rest s
    else
      let t := if mayPreempt s k c then preemptFor k c s else s
      let t := if leavingCtxs t k = leavingCtxs s k then swapFor k c t else t
      if leavingCtxs t k = leavingCtxs s k then makeRoom k rest s else t

/-- Fill a stall's free slots (R164), preempt (R162), swap blocked contexts (R166). The fuel bounds the starts. -/
def fillStall (k : Nat) : Nat → State → State
  | 0, s => s
  | n + 1, s =>
    let cands := candidates_ s k
    match cands.find? (fun c => (fitsNow s k c []).isSome) with
    | some c => match fitsNow s k c [] with
      | some base => fillStall k n (startCand k base c s)
      | none => s
    | none => makeRoom k cands s

/-- A stall takes work from others while it has slots for it (R146). The fuel bounds the runs taken. (DEDUCED: log entry 22.) -/
def stealRuns (k : Nat) : Nat → State → State
  | 0, s => s
  | n + 1, s =>
    let t := stealFor k s
    if (stallAt t k).queue.length = (stallAt s k).queue.length then s else stealRuns k n (fillStall k 64 t)

/- The till (R170 to R172). -/

/-- A till with nothing in it. -/
def Till.fresh (p cls : Nat) : Till :=
  { pitch := p, cls := cls, waitSum := 0, waitMax := 0, parts := 0, hist := List.replicate 16 0, preempts := 0, swaps := 0,
    saveTime := 0 }

/-- Change the till of a class of a pitch. -/
def onTill (p cls : Nat) (f : Till → Till) (s : State) : State :=
  let same := fun (t : Till) => t.pitch == p && t.cls == cls
  let t := (s.tills.find? same).getD (Till.fresh p cls)
  { s with tills := f t :: drop same s.tills }

/-- Histogram bucket of a queue wait in ns (R172). -/
def waitBucket (w : Nat) : Nat := if w < 1000 then 0 else min 15 (Nat.log2 (w / 1000) + 1)

/-- The first tile of a part's runs starts: its queue wait is counted once (R170). (DEDUCED: log entry 26.) -/
def countWait (x : Ctx) (s : State) : State :=
  match s.attends.find? (fun a => a.cmd == x.cmd), cmdOf s x.cmd with
  | some a, some c =>
    if a.counted.contains x.cls then s else
    let w := s.localTime - c.at_
    let s := { s with attends := upd (fun b => b.cmd == x.cmd) (fun b => { b with counted := b.counted ++ [x.cls] }) s.attends }
    onTill x.pitch x.cls (fun t => { t with
      waitSum := (t.waitSum + w) % 2 ^ 64, waitMax := min (2 ^ 32 - 1) (max t.waitMax w), parts := (t.parts + 1) % 2 ^ 32,
      hist := setAt t.hist (waitBucket w) (fun n => min (2 ^ 32 - 1) (n + 1)) }) s
  | _, _ => s

/-- A stall runs the resident context of highest priority among those that are runnable (R152). -/
def chooseCtx (k : Nat) (s : State) : State :=
  if (stallAt s k).running.isSome then s else
  match leastBy ctxKey ((residents s k).filter (fun x => x.stop.isNone && ctxRunnable s x)) with
  | none => s
  | some x =>
    let s := onStall k (fun y => { y with running := some x.id }) s
    if x.tile = 0 ∧ x.head = 0 ∧ x.pass = 0 then countWait x s else s

/-- A stall goes on: free slots are filled, by others' work where it has none, and a context is chosen. -/
def schedule (k : Nat) (s : State) : State := chooseCtx k (stealRuns k 64 (fillStall k 64 (saveMarked k s)))

/-- Every stall goes on: free slots are filled, stalls left with nothing take work, and contexts are chosen.
(DEDUCED: log entry 22.) -/
def scheduleAll (s : State) : State :=
  let all := List.range 32
  each all chooseCtx (each all (fun k => stealRuns k 64) (each all (fun k s => fillStall k 64 (saveMarked k s)) s))

/- Runs that end (R126). -/

/-- The directory and the base that a DRAM read of a crate decodes with: those of the copy that the handle names (R302). -/
def readWith (c : Crate) (h : Handle) : List BlockDir × Option Nat :=
  match c.leaving.find? (fun l => l.handle == h) with
  | some l => (l.dir, l.base)
  | none => (c.dir, c.base)

/-- The body of a tile: from DRAM it is decoded, with the base's symbols added to those of a delta block (R312). -/
def tileBody (s : State) (t : Tile) : Option TileBody :=
  match t.src with
  | .crate id h => (crateOf s id).map (fun c => .crate (
      let r := readWith c h
      match if tileTier s t = 0 then none else r.2.bind (crateOf s) with
      | some b => expandBody c.shape r.1 c.body b.body
      | none => c.body))
  | .barrow _ toks => some (.barrow toks)
  | .awaitSwap => none

/-- The visible positions of a page for a query token (R116, R118). -/
def visiblePos (p : Part) (i page : Nat) : List Nat :=
  (List.range 256).filter (fun pos => visible p.mask p.held i (queryPos p i) (256 * page + pos))

/-- The partials of a run, token-major then head (R111, R112). -/
def runRows (s : State) (a : Attend) (p : Part) (h : Shape) (r : Run) : List (Option Acc) :=
  (p.query.zipIdx).flatMap (fun tok => (tok.1.zipIdx).map (fun hd =>
    let tiles := r.tiles.filterMap (fun t => (tileBody s t).map (fun b => (b, visiblePos p tok.2 t.page)))
    foldRun h (Fp.of a.scale) (Fp.of a.cap) (queryGroups a.fp8 hd.1) (if h.latent then 0 else hd.2 / max 1 a.qgroup) tiles))

/-- Fold the partials that have arrived in order of first page (R126): the part, and how many were merged. The fuel is
the number of runs. -/
def foldPart : Nat → Part → Part × Nat
  | 0, p => (p, 0)
  | n + 1, p => match p.arrived.find? (fun x => x.1 == p.folded) with
    | none => (p, 0)
    | some x =>
      let some_ := fun (l : List (Option Acc)) => l.any (fun y => y.isSome)
      let merged := b2n (some_ p.acc && some_ x.2)
      let r := foldPart n { p with
        acc := if p.acc.isEmpty then x.2 else List.zipWith mergeOpt p.acc x.2, folded := p.folded + 1,
        arrived := drop (fun y => y.1 == x.1) p.arrived }
      (r.1, r.2 + merged)

/-- Change a part of an ATTEND. -/
def onPart (cmd i : Nat) (f : Part → Part) (s : State) : State :=
  { s with attends := upd (fun a => a.cmd == cmd) (fun a => { a with parts := setAt a.parts i f }) s.attends }

/-- The ATTEND of a command and its part. -/
def partOf (s : State) (cmd i : Nat) : Option (Attend × Part) :=
  match s.attends.find? (fun a => a.cmd == cmd) with
  | none => none
  | some a => (a.parts[i]?).map (fun p => (a, p))

/-- A run no longer reads its tiles: reader counts fall, and slots are freed (R46, R63, R235). -/
def releaseTiles (uid layer : Nat) (tiles : List Tile) (s : State) : State :=
  each tiles (fun t s => match t.src with
    | .crate id _ => onCrate id (fun c => { c with readers := c.readers - 1 }) s
    | .barrow slot _ => match seqOf s uid with
      | some q => onLayer uid layer (fun l =>
          let b := slotOf l slot
          releaseSlots q (putSlot slot { b with readers := b.readers - 1 } l)) s
      | none => s
    | .awaitSwap => s) s

/-- A finished run hands its partial to the weigher. (DEDUCED: log entry 28.) -/
def deliverRun (cmd : Nat) (r : Run) (s : State) : State :=
  match partOf s cmd r.part with
  | none => s
  | some (a, p) => match seqOf s p.seq with
    | none => s
    | some q =>
      let rows := runRows s a p q.shape r
      let f := foldPart p.runs.length { p with arrived := p.arrived ++ [(r.index, rows)] }
      let s := { s with attends := upd (fun b => b.cmd == cmd) (fun b => { b with mergedAt := s.localTime }) s.attends }
      releaseTiles p.seq a.layer r.tiles
        (bump .stallWeighStatMerges 0 f.2 (onPart cmd r.part (fun _ => f.1) s))

/-- The next run of a context's ATTEND on its stall joins it when it needs no more slots (R148); else the context
leaves. -/
def nextRun (k : Nat) (x : Ctx) (s : State) : State :=
  let w := (stallAt s k).queue.find? (fun w => w.cmd == x.cmd && decide (slotsFor (workRows w) ≤ x.slots))
  match w with
  | some w => if x.stop.isNone ∧ (stallAt s k).cls = x.cls then startRun x.id k w (unqueue k w s) else leaveCtx x.id s
  | none => leaveCtx x.id s

/-- RUN_COMPLETE: a stall's finished run hands its partial to the weigher (R126, R149). -/
def runComplete (k : Nat) (s : State) : State :=
  match (residents s k).find? (fun x => x.done) with
  | none => s
  | some x => match x.work with
    | none => s
    | some w =>
      let s := each w.runs (deliverRun w.cmd) s
      schedule k (nextRun k x s)

/- Runs that are withdrawn (R131, R169). -/

/-- Change every run that is queued, unplaced or in a context. -/
def mapWorks (f : Work → Work) (s : State) : State :=
  { s with
    stalls := s.stalls.map (fun x => { x with queue := (x.queue.map f).filter (fun w => !w.runs.isEmpty) }),
    unplaced := (s.unplaced.map f).filter (fun w => !w.runs.isEmpty),
    ctxs := s.ctxs.map (fun x => { x with work := x.work.map f }) }

/-- Contexts whose run has no member left go on or leave. -/
def sweepCtxs (s : State) : State :=
  each (s.ctxs.filter (fun x => match x.work with
    | some w => w.runs.isEmpty
    | none => false)) (fun x s => match x.place with
      | .resident k => nextRun k x (onStall k (fun y => { y with running := if y.running = some x.id then none else y.running }) s)
      | _ => leaveCtx x.id s) s

/-- A part's runs that have not been handed over are given up: their tiles are released. -/
def withdrawPart (cmd i : Nat) (s : State) : State :=
  match partOf s cmd i with
  | none => s
  | some (a, p) =>
    let open_ := (p.runs.zipIdx).filter (fun x => decide (p.folded ≤ x.2) && !(p.arrived.any (fun y => y.1 == x.2)))
    let s := each open_ (fun x => releaseTiles p.seq a.layer x.1) s
    let strip := fun (w : Work) => if w.cmd = cmd then { w with runs := w.runs.filter (fun r => r.part != i) } else w
    let s := sweepCtxs (mapWorks strip (onPart cmd i (fun p => { p with runs := [], folded := 0, arrived := [], acc := [] }) s))
    each (p.runs.flatMap id) (fun t s => match t.src with
      | .crate id _ => endReserve id s
      | _ => s) s

/-- A part ends with a status other than OK (R98). -/
def failPart (cmd i : Nat) (st : Status) (s : State) : State :=
  onPart cmd i (fun p => { p with status := some st, waiting := false, segs := [], mem := [] }) (withdrawPart cmd i s)

/-- An unstriped part that turns out POISON after its append appends nothing (R98): its tokens go again from the end of the
layer, while they are still the last ones there and in the barrow; the seal of a page that they had filled is abandoned.
(DEDUCED: log entry 82.) -/
def unappend (cmd i : Nat) (s : State) : State :=
  match partOf s cmd i with
  | none => s
  | some (a, p) => match seqOf s p.seq, (seqOf s p.seq).bind (fun q => layerOf q a.layer) with
    | some q, some l =>
      let n := p.newtok
      if q.striped ∨ p.taken = false ∨ n = 0 ∨ p.status.isSome ∨ l.len ≠ p.lenAfter ∨ l.tent ≠ p.tentAfter
          ∨ (barrowToks l).length < n then s
      else
        let back := if p.tentative then (l.len, l.tent - n) else (l.len - n, l.tent)
        let l' := putBarrow q ((barrowToks l).take ((barrowToks l).length - n)) { l with len := back.1, tent := back.2 }
        let early := fun (x : Seal) => x.seq == q.uid && x.layer == a.layer && x.fromSlot && decide (back.1 < 256 * (x.page + 1))
        let s := abandonSeals early (onLayer q.uid a.layer (fun _ => l') s)
        onPart cmd i (fun p => { p with lenAfter := back.1, tentAfter := back.2 }) s
    | _, _ => s

/-- A part that passed its checks ends with POISON (R98, R131). -/
def poisonAfter (cmd i : Nat) (s : State) : State := failPart cmd i .poison (unappend cmd i s)

/- Tile boundaries (R151, R152). -/

/-- Members of a group whose rows lie in a pass of 32 rows. -/
def passMembers (w : Work) (pass : Nat) : Nat :=
  (w.runs.foldl (fun (acc : Nat × Nat) r =>
    let hi := acc.1 + r.rows
    (hi, acc.2 + b2n (decide (acc.1 < 32 * (pass + 1)) && decide (32 * pass < hi)))) (0, 0)).2

/-- Counters of a completed pass (R134, R135, R120). (DEDUCED: log entry 28.) -/
def countPass (k : Nat) (x : Ctx) (w : Work) (t : Tile) (s : State) : State :=
  let s := bump .stallPassesPasses k 1 s
  let s := if 1 < passMembers w x.pass then bump .stallPassesGrouped k 1 s else s
  let n := if w.fp8 then 8 else 16
  let fromDram : Bool := match t.src with
    | .crate _ _ => decide (1 < w.runs.length) && tileTier s t == 1
    | _ => false
  if !fromDram then s
  else if x.pass % n ≠ 0 then bump .hallReplayStatReplays 0 1 s
  else if x.head = 0 ∨ x.pass ≠ 0 then bump .hallReplayStatSharedReads 0 1 s
  else s

/-- A context advances past a pass: the next pass of the batch of 256 rows, the next KV head, the next tile, the next batch,
which reads every tile once more (R148), or the end of its run. -/
def advanceCtx (w : Work) (x : Ctx) : Ctx :=
  let base := batchPasses * (x.pass / batchPasses)
  if x.pass + 1 < workPasses w ∧ (x.pass + 1) % batchPasses ≠ 0 then { x with pass := x.pass + 1 }
  else if x.head + 1 < w.heads then { x with pass := base, head := x.head + 1 }
  else if x.tile + 1 < (workTiles w).length then { x with pass := base, head := 0, tile := x.tile + 1 }
  else if base + batchPasses < workPasses w then { x with pass := base + batchPasses, head := 0, tile := 0 }
  else { x with pass := 0, head := 0, done := true }

/-- The barrow slot that a run reads is uncorrectable (R41, R74): its seal is abandoned, and the sequence is DAMAGED. -/
def barrowLost (w : Work) (s : State) : State :=
  each w.runs (fun r s => match partOf s w.cmd r.part with
    | some (a, p) => damage p.seq (abandonSeals (fun y => y.seq == p.seq && y.layer == a.layer && y.fromSlot && y.crate.isNone)
        (poisonAfter w.cmd r.part s))
    | none => s) s

/-- Waits for a stack's unpacker (R313, R325): of those, the ones that the lanes caused. -/
def countStarve (k : Nat) (obs : TileObs) (s : State) : State :=
  bumpUnit 1024 .hallUnpackStatStarve k obs.starve (bumpUnit 1024 .hallUnpackStatLaneBound k (min obs.laneBound obs.starve) s)

/-- The first tile of an ATTEND has been read (R579). -/
def firstTile (cmd : Nat) (s : State) : State :=
  let note := fun (a : Attend) => { a with firstAt := some (a.firstAt.getD s.localTime) }
  { s with attends := upd (fun a => a.cmd == cmd) note s.attends }

/-- TILE_BOUNDARY: a pass over one KV head of a tile has ended (R151, R152, R271). -/
def tileBoundary (k : Nat) (obs : TileObs) (s : State) : State :=
  match (stallAt s k).running.bind (ctxOf s) with
  | none => s
  | some x => match x.work, nextTile x with
    | some w, some t =>
      if x.done then s else
      let s := match t.src with
        | .crate id _ => countStarve (((crateOf s id).map (fun c => c.stack)).getD 0) obs s
        | _ => s
      let found : Bool × State := match t.src with
        | .crate id _ => readFinding id (tileTier s t) obs.read s
        | .barrow _ _ =>
          let r := structFinding obs.read s
          if r.1 then r else (false, barrowLost w r.2)
        | .awaitSwap => (false, s)
      let s := found.2
      let s := if found.1 then
          let s := countPass k x w t (firstTile w.cmd s)
          let y := advanceCtx w x
          let s := onCtx x.id (fun _ => y) s
          let s := match t.src with
            | .crate id _ => endReserve id (onCrate id (fun c => { c with lastUse := s.localTime }) s)
            | _ => s
          if y.tile ≠ x.tile then reachTile x.id s else s
        else s
      schedule k (onStall k (fun y => { y with running := none }) s)
    | _, _ => s

/- Saves and restores (R163, R165, R169). -/

/-- Time that a save or restore took goes to the till (R171). -/
def countSaveTime (x : Ctx) (s : State) : State :=
  onTill x.pitch x.cls (fun t => { t with saveTime := (t.saveTime + (s.localTime - x.since)) % 2 ^ 64 }) s

/-- CONTEXT_SAVE_DONE (R163 step 3). -/
def contextSaved (id : Nat) (s : State) : State :=
  match ctxOf s id with
  | none => s
  | some x => match x.place with
    | .saving k =>
      let s := onCtx id (fun y => { y with place := .saved k, savedOrder := s.order }) (ordered s)
      let s := countSaveTime x s
      let s := match x.why with
        | .preempt => bump .stallCtxStatSavesPreempt k 1 s
        | .handover => bump .stallCtxStatSavesHandover k 1 s
        | .blocked => bump .stallCtxStatSavesBlocked k 1 s
      let s := onTill x.pitch x.cls (fun t => if x.why = .blocked then { t with swaps := (t.swaps + 1) % 2 ^ 32 }
        else { t with preempts := (t.preempts + 1) % 2 ^ 32 }) s
      scheduleAll s
    | _ => s

/-- The runs of a context that is lost start again from their first tile (R169). -/
def restartRuns (x : Ctx) (s : State) : State :=
  let s := leaveCtx x.id s
  match x.work with
  | some w => placeWork w s
  | none => s

/-- CONTEXT_RESTORE_DONE (R165, R169): the save record was readable, or its runs start again. -/
def contextRestored (id : Nat) (readable : Bool) (s : State) : State :=
  match ctxOf s id with
  | none => s
  | some x => match x.place with
    | .restoring k =>
      let s := countSaveTime x s
      if readable then
        let s := bump .stallCtxStatRestores k 1 (onCtx id (fun y => { y with place := .resident k }) s)
        let s := if (stallAt s k).cls = x.cls then s else startSave k .handover id s
        scheduleAll s
      else scheduleAll (restartRuns x (report srcHall .saveRecord sevContained (some x.pitch) s))
    | _ => s

/- The timetable (R153 to R160, R169). -/

/-- Runs that wait unplaced are placed where their class now holds a stall (R143). -/
def placeWaiting (s : State) : State :=
  each s.unplaced placeWork { s with unplaced := [] }

/-- The class is real-time in a pitch (R137). -/
def realTime (s : State) (p cls : Nat) : Bool := cls != 15 && on s .pitchClientRt (16 * p + cls)

/-- A stall passes from one class to another (R157). Its unstarted runs wait to be placed again. -/
def handOver (k old new : Nat) (s : State) : State :=
  if old = new then s else
  let mine := (residents s k).filter (fun x => x.cls == old)
  let run := (stallAt s k).running
  let rt := realTime s (stallPitch s k) new
  let s := { onStall k (fun x => { x with queue := [] }) s with unplaced := s.unplaced ++ (stallAt s k).queue }
  each mine (fun x s =>
    if run = some x.id ∧ rt = false then
      onStall k (fun y => { y with grace := y.grace ++ [(x.id, s.localTime + 1000 * rd s .pitchDispatchCfgGrace x.pitch)] }) s
    else if x.done then s
    else if rt then stopCtx k .handover x.id s
    else startSave k .handover x.id s) s

/-- Every stall takes its class in a slot (R157). -/
def enterSlot (s : State) : State :=
  let t := (ttTable s)[rd s .hallTtStatusSlot 0]?
  let changes := (List.range 32).map (fun k => (k, (stallAt s k).cls, slotClass s t k))
  let s := each changes (fun x => onStall x.1 (fun y => { y with cls := x.2.2 })) s
  scheduleAll (placeWaiting (each changes (fun x => handOver x.1 x.2.1 x.2.2) s))

/-- The VALID classes with no stall in any slot of the table in effect (R169). (DEDUCED: log entry 24.) -/
def starvedClasses (s : State) : List (Nat × Nat) :=
  (List.range 16).flatMap (fun p => ((List.range 15).filter (fun c =>
    on s .pitchClientValid (16 * p + c)
      && !((ttTable s).any (fun t => (List.range 32).any (fun k => stallPitch s k == p && slotClass s (some t) k == c))))).map
    (fun c => (p, c)))

/-- The mark of a selection that has taken effect and waits for core 1 (R169). -/
def ttTaken : Nat := 2

/-- CLASS_STARVED for a list of classes (R169, R575). (DEDUCED: log entry 24.) -/
def sayStarved (l : List (Nat × Nat)) (s : State) : State :=
  each l (fun x => postTo [0, x.1 + 1] 0x0020 srcDispatcher (leBytes 1 x.1 ++ leBytes 1 x.2)) s

/-- TIMETABLE_SELECTs that have taken effect complete, once core 1 is there (R18, R169). -/
def selectsDone (s : State) : State :=
  if coreThere s 1 = false then s else
  each (s.ttWaiters.filter (fun w => w.2.2 == ttTaken)) (fun w s => complete w.1 .ok 0 s)
    { s with ttWaiters := drop (fun w => w.2.2 == ttTaken) s.ttWaiters }

/-- A cycle ends (R155, R160): a selection accepted before the boundary takes effect and completes. (DEDUCED: log entry 25.) -/
def endCycle (at_ : Nat) (s : State) : State :=
  let due := s.ttWaiters.filter (fun w => decide (w.2.1 < at_) && w.2.2 != ttTaken)
  let rest := s.ttWaiters.filter (fun w => !(decide (w.2.1 < at_)) && w.2.2 != ttTaken)
  let s := bump .hallTtStatusCycles 0 1 { s with
    ttWaiters := s.ttWaiters.map (fun w => if w.2.1 < at_ then (w.1, w.2.1, ttTaken) else w) }
  let s := match due.getLast? with
    | some w => wr .hallTtStatusActive 0 w.2.2 s
    | none => s
  let s := wr .hallTtStatusPending 0 (b2n !rest.isEmpty) (wr .hallTtStatusPendingTable 0 ((rest.getLast?.map (fun w => w.2.2)).getD 0) s)
  sayStarved (starvedClasses s) (selectsDone s)

/-- SLOT_BOUNDARY (R155, R157). -/
def slotBoundary (s : State) : State :=
  let k := rd s .hallTtStatusSlot 0
  match (ttTable s)[k]? with
  | none => s
  | some t =>
    let at_ := s.slotStart + 10000 * t.duration
    let s := { reach at_ s with slotStart := at_ }
    if k + 1 < (ttTable s).length then enterSlot (wr .hallTtStatusSlot 0 (k + 1) s)
    else enterSlot (wr .hallTtStatusSlot 0 0 (endCycle at_ s))

/-- GRACE_EXPIRY (R157). -/
def graceExpiry (k : Nat) (s : State) : State :=
  match leastBy (fun g => g.2) (stallAt s k).grace with
  | none => s
  | some (id, d) =>
    let s := onStall k (fun x => { x with grace := drop (fun g => g.1 == id) x.grace }) (reach d s)
    match ctxOf s id with
    | some x => if x.place = .resident k ∧ x.done = false then schedule k (stopCtx k .handover id s) else s
    | none => s

/-- STALL_FAIL (R169, R156): the stall is retired and its contexts' runs start again elsewhere. A context that was on its
way back from its save record is still there. (DEDUCED: log entry 23.) -/
def stallFail (k : Nat) (s : State) : State :=
  if stallRetired s k then s else
  let before := starvedClasses s
  let s := report (srcStall k) .stallFailed sevDegraded (some (stallPitch s k)) s
  let s := wr .hallStallRetiredRetired 0 (rd s .hallStallRetiredRetired 0 ||| 2 ^ k) s
  let queue := (stallAt s k).queue
  let s := onStall k (fun _ => Stall.idle) s
  let s := each (s.ctxs.filter (fun x => x.place == .resident k || x.place == .saving k)) restartRuns s
  let s := { s with ctxs := s.ctxs.map (fun x => if x.place = .restoring k then { x with place := .saved k } else x) }
  let s := each queue placeWork s
  scheduleAll (sayStarved ((starvedClasses s).filter (fun x => !(before.contains x))) s)

/-- TIMETABLE_SELECT (R159, R160). (DEDUCED: log entry 25.) -/
def opTimetableSelect (c : Cmd) (s : State) : State :=
  let e := c.entry
  let t := fieldOf e 0x10 1
  if 1 < t ∨ !(zeroAt e 0x11 47) then complete c.id .badParam 0 s
  else startedCmd c.id (wr .hallTtStatusPending 0 1 (wr .hallTtStatusPendingTable 0 t
    { s with ttWaiters := s.ttWaiters ++ [(c.id, s.localTime, t)] }))

end Sys2Proof.Machine
end

