-- ==== Sys2Proof/Machine/Attend.lean ====
section
/-! DEFINITION. ATTEND: its checks, appends, work list and result, and its parts on a stripe (R90 to R142). -/
namespace Sys2Proof.Machine

/- The entry and its body (R90 to R99). -/

/-- The window check that decides (R99): ACCESS before REVOKED. -/
def worstCheck (l : List (Except Status Place)) : Option Status :=
  let errs := l.filterMap (fun x => match x with
    | .error e => some e
    | .ok _ => none)
  if errs.contains .access then some .access else errs.head?

/-- Query heads of a sequence (R92). -/
def headsOf (h : Shape) (qgroup : Nat) : Nat := if h.latent then qgroup else h.kvHeads * qgroup

/-- Elements of a query head (R92). -/
def queryDim (h : Shape) : Nat := if h.latent then 480 else dimOf h

/-- Bytes of a part's query data (R92). -/
def queryLen (h : Shape) (qgroup qtok : Nat) (fp8 : Bool) : Nat := qtok * headsOf h qgroup * queryDim h * (if fp8 then 1 else 2)

/-- Bytes of a part's output (R96). -/
def outLen (h : Shape) (qgroup qtok : Nat) (fp32 : Bool) : Nat :=
  qtok * headsOf h qgroup * (if fp32 then 4 * outDim h + 8 else 2 * outDim h)

/-- The pieces of body and result that a sequence entry names: whether it is output, offset, length. A sequence that is not
in use names none. (DEDUCED: log entry 38.) -/
def entryPieces (e : Entry) (h : Option Shape) (b : Bytes) : List (Bool × Nat × Nat) :=
  let qg := fieldOf e 0x12 1
  let fl := fieldOf e 0x13 1
  let qtok := leAt b 4 1
  let newtok := leAt b 5 1
  match h with
  | none => []
  | some h =>
    if qtok = 0 ∨ 16 < qtok then [] else
    [(false, leAt b 8 4, queryLen h qg qtok (bit fl 0)), (true, leAt b 0x14 4, outLen h qg qtok (bit fl 1))]
      ++ (if newtok = qtok then [(false, leAt b 0xC 4, newtok * tokBytes h)] else [])
      ++ (if bit (leAt b 6 1) 1 then [(false, leAt b 0x10 4, 32)] else [])

/-- Regions of the result area overlap (R95). -/
def overlaps (l : List (Nat × Nat)) : Bool :=
  let l := sortBy (fun (x : Nat × Nat) => x.1) (l.filter (fun x => x.1 != x.2))
  (l.zip l.tail).any (fun (x : (Nat × Nat) × (Nat × Nat)) => decide (x.2.1 < x.1.2))

/-- An FP32 word is finite and at least 0; `pos`: greater than 0. -/
def scaleOk (pos : Bool) (w : Nat) : Bool :=
  finite32 (BitVec.ofNat 32 w) && (w % 2 ^ 31 == 0 || !(bit w 31)) && (!pos || w % 2 ^ 31 != 0)

/-- Fields of the submission entry are in range (R90, R99). -/
def entryOk (e : Entry) : Bool :=
  let fl := fieldOf e 0x13 1
  decide (fieldOf e 0x10 1 ≤ 127) && decide (fieldOf e 0x11 1 ≤ 127)
    && decide (1 ≤ fieldOf e 0x12 1) && decide (fieldOf e 0x12 1 ≤ 128)
    && bits fl 5 3 == 0 && bits fl 2 2 != 3
    && scaleOk true (fieldOf e 0x14 4) && scaleOk false (fieldOf e 0x18 4)
    && fieldOf e 0x28 6 % 64 == 0 && fieldOf e 0x34 6 % 64 == 0 && zeroAt e 0x2E 2 && zeroAt e 0x3A 6

/-- Offsets and reserved bytes of a sequence entry are as R91 asks. -/
def seqEntryOk (b : Bytes) : Bool :=
  let fl := leAt b 6 1
  bits fl 2 6 == 0 && leAt b 7 1 == 0 && leAt b 0x18 8 == 0 && leAt b 8 4 % 64 == 0 && leAt b 0x14 4 % 64 == 0
    && (leAt b 5 1 == 0 || leAt b 0xC 4 % 64 == 0) && (!(bit fl 1) || leAt b 0x10 4 % 32 == 0)

/-- A mask descriptor is in range (R114). -/
def maskOk (b : Bytes) (qtok : Nat) : Bool :=
  let r := leAt b 0 1
  bits r 3 5 == 0 && leAt b 3 1 == 0 && leAt b 0x1A 6 == 0
    && (bits r 0 2 != 3 || (decide (1 ≤ leAt b 4 4) && decide (leAt b 4 4 ≤ 2097152)))
    && (!(bit r 2) || (decide (1 ≤ leAt b 2 1) && decide (leAt b 2 1 ≤ 64) && decide (leAt b 1 1 + qtok ≤ leAt b 2 1)
      && decide (leAt b 8 4 < 2097152) && leAt b 0xC 4 % 64 == 0 && decide (64 ≤ leAt b 0xC 4) && decide (leAt b 0xC 4 ≤ 65536)
      && leAt b 0x14 6 % 64 == 0))

/-- The mask of a descriptor with its bitmap (R114, R115). -/
def maskFrom (b bitmap : Bytes) : Mask :=
  { rule := bits (leAt b 0 1) 0 2, bitmap := bit (leAt b 0 1) 2, rowBase := leAt b 1 1, bmRows := leAt b 2 1,
    windowN := leAt b 4 4, spanStart := leAt b 8 4, spanLen := leAt b 0xC 4, bmWin := leAt b 0x10 4,
    bmOffset := leAt b 0x14 6, bits := bitmap }

/-- Query data by token and head (R92). -/
def queryOf (h : Shape) (qgroup qtok : Nat) (fp8 : Bool) (bs : Bytes) : List (List (List Nat)) :=
  let n := headsOf h qgroup
  let xs := if fp8 then bs.map (fun b => b.toNat) else (chunks 2 (bs.length + 1) bs).map leNat
  (groupsOf (n * queryDim h) qtok xs).map (groupsOf (queryDim h) n)

/-- Every query element is finite (R98). -/
def queryFinite (fp8 : Bool) (q : List (List (List Nat))) : Bool :=
  q.all (fun t => t.all (fun hd => hd.all (fun x => if fp8 then finiteE4m3 x else finiteBf (BitVec.ofNat 16 x))))

/-- Every new value is finite (R52). -/
def toksFinite (l : List Token) : Bool := l.all (fun t => t.all finiteBf)

/-- What the body holds for one sequence entry: the entry, query, new tokens, mask descriptor, bitmap, and what the bitmap
window's check found. -/
structure PartIn where
  entry  : Bytes
  query  : Bytes
  kv     : Bytes
  mask   : Bytes
  bitmap : Bytes
  bmErr  : Option Status

/-- The descriptor names a bitmap: BITMAP is set and its fields are in range (R114). -/
def hasBitmap (mask : Bytes) (qtok : Nat) : Bool := !mask.isEmpty && maskOk mask qtok && bit (leAt mask 0 1) 2

/-- The bitmap of a mask (R114, R115). BM_WIN maps DRAM or the hall of this device: a host window or a peer's does not, and is
not readable (R98). (DEDUCED: log entry 30.) -/
def readBitmap (s : State) (c : Cmd) (qtok : Nat) (mask : Bytes) : Got (Bytes × Option Status) :=
  if hasBitmap mask qtok = false then .val ([], none)
  else if bit (leAt mask 0x10 4) 31 then .val ([], some .access) else
  match readOperand s c (leAt mask 0x10 4) (leAt mask 0x14 6) (leAt mask 2 1 * leAt mask 0xC 4 / 8) with
  | .val b => .val (b, none)
  | .bad st => .val ([], some st)
  | .wait w => .wait w
  | .held q o n => .held q o n
  | .remote w o n => .remote w o n

/-- Read a part's data from the body. -/
def readPart (s : State) (c : Cmd) (h : Option Shape) (b : Bytes) : Got PartIn :=
  let e := c.entry
  let win := fieldOf e 0x1C 4
  let base := fieldOf e 0x28 6
  let qtok := leAt b 4 1
  let none_ : PartIn := { entry := b, query := [], kv := [], mask := [], bitmap := [], bmErr := none }
  match h with
  | none => .val none_
  | some h =>
    if qtok = 0 ∨ 16 < qtok then .val none_ else
    let rd := fun (off len : Nat) => readOperand s c win (base + off) len
    (rd (leAt b 8 4) (queryLen h (fieldOf e 0x12 1) qtok (bit (fieldOf e 0x13 1) 0))).bind (fun q =>
    (if leAt b 5 1 = qtok then rd (leAt b 0xC 4) (qtok * tokBytes h) else .val []).bind (fun kv =>
    (if bit (leAt b 6 1) 1 then rd (leAt b 0x10 4) 32 else .val []).bind (fun m =>
    (readBitmap s c qtok m).bind (fun bm =>
      .val { entry := b, query := q, kv := kv, mask := m, bitmap := bm.1, bmErr := bm.2 }))))

/-- Read every part's data. -/
def readParts (s : State) (c : Cmd) (l : List (Option Shape × Bytes)) : Got (List PartIn) :=
  l.foldl (fun acc x => acc.bind (fun done => (readPart s c x.1 x.2).bind (fun i => .val (done ++ [i])))) (.val [])

/-- A part as the checks that need no waiting leave it (R98): NO_SEQ and BAD_PARAM. -/
def makePart (a : Attend) (fp : Nat) (q : Option Seq) (again : Bool) (i : PartIn) : Part :=
  let b := i.entry
  let qtok := leAt b 4 1
  let newtok := leAt b 5 1
  let fl := leAt b 6 1
  let h := (q.map (fun x => x.shape)).getD { layers := 0, format := 0, latent := false, kvHeads := 0, headDim32 := 0 }
  let query := queryOf h a.qgroup qtok a.fp8 i.query
  let toks := if newtok = qtok then tokensOf h qtok i.kv else []
  let bad := again || qtok == 0 || decide (16 < qtok) || (newtok != 0 && newtok != qtok) || decide (h.layers ≤ a.layer)
    || (bit fl 1 && !(maskOk i.mask qtok)) || (!h.latent && decide (128 < h.kvHeads * a.qgroup))
    || (q.map (fun x => x.modelFp)) != some fp || !(queryFinite a.fp8 query) || !(toksFinite toks)
  { seq := (q.map (fun x => x.uid)).getD 0, seqId := leAt b 0 4, qtok := qtok, newtok := newtok, tentative := bit fl 0,
    outOff := leAt b 0x14 4, status := if q.isNone then some .noSeq else if bad then some .badParam else none,
    narrow := false, barrowRead := false, qBase := 0, qStep := newtok != 0, held := 0, query := query,
    mask := if bit fl 1 then maskFrom i.mask i.bitmap else Mask.causal, bmErr := i.bmErr, newToks := toks,
    waiting := true, taken := false, stallMemo := [], checked := false, segs := [], runs := [], folded := 0, arrived := [], acc := [], mem := [], stripe := [],
    keysRead := 0, lenAfter := ((q.bind (fun x => layerOf x a.layer)).map (fun l => l.len)).getD 0,
    tentAfter := ((q.bind (fun x => layerOf x a.layer)).map (fun l => l.tent)).getD 0, raw := (b, i.query, i.mask) }

/-- The parameters of an ATTEND (R90), before it has parts. -/
def attendOf (cmd p : Nat) (e : Entry) : Attend :=
  let fl := fieldOf e 0x13 1
  { cmd := cmd, pitch := p, layer := fieldOf e 0x10 1, qgroup := fieldOf e 0x12 1, fp8 := bit fl 0, fp32Out := bit fl 1,
    minkp := bits fl 2 2, strict := bit fl 4, scale := BitVec.ofNat 32 (fieldOf e 0x14 4),
    cap := BitVec.ofNat 32 (fieldOf e 0x18 4), outWin := fieldOf e 0x30 4, outOffset := fieldOf e 0x34 6, parts := [],
    listed := false, counted := [], lead := none, listedAt := 0, firstAt := none, mergedAt := 0 }

/-- ATTENDs that have started, in the order of their acceptance (R147). (DEDUCED: log entry 86.) -/
def addAttend (a : Attend) (s : State) : State := { s with attends := insertBy (fun b => b.cmd) a s.attends }

/-- The sequences that an ATTEND's parts name are known; one of layer 0 accepted at or after NEXT_HINT clears it (R239). -/
def noteUses (c : Cmd) (uids : List Nat) (s : State) : State :=
  let s := onCmd c.id (fun c => { c with uses := some uids }) s
  if fieldOf c.entry 0x10 1 ≠ 0 then s else
  { s with seqs := upd (fun q => uids.contains q.uid && decide (q.nextHint ≤ c.at_)) (fun q => { q with nextHint := 0 }) s.seqs }

/-- An ATTEND whose entry passed its checks starts: its parts wait for their own (R141, R142). -/
def startAttend (c : Cmd) (p : Nat) (ins : List PartIn) (s : State) : State :=
  let a := attendOf c.id p c.entry
  let ids := ins.map (fun i => leAt i.entry 0 4)
  let parts := (ins.zipIdx).map (fun x =>
    makePart a (fieldOf c.entry 0x20 8) (seqById s p (leAt x.1.entry 0 4)) ((ids.take x.2).contains (leAt x.1.entry 0 4)) x.1)
  startedCmd c.id (noteUses c (ids.filterMap (fun id => (seqById s p id).map (fun q => q.uid))) (addAttend { a with parts := parts } s))

/-- ATTEND (R99): the checks of the whole entry, and its start. -/
def opAttend (c : Cmd) (s : State) : State :=
  let e := c.entry
  let n := fieldOf e 0x11 1 + 1
  let bw := fieldOf e 0x1C 4
  let bo := fieldOf e 0x28 6
  let ow := fieldOf e 0x30 4
  let oo := fieldOf e 0x34 6
  match cmdPitch s c with
  | none => complete c.id .access 0 s
  | some p =>
    if c.stageD then bumpK .pwrStageBusyPower 0 1 (complete c.id .busyPower 0 s)
    else match worstCheck [locate s c.ring bw bo (32 * n) false, locate s c.ring ow oo (16 * n) true] with
    | some st => complete c.id st 0 s
    | none =>
      let go : Got State := (readOperand s c bw bo (32 * n)).bind (fun t =>
        let es := (chunks 32 n t).map (fun b => ((seqById s p (leAt b 0 4)).map (fun q => q.shape), b))
        let pieces := es.flatMap (fun x => entryPieces e x.1 x.2)
        let checks := pieces.map (fun x => if x.1 then locate s c.ring ow (oo + x.2.1) x.2.2 true
          else locate s c.ring bw (bo + x.2.1) x.2.2 false)
        let regions := (0, 16 * n) :: ((pieces.filter (fun x => x.1)).map (fun x => (x.2.1, x.2.1 + x.2.2)))
        match worstCheck checks with
        | some st => .val (complete c.id st 0 s)
        | none =>
          if !(entryOk e) ∨ !(es.all (fun x => seqEntryOk x.2)) ∨ overlaps regions then .val (complete c.id .badParam 0 s)
          else (readParts s c es).bind (fun ins => .val (startAttend c p ins s)))
      gotElse c (fun st s => complete c.id st 0 s) go s

/- Appends (R64 to R66, R93, R94, R125). -/

/-- The state of a sequence as an ATTEND of an acceptance number meets it: one accepted before a SEQ_CLOSE runs in the
state that the SEQ_CLOSE found (R85). -/
def stateFor (s : State) (q : Seq) (order : Nat) : SeqSt :=
  match q.st, q.closer.bind (cmdOf s) with
  | .closing, some k => if order < k.order then q.closedFrom else .closing
  | st, _ => st

/-- An earlier ATTEND still has to pass its checks on the same layer of the sequence, or still reads its operands (R34, R131). -/
def earlierWaits (s : State) (a : Attend) (order : Nat) (p : Part) : Bool :=
  s.cmds.any (fun c => c.op == .attend && c.uses.isNone && decide (c.order < order) && begun c && cmdPitch s c == some a.pitch
    && fieldOf c.entry 0x10 1 == a.layer && mayName s c p.seqId) ||
  s.attends.any (fun b => b.cmd != a.cmd && b.layer == a.layer
    && (match cmdOf s b.cmd with
      | some c => decide (c.order < order)
      | none => false)
    && b.parts.any (fun x => x.seq == p.seq && x.waiting && x.status.isNone))

/-- Positions of new tokens by owner, in position order (R45, R125). -/
def segments (q : Seq) (first : Nat) (toks : List Token) : List (Nat × Nat × List Token) :=
  (toks.zipIdx).foldl (fun (acc : List (Nat × Nat × List Token)) x =>
    let m := pageOwner q ((first + x.2) / 256)
    match acc.getLast? with
    | some g => if g.1 = m then acc.dropLast ++ [(m, g.2.1, g.2.2 ++ [x.1])] else acc ++ [(m, first + x.2, [x.1])]
    | none => [(m, first + x.2, [x.1])]) []

/-- The pages that the work list of an ATTEND reads (R117). -/
def pagesRead (p : Part) : List Nat :=
  (List.range (ceilDiv p.held 256)).filter (fun g => readsPage p.mask p.held g ((List.range p.qtok).map (queryPos p)))

/-- A page is read as a crate (R72): full of committed tokens before the ATTEND's own append. -/
def crateForm (before page : Nat) : Bool := decide (256 * (page + 1) ≤ before)

/-- Bits of MINKP (R109). -/
def minkpBits (n : Nat) : Nat := if n = 1 then 8 else if n = 2 then 16 else 0

/-- Members of a stripe other than this device, which leads it. -/
def otherMembers (s : State) (q : Seq) : List (Nat × Option Nat) :=
  if q.striped && q.ownIndex == 0 then memberPeers s q.members else []

/-- A member of a stripe cannot be reached (R98). -/
def memberLost (s : State) (q : Seq) : Bool :=
  (otherMembers s q).any (fun m => match m.2 with
    | some r => !((peerOf s r).reachable)
    | none => true)

/-- The first append of a part is this device's own, need not wait, and cannot get its barrow slot (R65). -/
def lacksSlot (s : State) (a : Attend) (q : Seq) (first : Nat) (p : Part) : Bool :=
  match (segments q first p.newToks).head?, layerOf q a.layer with
  | some (m, _, toks), some l => m == q.ownIndex && !(appendWaits l toks.length)
      && !(poolRoomFor s q.pitch (slotsNeeded l toks.length * barrowSizeOf q.shape))
  | _, _ => false

/-- The checks of R98 that follow the state check, in order; `before` and `tent` are the layer's counts. -/
def laterChecks (s : State) (a : Attend) (q : Seq) (before tent : Nat) (p : Part) (narrow : Bool) : Option Status :=
  let n := p.newtok
  if narrow ∧ a.strict then some .narrowKeys
  else match p.bmErr with
  | some st => some st
  | none =>
    if 0 < n ∧ (seqLength q + 64 < before + tent + n ∨ 2097152 < before + tent + n) then some .limit
    else if a.lead.isNone ∧ memberLost s q then some (if lacksSlot s a q (before + tent) p then .noSpace else .peerLost)
    else none

/-- Store an ATTEND's part that has passed its state check: positions (R94), what follows it (R41), appends. A striped part
lists every member, the lead itself as answered. -/
def passState (a : Attend) (i : Nat) (c : Cmd) (q : Seq) (l : Layer) (p : Part) (s : State) : State :=
  let base := l.len + l.tent
  let p := { p with
    checked := true, held := base + p.newtok, qBase := if p.newtok = 0 then base - 1 else base }
  let narrow := (pagesRead p).any (fun g => decide ((if crateForm l.len g then keyBits q.shape.format else 16) < minkpBits a.minkp))
  let s := onSeq q.uid (fun q => { q with
    st := if q.st = .parked then .active else q.st, lastAttend := c.at_ }) s
  match laterChecks s a q l.len l.tent p narrow with
  | some st => onPart a.cmd i (fun _ => { p with status := some st, waiting := false }) s
  | none =>
    let keys := sumBy (fun g => min 256 (p.held - 256 * g)) (pagesRead p)
    let segs := match a.lead with
      | some (first, n) => if n = 0 then [] else [(q.ownIndex, first, p.newToks)]
      | none => segments q base p.newToks
    onPart a.cmd i (fun _ => { p with
      narrow := narrow, keysRead := keys, segs := segs,
      barrowRead := (pagesRead p).any (fun g => !(crateForm l.len g)),
      mem := if q.striped && q.ownIndex == 0 then (0, 0) :: (otherMembers s q).map (fun m => (m.1, 0xFE)) else [] }) s

/-- The state check of R98 (R40, R66), when it is the part's turn. A query without keys sits before position 0. -/
def checkState (a : Attend) (i : Nat) (c : Cmd) (q : Seq) (l : Layer) (p : Part) (s : State) : State :=
  let st := stateFor s q c.order
  let span := p.tentative && q.striped && p.newtok != 0
    && l.len / 4096 != (l.len + l.tent + p.newtok - 1) / 4096
  if st = .open_ ∨ st = .closing ∨ st = .free ∨ (0 < p.newtok ∧ p.tentative = false ∧ 0 < l.tent) ∨ span then failPart a.cmd i .badState s
  else if st = .damaged then failPart a.cmd i .poison s
  else passState a i c q l p s

/-- The forward of a part to a member (R124), with the new tokens it owns. (DEDUCED: log entry 31.) -/
def forwardPart (a : Attend) (i : Nat) (c : Cmd) (q : Seq) (p : Part) (m first : Nat) (toks : List Token) (s : State) : State :=
  let f : Forward :=
    { pitch := a.pitch, entry := c.entry, seqEntry := p.raw.1, query := p.raw.2.1, mask := p.raw.2.2,
      newFirst := first, newToks := toks.map tokenBytesOf, held := p.held, qBase := p.qBase }
  let s := onPart a.cmd i (fun p => { p with mem := p.mem.map (fun x => if x.1 = m then (m, 0xFF) else x) }) s
  match (otherMembers s q).find? (fun x => x.1 == m) with
  | some (_, some r) => tell r (.forward f) s
  | _ => s

/-- The layer's counts after an append of a part, as its status record gives them (R97, R128). -/
def noteLen (cmd i : Nat) (s : State) : State :=
  match partOf s cmd i with
  | some (a, p) => match (seqOf s p.seq).bind (fun q => layerOf q a.layer) with
    | some l => onPart cmd i (fun p => { p with lenAfter := l.len, tentAfter := l.tent }) s
    | none => s
  | none => s

/-- A member takes the layer's length from the forward: the tokens of owners that refused are not there, and what it held
past that length goes (R125). (DEDUCED: log entry 31.) -/
def syncLayer (q : Seq) (p : Part) (l : Layer) : Layer :=
  let held := p.held - p.newtok
  putBarrow q ((barrowToks l).take (ownCount q held - 256 * l.sealed)) { l with len := held - l.tent }

/-- The first append of a part that is left. The answer says whether another may follow at once. (DEDUCED: log entry 31.) -/
def appendHead (a : Attend) (i : Nat) (c : Cmd) (q : Seq) (l : Layer) (p : Part) (s : State) : Bool × State :=
  match p.segs with
  | [] => (false, s)
  | (m, first, toks) :: rest =>
    if m = q.ownIndex then
      if appendWaits l toks.length then (false, s)
      else if !(poolRoomFor s q.pitch (slotsNeeded l toks.length * barrowSizeOf q.shape)) then (false, failPart a.cmd i .noSpace s)
      else
        let n := match a.lead with
          | some _ => first + toks.length - (l.len + l.tent)
          | none => toks.length
        let s := noteLen a.cmd i (appendTokens q.uid a.layer n toks p.tentative (onPart a.cmd i (fun p => { p with segs := rest }) s))
        match a.lead, forwardPeer c.ring, (seqOf s q.uid).bind (fun q => layerOf q a.layer) with
        | some _, some r, some l => (true, tell r (.memberDone
            { member := q.ownIndex, status := 0, narrow := false, layerLen := l.len }) s)
        | _, _, _ => (true, s)
    else if p.mem.contains (m, 0xFE) then (false, forwardPart a i c q p m first toks s)
    else (false, s)

/-- The runs of a part on this device (R31, R72, R141): crate runs of four pages, then the barrow run. -/
def partRuns (s : State) (a : Attend) (q : Seq) (l : Layer) (before : Nat) (p : Part) : List (List Tile) :=
  let own := (pagesRead p).filter (fun g => !q.striped || pageOwner q g == q.ownIndex)
  let crates := own.filter (crateForm before)
  let tile := fun (g : Nat) =>
    let lp := localPage q g
    let src : TileSrc := match (if lp < l.sealed then (l.pages[lp]?).getD none else none).bind (crateOf s) with
      | some c => .crate c.id ((topHandle c).getD { tier := 0, device := 0, pitch := a.pitch, format := 0, location := 0 })
      | none => .awaitSwap
    ({ page := g, src := src } : Tile)
  let groups := (distinct (crates.map (fun g => g / 4))).map (fun n => (crates.filter (fun g => g / 4 == n)).map tile)
  let barrow := (own.filter (fun g => !(crateForm before g))).map (fun g =>
    let i := localPage q g - l.sealed
    ({ page := g, src := .barrow (if i = 0 then l.cur else otherSlot l) (((barrowToks l).drop (256 * i)).take 256) } : Tile))
  groups ++ (if barrow.isEmpty then [] else [barrow])

/-- Crates and slots that a work list reads count a reader for each tile, and crates below DRAM are fetched (R46, R63,
R131). -/
def holdTiles (uid layer order : Nat) (tiles : List Tile) (s : State) : State :=
  each tiles (fun t s => match t.src with
    | .crate id _ => queueFetch .demand order s.localTime id (onCrate id (fun c => { c with readers := c.readers + 1 }) s)
    | .barrow slot _ => onLayer uid layer (fun l => let b := slotOf l slot; putSlot slot { b with readers := b.readers + 1 } l) s
    | .awaitSwap => s) s

/-- A sequence without a hint demands pages of a layer: the same pages of the later layers are scheduled directly behind
them, with use time now (R242). -/
def lookAhead (q : Seq) (layer order : Nat) (tiles : List Tile) (s : State) : State :=
  if q.nextHint ≠ 0 then s else
  let below := tiles.filterMap (fun t => match t.src with
    | .crate id _ => if ((crateOf s id).map inDram).getD true then none else some (localPage q t.page)
    | _ => none)
  each ((List.range q.layers.length).filter (fun j => decide (layer < j))) (fun j s =>
    each below (fun lp s => match (layerOf q j).bind (fun l => (l.pages[lp]?).getD none) with
      | some k => queueFetch .scheduled order s.localTime k s
      | none => s) s) s

/-- This device has appended its own tokens of a part: it takes its work list, the forms of its pages as they stand then
(R72), so that no later swap changes them. -/
def takeRuns (a : Attend) (i : Nat) (c : Cmd) (q : Seq) (l : Layer) (p : Part) (s : State) : State :=
  let before := if p.tentative then l.len else p.held - p.newtok - l.tent
  let rs := partRuns s a q l before p
  let waits := countBy (fun (r : List Tile) => r.any (fun t => t.src == .awaitSwap)) rs
  let s := bump .hallSealStatSealWaits 0 waits (lookAhead q a.layer c.order (rs.flatMap id) (holdTiles q.uid a.layer c.order (rs.flatMap id) s))
  onPart a.cmd i (fun p => { p with taken := true, runs := rs }) s

/-- A part has appended everything: it waits no more, and members that own no new token get their forward. -/
def takeList (a : Attend) (i : Nat) (c : Cmd) (q : Seq) (l : Layer) (p : Part) (s : State) : State :=
  -- A member learns of tokens that others own from the forward.
  let short := p.held - (l.len + l.tent)
  let s := if short = 0 then s else onLayer q.uid a.layer (fun l =>
    if p.tentative then { l with tent := l.tent + short } else { l with len := l.len + short }) s
  let s := onPart a.cmd i (fun p => { p with
    waiting := false, lenAfter := l.len + (if p.tentative then 0 else short),
    tentAfter := l.tent + (if p.tentative then short else 0) }) s
  each (p.mem.filter (fun m => m.2 == 0xFE)) (fun m => forwardPart a i c q p m.1 p.held []) s

/-- A part goes as far as it can: its turn, its state check, its appends, its list. The fuel bounds the appends. -/
def partStep (cmd i : Nat) : Nat → State → State
  | 0, s => s
  | n + 1, s => match partOf s cmd i, cmdOf s cmd with
    | some (a, p), some c =>
      if p.status.isSome ∨ p.waiting = false ∨ earlierWaits s a c.order p then s else
      match seqOf s p.seq with
      | none => failPart cmd i .noSeq s
      | some q => match layerOf q a.layer with
        | none => failPart cmd i .badParam s
        | some l =>
          if p.checked = false then
            let l := if a.lead.isSome then syncLayer q p l else l
            let p := { p with lenAfter := l.len, tentAfter := l.tent }
            partStep cmd i n (checkState a i c q l p (onPart cmd i (fun _ => p) (onLayer q.uid a.layer (fun _ => l) s)))
          else if p.taken = false ∧ !(p.segs.any (fun g => g.1 == q.ownIndex)) then partStep cmd i n (takeRuns a i c q l p s)
          else if p.segs.isEmpty then takeList a i c q l p s
          else
            let r := appendHead a i c q l p s
            if r.1 then partStep cmd i n r.2 else r.2
    | _, _ => s

/- The work list (R119, R141 to R144). -/

/-- The client class of a sequence in its pitch; 15 where its client has no row. -/
def seqClass (s : State) (q : Seq) : Nat := (clientClass s q.pitch q.client).getD 15

/-- A run as a group of one. -/
def runWork (s : State) (a : Attend) (c : Cmd) (i : Nat) (p : Part) (q : Seq) (r : List Tile × Nat) : Work :=
  let rows := p.qtok * a.qgroup * (if a.fp8 then 1 else 2)
  { cmd := a.cmd, pitch := a.pitch, cls := seqClass s q, prio := q.cls, entry := i,
    first := ((r.1.head?).map (fun t => t.page)).getD 0, heads := if q.shape.latent then 1 else q.shape.kvHeads, fp8 := a.fp8,
    runs := [{ part := i, index := r.2, rows := rows, tiles := r.1 }], order := c.order }

/-- The crates of a run, where all its tiles are crates. -/
def runCrates (w : Work) : Option (List (Nat × Nat)) :=
  let l := (workTiles w).filterMap (fun t => match t.src with
    | .crate id _ => some (t.page, id)
    | _ => none)
  if l.length = (workTiles w).length then some l else none

/-- Group runs with the same pages, handles and class (R119), in entry order. -/
def groupWorks (l : List Work) : List Work :=
  l.foldl (fun (acc : List Work) w =>
    let same := fun (x : Work) => x.cls == w.cls && (runCrates x).isSome && runCrates x == runCrates w
    match acc.find? same with
    | some x => upd (fun y => y == x) (fun y => { y with runs := y.runs ++ w.runs, prio := max y.prio w.prio }) acc
    | none => acc ++ [w]) []

/-- The runs of an ATTEND's parts. -/
def attendWorks (s : State) (a : Attend) (c : Cmd) : List Work :=
  (a.parts.zipIdx).flatMap (fun x => match x.1.status, seqOf s x.1.seq with
    | none, some q => (x.1.runs.zipIdx).map (runWork s a c x.2 x.1 q)
    | _, _ => [])

/-- The layer counts that the record of a part that failed before its turn reports (R97): those after the entry of the same
sequence that ran, else the layer's own. (DEDUCED: log entry 29.) -/
def countsAfter (s : State) (a : Attend) (p : Part) : Part :=
  if p.waiting = false then p else
  match a.parts.find? (fun x => x.seq == p.seq && !x.waiting), (seqOf s p.seq).bind (fun q => layerOf q a.layer) with
  | some x, _ => { p with lenAfter := x.lenAfter, tentAfter := x.tentAfter }
  | none, some l => { p with lenAfter := l.len, tentAfter := l.tent }
  | none, none => p

/-- Every part of an ATTEND has passed or failed: its runs are grouped and placed (R144). The parts keep the memory of the last
ATTEND's stalls, and a new one begins. -/
def listAttend (cmd : Nat) (s : State) : State :=
  match s.attends.find? (fun a => a.cmd == cmd), cmdOf s cmd with
  | some a, some c =>
    if a.listed ∨ a.parts.any (fun p => p.waiting && (p.status.isNone || earlierWaits s a c.order p)) then s else
    let memo := fun (p : Part) => { p with stallMemo := ((seqOf s p.seq).map (fun q => q.lastStalls)).getD [] }
    let parts := a.parts.map (fun p => memo (countsAfter s a p))
    let list_ := fun (b : Attend) => { b with parts := parts, listed := true, listedAt := s.localTime, mergedAt := s.localTime }
    let s := { s with attends := upd (fun b => b.cmd == cmd) list_ s.attends }
    let uids := (a.parts.filter (fun p => p.status.isNone)).map (fun p => p.seq)
    let s := { s with seqs := upd (fun q => uids.contains q.uid) (fun q => { q with lastStalls := [] }) s.seqs }
    each (groupWorks (attendWorks s a c)) placeWork s
  | _, _ => s

/-- A tile that waits for a swap, with the crate that the page now names (R72). -/
def resolveTile (s : State) (uid layer : Nat) (t : Tile) : Tile :=
  match t.src with
  | .awaitSwap => match (seqOf s uid).bind (fun q => (layerOf q layer).bind (fun l =>
      let lp := localPage q t.page
      (if lp < l.sealed then (l.pages[lp]?).getD none else none).bind (crateOf s))) with
    | some c => { t with src := .crate c.id ((topHandle c).getD { tier := 0, device := 0, pitch := c.pitch, format := 0, location := 0 }) }
    | none => t
  | _ => t

/-- The tiles of a part that wait for swaps take their crates. (DEDUCED: log entry 27.) -/
def resolvePart (a : Attend) (i : Nat) (p : Part) (s : State) : State :=
  let news := p.runs.map (fun r => r.map (resolveTile s p.seq a.layer))
  if news = p.runs then s else
  let fresh := (p.runs.flatMap id).zip (news.flatMap id) |>.filterMap (fun x => if x.1 = x.2 then none else some x.2)
  let order := ((cmdOf s a.cmd).map (fun c => c.order)).getD s.order
  let s := holdTiles p.seq a.layer order fresh (onPart a.cmd i (fun p => { p with runs := news }) s)
  mapWorks (fun w => if w.cmd = a.cmd then { w with runs := w.runs.map (fun r => if r.part = i then
    { r with tiles := (news[r.index]?).getD r.tiles } else r) } else w) s

/-- No copy of a tile's crate is left (R131). (DEDUCED: log entry 27.) -/
def tileLost (s : State) (t : Tile) : Bool :=
  match t.src with
  | .crate id _ => !(tileReadable s t) && (match crateOf s id with
    | some c => (sourceTier c).isNone && c.fetch.isNone
    | none => true)
  | _ => false

/-- A part that still has to read a lost crate completes with POISON (R131). (DEDUCED: log entry 27.) -/
def poisonPart (a : Attend) (i : Nat) (p : Part) (s : State) : State :=
  let open_ := (p.runs.zipIdx).filter (fun x => decide (p.folded ≤ x.2) && !(p.arrived.any (fun y => y.1 == x.2)))
  if p.status.isNone && !p.waiting && open_.any (fun x => x.1.any (tileLost s)) then poisonAfter a.cmd i s else s

/- Stripes (R124 to R128). -/

/-- When a member has failed and none is awaited, the part takes the first status in member order (R128). -/
def stripeFail (a : Attend) (i : Nat) (p : Part) (s : State) : State :=
  let failed := p.mem.filter (fun m => m.2 != 0 && m.2 < 0xFE)
  if failed.isEmpty ∨ p.status.isSome then s else
  let mem := p.mem.filter (fun m => m.2 != 0xFE)
  let s := onPart a.cmd i (fun p => { p with mem := mem, segs := [] }) s
  if mem.any (fun m => m.2 == 0xFF) then s
  else match (sortBy (fun (m : Nat × Nat) => m.1) failed).head? with
    | none => s
    | some m => failPart a.cmd i ((Status.ofCode m.2).getD .peerLost) s

/-- Every member's partial is present: the lead merges them in stripe order (R127). (DEDUCED: log entry 31.) -/
def stripeMerge (a : Attend) (i : Nat) (p : Part) (s : State) : State :=
  if p.mem.isEmpty ∨ p.status.isSome ∨ p.waiting ∨ p.folded ≠ p.runs.length ∨ p.mem.any (fun m => m.2 != 0) then s else
  match seqOf s p.seq with
  | none => s
  | some q =>
    let n := p.qtok * headsOf q.shape a.qgroup
    let own := if p.acc.isEmpty then List.replicate n none else p.acc
    let ms := sortBy (fun (x : Nat × List PartialRow) => x.1) p.stripe
    let rows := (own.zipIdx).map (fun x =>
      mergeStripe (outDim q.shape) (x.1 :: ms.map (fun m => ((m.2)[x.2]?).bind accOf)))
    bump .stallWeighStatStripeMerges 0 1 (onPart a.cmd i (fun p => { p with acc := rows, mem := [] }) s)

/-- What every part of every ATTEND may go on with. -/
def attendsGoOn (s : State) : State :=
  let all := fun (s : State) => s.attends.flatMap (fun a => (List.range a.parts.length).map (fun i => (a.cmd, i)))
  let on_ := fun (f : Attend → Nat → Part → State → State) (s : State) => each (all s) (fun x s =>
    match partOf s x.1 x.2 with
    | some (a, p) => f a x.2 p s
    | none => s) s
  let s := each (all s) (fun x => partStep x.1 x.2 8) s
  let s := on_ stripeMerge (on_ stripeFail (on_ poisonPart (on_ resolvePart s)))
  scheduleAll (each (s.attends.map (fun a => a.cmd)) listAttend s)

/-- STRIPE_PARTIAL_RECEIVE (R127, R128): the first copy of a member's partial counts. -/
def stripePartial (cmd i m : Nat) (rows : List PartialRow) (narrow : Bool) (s : State) : State :=
  match partOf s cmd i with
  | none => s
  | some (a, p) =>
    if !(p.mem.contains (m, 0xFF)) ∨ (p.segs.head?.map (fun g => g.1)) = some m then s
    else
      let p := { p with narrow := p.narrow || narrow, stripe := p.stripe ++ [(m, rows)],
                        mem := p.mem.map (fun x => if x.1 = m then (m, 0) else x) }
      stripeMerge a i p (onPart cmd i (fun _ => p) s)

/-- A member ends its append or fails its part (R125, R128). -/
def memberPart (cmd i : Nat) (d : MemberDone) (s : State) : State :=
  match partOf s cmd i with
  | none => s
  | some (a, p) =>
    if !(p.mem.contains (d.member, 0xFF)) then s
    else if d.status = 0 then
      (match p.segs with
      | (m, _, toks) :: rest =>
        if m = d.member then noteLen cmd i (appendTokens p.seq a.layer toks.length [] p.tentative
          (onPart cmd i (fun p => { p with segs := rest, narrow := p.narrow || d.narrow }) s))
        else s
      | [] => s)
    else onPart cmd i (fun p => { p with
      segs := [], mem := p.mem.map (fun x => if x.1 = d.member then (d.member, d.status) else x) }) s

/-- STRIPE_MEMBER_COMPLETE (R76, R125). -/
def stripeMember (cmd i : Nat) (d : MemberDone) (s : State) : State :=
  if s.attends.any (fun a => a.cmd == cmd) then memberPart cmd i d s
  else memberAnswer cmd d.member d.status 0 s

/-- A peer is lost to the stripes that it belongs to (R128, R359). -/
def stripePeerLost (r : Nat) (s : State) : State :=
  let gone := fun (q : Seq) => (memberPeers s q.members).filterMap (fun m => if m.2 = some r then some m.1 else none)
  let s := each (s.attends.flatMap (fun a => (a.parts.zipIdx).map (fun x => (a.cmd, x.2)))) (fun x s =>
    match partOf s x.1 x.2 with
    | some (_, p) => match seqOf s p.seq with
      | some q => onPart x.1 x.2 (fun p => { p with
          mem := p.mem.map (fun m => if (gone q).contains m.1 ∧ (m.2 = 0xFF ∨ m.2 = 0xFE) then (m.1, Status.peerLost.code) else m) }) s
      | none => s
    | none => s) s
  let waiting := s.cmds.filter (fun c => c.members.any (fun m => m.2 == pendingCode))
  each waiting (fun c s => each (c.peers.filter (fun m => m.2 == r)) (fun m =>
    memberAnswer c.id m.1 Status.peerLost.code 0) s) s

/- The result (R95 to R100). -/

/-- A part has its outcome. -/
def partReady (p : Part) : Bool := p.status.isSome || (!p.waiting && p.folded == p.runs.length && p.mem.isEmpty)

/-- The rows of a part, one for each query token and head. -/
def partRows (a : Attend) (h : Shape) (p : Part) : List (Option Acc) :=
  if p.acc.isEmpty then List.replicate (p.qtok * headsOf h a.qgroup) none else p.acc

/-- The output bytes of a part (R53, R96). -/
def outputBytes (a : Attend) (h : Shape) (p : Part) : Bytes :=
  let n := headsOf h a.qgroup
  let dv := outDim h
  (groupsOf n p.qtok (partRows a h p)).flatMap (fun tok =>
    if a.fp32Out then
      let rs := tok.map (partialRow dv)
      (rs.flatMap (fun r => r.o.flatMap (fun x => leBytes 4 x.toNat)))
        ++ rs.flatMap (fun r => leBytes 4 r.m.toNat ++ leBytes 4 r.l.toNat)
    else tok.flatMap (fun r => (finalRow dv r).1.flatMap (fun x => leBytes 2 x.toNat)))

/-- Query tokens of a part without a visible key (R97). -/
def emptyTokens (a : Attend) (h : Shape) (p : Part) : List Nat :=
  let rows := groupsOf (headsOf h a.qgroup) p.qtok (partRows a h p)
  (List.range p.qtok).filter (fun i => ((rows[i]?).getD []).all (fun r => r.isNone))

/-- Rows in which a rounding saturated (R133). -/
def saturatedRows (a : Attend) (h : Shape) (p : Part) : Nat :=
  countBy (fun (r : Option Acc) => match r with
    | some x => x.saturated || (!a.fp32Out && (finalRow (outDim h) r).2)
    | none => false) (partRows a h p)

/-- A status record (R97). (DEDUCED: log entry 29.) -/
def statusRecord (a : Attend) (h : Shape) (p : Part) : Bytes :=
  let st := p.status.getD .ok
  let empty := if st = .ok then emptyTokens a h p else []
  leBytes 1 st.code ++ leBytes 1 (b2n (st == .ok && p.narrow) + 2 * b2n (!empty.isEmpty) + 4 * b2n (st == .ok && p.barrowRead))
    ++ leBytes 2 (sumBy (fun i => 2 ^ i) empty) ++ leBytes 4 (p.lenAfter % 2 ^ 22 + p.tentAfter % 128 * 2 ^ 22)
    ++ leBytes 4 ((if st = .ok then p.keysRead else 0) % 2 ^ 22) ++ leBytes 4 0

/-- The counters of a part (R132, R133), also where OUT_WIN turns out revoked and its results are discarded.
(DESIGN CHOICE: log entry 66.) -/
def countPart (a : Attend) (h : Shape) (p : Part) (s : State) : State :=
  let n := a.pitch
  match p.status.getD .ok with
  | .ok =>
    let s := bump .pitchAttendStatParts n 1 (bump .pitchAttendStatNarrow n (b2n p.narrow) s)
    bump .pitchAttendFaultEmptyTokens n (emptyTokens a h p).length (bump .pitchAttendFaultSaturated n (saturatedRows a h p) s)
  | .narrowKeys => bump .pitchAttendStatNarrowKeys n 1 s
  | .poison => bump .pitchAttendFaultPoisoned n 1 s
  | .peerLost => bump .pitchAttendFaultPeerLost n 1 s
  | _ => s

/-- The shape of a part's sequence. -/
def partShape (s : State) (p : Part) : Shape :=
  ((seqOf s p.seq).map (fun q => q.shape)).getD { layers := 0, format := 0, latent := false, kvHeads := 0, headDim32 := 0 }

/-- A result write of a command: placed here, or sent to the peer without FINAL (R369). -/
def resultWrite (cmd : Nat) (pl : Place) (bs : Bytes) (s : State) : State :=
  match pl with
  | .peer conn w off => sendMsg conn opWrite w off false (.result cmd) bs s
  | _ => writePlace pl bs s

/-- The result writes of an ATTEND: outputs first, the status records last (R95, R100). -/
def attendWrites (s : State) (a : Attend) : List (Nat × Bytes) :=
  (a.parts.filter (fun p => p.status.isNone)).map (fun p => (p.outOff, outputBytes a (partShape s p) p))
    ++ [(0, a.parts.flatMap (fun p => statusRecord a (partShape s p) p))]

/-- The completion status of an ATTEND (R99): the first part that is not OK. -/
def attendStatus (a : Attend) : Status := ((a.parts.filterMap (fun p => p.status)).head?).getD .ok

/-- A member's part of a stripe ends: the lead gets its partial, or its status (R124). Rows whose rounding saturated here count
here (R133). (DESIGN CHOICE: log entry 88.) -/
def memberResult (a : Attend) (c : Cmd) (s : State) : State :=
  let s := { s with attends := drop (fun b => b.cmd == a.cmd) s.attends, cmds := drop (fun x => x.id == c.id) s.cmds }
  let s := each (a.parts.filter (fun p => p.status.isNone)) (fun p s =>
    bump .pitchAttendFaultSaturated a.pitch (countBy (fun (r : Option Acc) => (r.map Acc.saturated).getD false)
      (partRows a (partShape s p) p)) s) s
  match forwardPeer c.ring, a.parts with
  | some r, p :: _ =>
    let h := partShape s p
    let own := ((seqOf s p.seq).map (fun q => q.ownIndex)).getD 0
    (match p.status with
    | none => tell r (.stripePartial ((partRows a h p).map (partialRow (outDim h))) p.narrow) s
    | some st => tell r (.memberDone { member := own, status := st.code, narrow := p.narrow, layerLen := p.lenAfter }) s)
  | _, _ => s

/-- ATTEND_RESULT (R100): every output, then the status records, then the completion. A revoked OUT_WIN ends it with
REVOKED, and its parts count all the same (R132). (DESIGN CHOICE: log entry 88.) -/
def attendResult (cmd : Nat) (s : State) : State :=
  match s.attends.find? (fun a => a.cmd == cmd), cmdOf s cmd with
  | some a, some c =>
    if a.listed = false ∨ a.parts.any (fun p => !(partReady p)) then s
    else if a.lead.isSome then memberResult a c s
    else
      let ws := attendWrites s a
      let places := ws.map (fun w => locate s c.ring a.outWin (a.outOffset + w.1) w.2.length true)
      match worstCheck places with
      | some st =>
        let s := each a.parts (fun p s => countPart a (partShape s p) p s) s
        complete cmd st 0 { s with attends := drop (fun b => b.cmd == cmd) s.attends }
      | none =>
        let held := (places.zip ws).filterMap (fun x => match x.1 with
          | .ok (.dram p o) => if mustSnoop s p o x.2.2.length true then some (p, o, x.2.2.length) else none
          | _ => none)
        if !held.isEmpty then onCmd cmd (fun x => { x with wait := .snoop }) (each held (fun x => snoop x.1 x.2.1 x.2.2) s)
        else
          let s := each (places.zip ws) (fun x s => match x.1 with
            | .ok pl => resultWrite cmd pl x.2.2 s
            | .error _ => s) s
          let s := each a.parts (fun p s => countPart a (partShape s p) p s) s
          let ok := countBy (fun (p : Part) => p.status.isNone) a.parts
          let t : Trace :=
            { pitch := a.pitch, ring := c.ring, tag := c.tag, accepted := c.at_, listed := a.listedAt,
              first := a.firstAt.getD a.listedAt, merged := a.mergedAt, done := s.localTime }
          writeTrace t (finish cmd (attendStatus a) ok { s with attends := drop (fun b => b.cmd == cmd) s.attends })
  | _, _ => s

/-- Every run and context of an ATTEND is discarded (R169): its tiles are released. -/
def discardAttend (cmd : Nat) (s : State) : State :=
  match s.attends.find? (fun a => a.cmd == cmd) with
  | none => s
  | some a =>
    let s := each (List.range a.parts.length) (withdrawPart cmd) s
    { s with attends := drop (fun b => b.cmd == cmd) s.attends }

/-- The bytes of a bitmap row that hold columns of pages this member owns (R45, R115): first and end, for each of its runs of
4,096 positions that the span meets. -/
def ownColumns (q : Seq) (mask : Bytes) : List (Nat × Nat) :=
  let lo := leAt mask 8 4
  let hi := lo + leAt mask 0xC 4
  ((List.range (hi / 4096 + 1)).filter (fun n => ownsPos q (4096 * n) && decide (lo < 4096 * (n + 1)) && decide (4096 * n < hi))).map (fun n =>
    ((max lo (4096 * n) - lo) / 8, ceilDiv (min hi (4096 * (n + 1)) - lo) 8))

/-- A row of the bitmap as a member knows it: the bytes it read, zeros elsewhere. -/
def rowOf (len : Nat) (l : List ((Nat × Nat) × Bytes)) : Bytes :=
  let r := l.foldl (fun (acc : Bytes) x => acc ++ List.replicate (x.1.1 - acc.length) 0 ++ x.2.drop (acc.length - x.1.1)) []
  r ++ List.replicate (len - r.length) 0

/-- A member reads the bitmap columns of its own pages, row by row, from the lead's BM_WIN (R124). (DEDUCED: log entry 31.) -/
def memberBitmap (s : State) (c : Cmd) (q : Option Seq) (qtok : Nat) (mask : Bytes) : Got (Bytes × Option Status) :=
  match q with
  | none => .val ([], none)
  | some q =>
    if hasBitmap mask qtok = false then .val ([], none) else
    let len := leAt mask 0xC 4 / 8
    let cols := ownColumns q mask
    let row := fun (r : Nat) => cols.foldl (fun (acc : Got (List ((Nat × Nat) × Bytes))) x => acc.bind (fun l =>
      (readOperand s c (leAt mask 0x10 4) (leAt mask 0x14 6 + r * len + x.1) (x.2 - x.1)).bind (fun b => .val (l ++ [(x, b)])))) (.val [])
    let all := (List.range (leAt mask 2 1)).foldl (fun (acc : Got Bytes) r => acc.bind (fun b => (row r).bind (fun l =>
      .val (b ++ rowOf len l)))) (.val [])
    match all with
    | .val b => .val (b, none)
    | .bad st => .val ([], some st)
    | .wait w => .wait w
    | .held p o n => .held p o n
    | .remote w o n => .remote w o n

/-- A forwarded part of an ATTEND starts at a member (R124), with the bitmap it has read. (DEDUCED: log entry 31.) -/
def startForward (c : Cmd) (p : Nat) (f : Forward) (bitmap : Bytes × Option Status) (s : State) : State :=
  let a := { attendOf c.id p c.entry with lead := some (f.newFirst, f.newToks.length) }
  let q := seqById s p (leAt f.seqEntry 0 4)
  let part := makePart a (fieldOf c.entry 0x20 8) q false
    { entry := f.seqEntry.take 5 ++ leBytes 1 0 ++ f.seqEntry.drop 6, query := f.query, kv := [], mask := f.mask,
      bitmap := bitmap.1, bmErr := bitmap.2 }
  let h := (q.map (fun x => x.shape)).getD { layers := 0, format := 0, latent := false, kvHeads := 0, headDim32 := 0 }
  let newtok := leAt f.seqEntry 5 1
  let part := { part with
    newtok := newtok, qStep := newtok != 0, newToks := f.newToks.flatMap (tokensOf h 1), held := f.held }
  startedCmd c.id (noteUses c (q.map (fun q => q.uid)).toList (addAttend { a with parts := [part] } s))

/-- A forwarded part of an ATTEND at a member (R124): it starts once the member has read its columns of the bitmap. A member
in supply stage D takes no new one (R86, R535). (DEDUCED: log entry 31.) -/
def opForward (c : Cmd) (p : Nat) (f : Forward) (s : State) : State :=
  let q := seqById s p (leAt f.seqEntry 0 4)
  let mine := { s with forwards := drop (fun x => x.1 == c.id) s.forwards }
  if c.stageD then bumpK .pwrStageBusyPower 0 1 (complete c.id .busyPower 0 mine) else
  let go := (memberBitmap s c q (leAt f.seqEntry 4 1) f.mask).bind (fun b => .val (startForward c p f b mine))
  gotElse c (fun st s => complete c.id st 0 s) go s

end Sys2Proof.Machine
end

