-- ==== Sys2Proof/Machine/PrefixStore.lean ====
section
/-! DEFINITION. The prefix store: keys, lookups, publishing, dropping, and the home's side of the stock book
(R187 to R232). -/
namespace Sys2Proof.Machine

/- Keys (R187 to R192). -/

/-- The Phitetis key of page p over its 1,024 B of token ids (R187, R188). -/
def phitetis (parent : Bytes) (fp adapter p : Nat) (toks : Bytes) : Bytes :=
  let k := (sha384 (parent ++ leBytes 8 fp ++ leBytes 2 adapter ++ leBytes 2 0 ++ leBytes 4 (256 * p) ++ toks)).take 16
  if k.all (fun b => b == 0) then 1 :: k.drop 1 else k

/-- The keys of successive pages from page p. -/
def keysFrom (fp adapter : Nat) : Bytes → Nat → List Bytes → List Bytes
  | _, _, [] => []
  | parent, p, t :: rest =>
    let k := phitetis parent fp adapter p t
    k :: keysFrom fp adapter k (p + 1) rest

/-- The parent of page 0. -/
def zeroKey : Bytes := List.replicate 16 0

/- Windows of these commands. -/

/-- What a write of results gives. -/
inductive Wrote where
  | bad (st : Status)
  /-- Lines are being taken back from the host first (R449). -/
  | later (s : State)
  | done (s : State)

/-- Write results of a command into a window. (DEDUCED: log entry 33.) -/
def writeResult (c : Cmd) (win off : Nat) (bs : Bytes) (s : State) : Wrote :=
  match locate s c.ring win off bs.length true with
  | .error e => .bad e
  | .ok (.dram p o) => if mustSnoop s p o bs.length true then .later (snoop p o bs.length s) else .done (writeDram p o bs s)
  | .ok pl => .done (resultWrite c.id pl bs s)

/-- The prefix scope of a pitch (R193). -/
def scopeOf (s : State) (p : Nat) : Nat := rd s .pitchPrefixCfgScope p

/- Popularity and replicas (R199, R200). -/

/-- POP of a home entry rises; it may become HOT, and is then pushed. (DEDUCED: log entry 34.) -/
def raisePop (scope : Nat) (key : Bytes) (n : Nat) (s : State) : State :=
  let same := fun (e : StockEntry) => e.scope == scope && e.key == key
  match s.homes.find? same with
  | none => s
  | some e =>
    let pop := min 65535 (e.pop + n)
    let hot := e.hot || decide (rd s .hallStockCfgHotPop 0 ≤ pop)
    let e' := { e with pop := pop, hot := hot }
    let s := { s with homes := upd same (fun _ => e') s.homes }
    if hot && !e.hot then pushReplica e' s else s

/-- A page that other devices answered for has been returned once more: its home is told with the next report. -/
def addHit (scope : Nat) (key : Bytes) (l : List (Nat × Bytes × Nat)) : List (Nat × Bytes × Nat) :=
  let same := fun (x : Nat × Bytes × Nat) => x.1 == scope && x.2.1 == key
  if l.any same then upd same (fun x => (x.1, x.2.1, x.2.2 + 1)) l else l ++ [(scope, key, 1)]

/-- A lookup returns a page (R200): its POP rises at this device's home entry, else the hit is reported to the home.
(DEDUCED: log entry 34.) -/
def noteHit (scope : Nat) (key : Bytes) (s : State) : State :=
  if (entryIn s.homes scope key).isSome then raisePop scope key 1 s
  else if s.replicas.any (fun x => x.1.scope == scope && x.1.key == key) then
    { s with replicas := upd (fun x => x.1.scope == scope && x.1.key == key) (fun x => (x.1, x.2 + 1)) s.replicas }
  else { s with askedHits := addHit scope key s.askedHits }

/-- This device's entry or replica of a key (R202). -/
def localEntry (s : State) (scope : Nat) (key : Bytes) : Option StockEntry :=
  match entryIn s.homes scope key with
  | some e => some e
  | none => entryIn (s.replicas.map (fun x => x.1)) scope key

/-- POP_HALVING (R200): every POP_HALF seconds. -/
def popHalving (s : State) : State :=
  let period := 1000000000 * max 1 (rd s .hallStockCfgPopHalf 0)
  let s := reach ((s.localTime / period + 1) * period) s
  each s.homes (fun e s =>
    let pop := e.pop / 2
    let cool := e.hot && decide (2 * pop < rd s .hallStockCfgHotPop 0)
    let same := fun (x : StockEntry) => x.scope == e.scope && x.key == e.key
    let s := { s with homes := upd same (fun x => { x with pop := pop, hot := e.hot && !cool }) s.homes }
    if cool then withdrawReplica e s else s) s

/-- REPLICA_PUSH at a device of the market (R199): a full store displaces the replica of lowest POP. -/
def replicaPushed (e : StockEntry) (s : State) : State :=
  let same := fun (x : StockEntry × Nat) => x.1.scope == e.scope && x.1.key == e.key
  if s.replicas.any same then { s with replicas := upd same (fun x => (e, x.2)) s.replicas }
  else if s.replicas.length < s.plan.replicaEntries then { s with replicas := s.replicas ++ [(e, 0)] }
  else match leastBy (fun (x : StockEntry × Nat) => x.1.pop) s.replicas with
    | some y => { s with replicas := drop (fun x => x.1.scope == y.1.scope && x.1.key == y.1.key) s.replicas ++ [(e, 0)] }
    | none => s

/-- REPLICA_WITHDRAW (R199). -/
def replicaWithdrawn (scope : Nat) (key : Bytes) (s : State) : State :=
  { s with replicas := drop (fun x => x.1.scope == scope && x.1.key == key) s.replicas }

/-- REPLICA_HIT_REPORT (R200, R224): this device's report to the homes, paused under stage A, or a report received. -/
def hitReport (received : Option (List (Nat × Bytes × Nat))) (s : State) : State :=
  match received with
  | some l => each l (fun x => raisePop x.1 x.2.1 x.2.2) s
  | none =>
    if stageOn s 1 then s else
    let hits := (s.replicas.filter (fun x => decide (0 < x.2))).map (fun x => (x.1.scope, x.1.key, x.2)) ++ s.askedHits
    let home := fun (x : Nat × Bytes × Nat) => (homeOf s x.2.1).bind (servicePeer s)
    let s := each (distinct (hits.filterMap home)) (fun q s => tell q (.hits (hits.filter (fun x => home x == some q))) s) s
    { s with replicas := s.replicas.map (fun x => (x.1, 0)), askedHits := [] }

/- Lookups (R201 to R208). -/

/-- Size of a page record of the result (R205). -/
def recSize (h : Shape) : Nat := roundUp (32 + 8 * h.layers) 64

/-- Bytes of a result slot. -/
def slotBytes (s : State) (p : Nat) : Nat := 1024 * rd s .pitchPrefixCfgResultKib p

/-- Hall offset of a result slot (R204). (DEDUCED: log entry 36.) -/
def slotBase (s : State) (p slot : Nat) : Nat := rd s .pitchPrefixBaseResultBase p + slot * slotBytes s p

/-- Where a probe of a key goes (R202). -/
inductive Probe where
  | entry (e : StockEntry)
  | miss
  /-- Every device of the owning market is unreachable. -/
  | lost
  | ask (peer : Nat)

/-- The probe of R202. A reachable home is asked; else the lowest-numbered reachable device of its market, which may be
this one and then answers from its replicas. A device without a service connection is not reached (R244, R332). -/
def probe (s : State) (scope : Nat) (key : Bytes) (localOnly : Bool) : Probe :=
  match localEntry s scope key with
  | some e => .entry e
  | none => match shardRow s key with
    | none => .miss
    | some row =>
      if localOnly ∨ row.home = deviceId s then .miss else
      let peers := (marketPeers s row.market).filter (fun q => (serviceConn s q).isSome)
      let here := row.market == s.plan.market
      match servicePeer s row.home with
      | some q => .ask q
      | none => match peers with
        | [] => if here then .miss else .lost
        | r :: _ =>
          let d := ((peerPlan s r).map (fun x => x.deviceId)).getD 0
          if here ∧ deviceId s < d then .miss else .ask r

/-- The crates of a copy of this device, where its record still stands. -/
def localCopy (s : State) (c : Copy) : Option (List Nat) :=
  if c.device ≠ deviceId s then none
  else (s.pubs.find? (fun r => r.id == c.record && r.pitch == c.pitch && r.st != .waitSwap)).map (fun r => r.crates)

/-- VALID, DURABLE copies of other devices whose holder is reachable on a service connection, in slot order (R202, R244). -/
def remoteCopies (s : State) (e : StockEntry) : List Copy :=
  (e.copies.filterMap id).filter (fun c => c.durable && c.device != deviceId s && (servicePeer s c.device).isSome)

/-- The lookup of a command. -/
def lookupOf (s : State) (cmd : Nat) : Option Lookup := s.lookups.find? (fun l => l.cmd == cmd)

/-- Change a lookup. -/
def onLookup (cmd : Nat) (f : Lookup → Lookup) (s : State) : State :=
  { s with lookups := upd (fun l => l.cmd == cmd) f s.lookups }

/-- The handle word of a reference as this device shows it: of a local crate the current one (R205, R236). -/
def refWord (s : State) : Ref → Nat
  | .here id => (((crateOf s id).bind topHandle).map Handle.word).getD nullHandle
  | .remote h => h.word

/-- The header and records of a result (R204, R205). With PAGES 0 the fields of the chain are 0.
(DESIGN CHOICE: log entry 87.) -/
def resultBytes (s : State) (r : Result) : Bytes :=
  let h := r.shape
  let n := r.pages.length
  let far := r.pages.any (fun p => p.holder != deviceId s)
  let flags := b2n h.latent + 2 * b2n r.truncated + 4 * b2n far + 8 * b2n r.shardLost
  let empty := n == 0
  let last := ((r.pages.getLast?).map (fun p => p.key)).getD zeroKey
  let head := leBytes 4 n ++ leBytes 4 r.keyed ++ leBytes 8 r.modelFp ++ leBytes 2 r.adapter
    ++ leBytes 1 (if empty then 0 else h.layers) ++ leBytes 1 (if empty then 0 else h.format)
    ++ leBytes 1 (if empty then 0 else h.kvHeads) ++ leBytes 1 (if empty then 0 else h.headDim32) ++ leBytes 1 flags
    ++ leBytes 9 0 ++ last ++ leBytes 16 0
  let word := fun (x : Ref) => leBytes 8 (refWord s x)
  head ++ r.pages.flatMap (fun p =>
    let b := p.key ++ p.digest ++ leBytes 2 p.holder ++ leBytes 6 0 ++ p.refs.flatMap word
    b ++ List.replicate (recSize h - b.length) 0)

/-- Where the handle of a layer of a page lies in a slot (R204, R205). -/
def refAt (s : State) (r : Result) (page layer : Nat) : Nat :=
  slotBase s r.pitch r.slot + 64 + page * recSize r.shape + 0x20 + 8 * layer

/-- The handles of a result, in order. -/
def shownWords (s : State) (l : List PageRec) : List Nat := l.flatMap (fun p => p.refs.map (refWord s))

/-- The handles in result slots follow the crates that have moved: one write each (R236). -/
def resultsFollow (s : State) : State :=
  each s.results (fun r s =>
    let now := shownWords s r.pages
    if now = r.shown then s else
    let places := (r.pages.zipIdx).flatMap (fun p => (List.range p.1.refs.length).map (refAt s r p.2))
    let s := each ((places.zip (r.shown.zip now)).filter (fun x => x.2.1 != x.2.2)) (fun x s =>
      { s with hall := Memory.writeN s.hall x.1 (leBytes 8 x.2.2) }) s
    { s with results := upd (fun x => x.pitch == r.pitch && x.slot == r.slot) (fun x => { x with shown := now }) s.results }) s

/-- A result slot is released (R207, R220): its holds go, and it holds PAGES 0. -/
def releaseSlot (p slot : Nat) (s : State) : State :=
  if (resultIn s p slot).isNone then s else
  sweepAll { s with
    results := drop (fun r => r.pitch == p && r.slot == slot) s.results,
    hall := Memory.writeN s.hall (slotBase s p slot) (leBytes 4 0) }

/-- A PREFIX_LOOKUP completes without a result (R225); it is counted (R228). -/
def lookupFails (cmd : Nat) (st : Status) (s : State) : State :=
  failWord cmd st (match (cmdOf s cmd).bind (fun c => ringPitch s c.ring) with
    | some p => bump .pitchPrefixStatLookups p 1 s
    | none => s)

/-- A lookup ends (R206 to R208): the result is written, then its copy, then the command completes. Each page that it returns has
been hit (R200). -/
def lookupEnd (cmd : Nat) (s : State) : State :=
  match lookupOf s cmd, cmdOf s cmd with
  | some l, some c => match ringPitch s c.ring with
    | none => s
    | some p =>
      let e := c.entry
      let slot := fieldOf e 0x24 2
      let r : Result :=
        { pitch := p, slot := slot, modelFp := fieldOf e 0x10 8, adapter := fieldOf e 0x18 2, keyed := l.keys.length,
          shape := l.shape.getD { layers := 0, format := 0, latent := false, kvHeads := 0, headDim32 := 0 },
          truncated := decide (0 < l.past), shardLost := l.shardLost, pages := l.pages, shown := shownWords s l.pages }
      let bytes := resultBytes s r
      let win := fieldOf e 0x30 4
      let put := fun (st : Status) (s : State) =>
        let s := { s with
          hall := Memory.writeN s.hall (slotBase s p slot) bytes, results := s.results ++ [r],
          lookups := drop (fun x => x.cmd == cmd) s.lookups }
        let s := each r.pages (fun g s => noteHit (scopeOf s p) g.key s) s
        finish cmd st r.pages.length (bump .pitchPrefixStatLookups p 1 (bump .pitchPrefixStatPagesHit p r.pages.length s))
      if win = 0 then put .ok s
      else match writeResult c win (fieldOf e 0x34 6) bytes s with
        | .bad st => put st s
        | .later t => onCmd cmd (fun x => { x with wait := .snoop }) (onLookup cmd (fun x => { x with ended := true }) t)
        | .done t => put .ok t
  | _, _ => s

/-- A page joins the chain. -/
def addPage (cmd : Nat) (e : StockEntry) (device : Nat) (refs : List Ref) (s : State) : State :=
  let rec_ : PageRec := { key := e.key, digest := e.pageDigest, holder := device, refs := refs }
  onLookup cmd (fun l => { l with
    pages := l.pages ++ [rec_], shape := some (l.shape.getD e.shape), tryEntry := none, tryCopies := [] }) s

/-- The page that a lookup's chain has reached. -/
def Lookup.at_ (l : Lookup) : Nat := l.pages.length + l.past

/-- The first of the copies left is asked for a hold (R203). -/
def askHold (cmd : Nat) (e : StockEntry) (copies : List Copy) (s : State) : State :=
  let s := onLookup cmd (fun l => { l with tryEntry := some e, tryCopies := copies }) s
  match copies with
  | [] => s
  | c :: _ => match peerOfDevice s c.device with
    | some q => tell q (.holdAsk c.pitch c.record) s
    | none => s

/-- The chain's next entry (R202, R206): the answer says whether the chain goes on at once. A page whose record does not fit in the
slot takes no hold; the chain goes on past it, as a later probe may still set SHARD_LOST. -/
def useEntry (cmd : Nat) (e : StockEntry) (s : State) : Bool × State :=
  match lookupOf s cmd, cmdOf s cmd with
  | some l, some c => match ringPitch s c.ring with
    | none => (false, s)
    | some p =>
      let fmt := fieldOf c.entry 0x1A 1
      let h := l.shape.getD e.shape
      let locals := (e.copies.filterMap id).filterMap (fun k => (localCopy s k).map (fun cs => (k, cs)))
      let far := remoteCopies s e
      if e.modelFp ≠ fieldOf c.entry 0x10 8 ∨ e.adapter ≠ fieldOf c.entry 0x18 2 ∨ (fmt ≠ 0 ∧ e.shape.format ≠ fmt) ∨ h ≠ e.shape
          ∨ (locals.isEmpty ∧ far.isEmpty) then (false, lookupEnd cmd s)
      else if slotBytes s p < 64 + (l.pages.length + 1) * recSize h then
        (true, onLookup cmd (fun l => { l with past := l.past + 1, shape := some h }) s)
      else match locals with
        | (_, cs) :: _ => (true, addPage cmd e (deviceId s) (cs.map Ref.here) s)
        | [] => (false, askHold cmd e far s)
  | _, _ => (false, s)

/-- The chain goes on from its next page until it ends or has to ask a peer. The fuel is the number of pages left. -/
def lookupGo (cmd : Nat) : Nat → State → State
  | 0, s => lookupEnd cmd s
  | n + 1, s => match lookupOf s cmd, cmdOf s cmd with
    | some l, some c => match l.keys[l.at_]?, ringPitch s c.ring with
      | some k, some p => match probe s (scopeOf s p) k (bit (fieldOf c.entry 0x1B 1) 0) with
        | .entry e =>
          let r := useEntry cmd e s
          if r.1 then lookupGo cmd n r.2 else r.2
        | .miss => lookupEnd cmd s
        | .lost => lookupEnd cmd (bump .hallStockLostLost 0 1 (onLookup cmd (fun l => { l with shardLost := true }) s))
        | .ask q => tell q (.probe (rd s .hallStockCfgEpoch 0) (scopeOf s p) k) s
      | _, _ => lookupEnd cmd s
    | _, _ => s

/-- The chain goes on. -/
def lookupOn (cmd : Nat) (s : State) : State :=
  match lookupOf s cmd with
  | none => s
  | some l => lookupGo cmd (l.keys.length - l.at_) s

/-- Fields of a PREFIX_LOOKUP are in range (R201). -/
def lookupOk (s : State) (p : Nat) (e : Entry) : Bool :=
  let n := fieldOf e 0x1C 4
  decide (fieldOf e 0x1A 1 ≤ 5) && decide (fieldOf e 0x1B 1 ≤ 1) && decide (1 ≤ n) && decide (n ≤ 2097152)
    && decide (fieldOf e 0x24 2 < rd s .pitchPrefixCfgResultSlots p) && zeroAt e 0x26 2 && zeroAt e 0x2E 2 && zeroAt e 0x3A 6
    && fieldOf e 0x28 6 % 64 == 0 && (fieldOf e 0x30 4 == 0 || fieldOf e 0x34 6 % 64 == 0)

/-- PREFIX_LOOKUP (R201 to R208, R225). (DEDUCED: log entry 33.) -/
def opPrefixLookup (c : Cmd) (s : State) : State :=
  let e := c.entry
  let n := fieldOf e 0x1C 4
  match ringPitch s c.ring, lookupOf s c.id with
  | none, _ => lookupFails c.id .access s
  | some _, some l => if l.ended then lookupEnd c.id s else s
  | some p, none =>
    let win := fieldOf e 0x20 4
    let off := fieldOf e 0x28 6
    let copy := fieldOf e 0x30 4
    let checks := locate s c.ring win off (4 * n) false
      :: (if copy = 0 then [] else [locate s c.ring copy (fieldOf e 0x34 6) 64 true])
    if scopeOf s p = 0 then lookupFails c.id .access s
    else match worstCheck checks with
    | some st => lookupFails c.id st s
    | none =>
      if !(lookupOk s p e) then lookupFails c.id .badParam s
      else
        let go : Got State := (readOperand s c win off (4 * n)).bind (fun bs =>
          let keys := keysFrom (fieldOf e 0x10 8) (fieldOf e 0x18 2) zeroKey 0 (chunks 1024 (n / 256) (bs.take (1024 * (n / 256))))
          let l : Lookup :=
            { cmd := c.id, keys := keys, pages := [], past := 0, shape := none, shardLost := false, tryEntry := none,
              tryCopies := [], ended := false }
          let s := releaseSlot p (fieldOf e 0x24 2) s
          .val (lookupOn c.id (startedCmd c.id { s with lookups := s.lookups ++ [l] })))
        gotElse c (lookupFails c.id) go s

/-- STOCK_PROBE at this device (R194, R202): the home answers from its entries, any device from its replicas. -/
def stockProbe (q epoch scope : Nat) (key : Bytes) (s : State) : State :=
  if epoch ≠ rd s .hallStockCfgEpoch 0 then tell q (.probeAnswer none) (bump .hallStockStatEpochMiss 0 1 s)
  else match localEntry s scope key with
    | none => tell q (.probeAnswer none) s
    | some e => tell q (.probeAnswer (some e)) s

/-- STOCK_PROBE_ANSWER: the chain's awaited page. -/
def probeAnswered (cmd page : Nat) (e : Option StockEntry) (s : State) : State :=
  match lookupOf s cmd with
  | none => s
  | some l =>
    if l.at_ ≠ page ∨ l.tryEntry.isSome ∨ l.ended then s else
    match e with
    | none => lookupEnd cmd s
    | some e =>
      if some e.key ≠ l.keys[page]? then lookupEnd cmd s else
      let r := useEntry cmd e s
      if r.1 then lookupOn cmd r.2 else r.2

/-- HOLD_ANSWER: the holder's handles, or a refusal, after which the next copy is tried (R202, R203). A copy whose hold fails is
removed from its entry: the home is told, where it is not this device (R223). (DEDUCED: log entry 35.) -/
def holdAnswered (cmd page : Nat) (handles : Option (List Nat)) (s : State) : State :=
  match lookupOf s cmd with
  | none => s
  | some l => match l.tryEntry, l.tryCopies with
    | some e, c :: rest =>
      if l.at_ ≠ page then s else
      let hs := (handles.getD []).filterMap handleOf |>.map (fun h => { h with tier := 4 })
      if handles.isSome ∧ hs.length = e.shape.layers then
        let s := { s with myHolds := s.myHolds ++ [{ device := c.device, pitch := c.pitch, record := c.record, handles := hs }] }
        lookupOn cmd (addPage cmd e c.device (hs.map Ref.remote) s)
      else
        let s := sendDrop e.scope e.key c.device c.pitch s
        if rest.isEmpty then lookupEnd cmd (onLookup cmd (fun l => { l with tryEntry := none, tryCopies := [] }) s)
        else askHold cmd e rest s
    | _, _ => s

/-- HOLD_REQUEST at the holder (R203, R205): the flash handles of a DURABLE copy, and a remote hold. -/
def holdRequested (q p record : Nat) (s : State) : State :=
  match s.pubs.find? (fun r => r.id == record && r.pitch == p && r.durable) with
  | none => tell q (.holdAnswer none) s
  | some r =>
    let hs := r.crates.filterMap (fun id => (crateOf s id).bind (fun c => c.flash))
    if hs.length = r.crates.length then
      tell q (.holdAnswer (some (hs.map (fun h => { h with tier := 4 }))))
        { s with holds := s.holds ++ [{ peer := q, pitch := p, record := record, crates := r.crates }] }
    else tell q (.holdAnswer none) s

/-- REMOTE_HOLD_RELEASE (R209): one hold of a requester on a record goes. -/
def holdReleased (q p record : Nat) (s : State) : State :=
  match s.holds.find? (fun h => h.peer == q && h.pitch == p && h.record == record) with
  | none => s
  | some h => sweepAll { s with holds := s.holds.erase h }

/-- TABLE_FETCH_REQUEST (R317): the sender of a copy answers from its store, or from the catalogues of its namespaces. -/
def tableRequested (q fingerprint : Nat) (s : State) : State :=
  let print := leBytes 8 fingerprint
  let known := s.tables ++ s.catalogue.flatMap (fun x => x.2.tables)
  tell q (.tableAnswer ((known.find? (fun t => t.print == print)).map (fun t => t.lengths))) s

/-- TABLE_FETCH_ANSWER (R317): the lengths, or the copy is unreadable from its source. -/
def tableAnswered (id fingerprint : Nat) (lengths : Option (List Nat)) (s : State) : State :=
  let print := leBytes 8 fingerprint
  if !(s.pendingTables.any (fun x => x.1 == id && x.2.1 == print && x.2.2.isNone)) then s else
  match lengths with
  | some l => { s with pendingTables := upd (fun x => x.1 == id && x.2.1 == print) (fun x => (x.1, x.2.1, some l)) s.pendingTables }
  | none => fetchFails id s

/- Publishing (R211 to R218). -/

/-- Remove a publication record without a word to its home. -/
def forgetRecord (id : Nat) (s : State) : State := sweepAll { s with pubs := drop (fun r => r.id == id) s.pubs }

/-- The publisher's page is repointed to the crates of its pitch's other copy (R215). -/
def repoint (uid page : Nat) (crates : List Nat) (s : State) : State :=
  onSeq uid (fun q => { q with layers := (q.layers.zip crates).map (fun x =>
    { x.1 with pages := setAt x.1.pages page (fun _ => some x.2) }) }) s

/-- A record whose fresh insert met no OK is sent again after 1 s (R195). -/
def retryLater (id : Nat) (s : State) : State :=
  { s with pubs := upd (fun x => x.id == id) (fun x => { x with st := .retry, retryAt := s.localTime + 1000000000 }) s.pubs }

/-- The handle of the winner as this device addresses it (R217): of a copy here the crate's own, of one on another device a tier-4
handle of that device and pitch. -/
def winnerHere (s : State) (k : Option Copy) (w : Nat) : Nat :=
  match k with
  | none => nullHandle
  | some k =>
    if k.device = deviceId s then
      ((((localCopy s k).bind (fun cs => cs.head?)).bind (crateOf s)).bind topHandle).elim w Handle.word
    else (handleOf w).elim w (fun h => ({ h with tier := 4, device := k.device, pitch := k.pitch } : Handle).word)

/-- The answer to an insert (R214 step 6, R215, R195). PITCH_PREFIX_PUB counts the pages of publications, and not the records that
a replay sends anew. -/
def insertAnswered (id : Nat) (a : InsertAnswer) (s : State) : State :=
  match s.pubs.find? (fun r => r.id == id) with
  | none => s
  | some r =>
    let again := r.cmd.isNone
    let count := fun (f : Fld) (s : State) => if again then s else bump f r.pitch 1 s
    let ends := fun (st : Status) (added dedup : Bool) (winner : Nat) (s : State) => pageDone r.cmd r.page st added dedup winner s
    match a with
    | .copyAdded =>
      let s := { s with pubs := upd (fun x => x.id == id) (fun x => { x with st := .standing, cmd := none }) s.pubs }
      let s := count .pitchPrefixPubPagesAdded s
      let s := if r.wantFlash then each r.crates (wantFlash 2) s else s
      reportDurable { r with st := .standing } (markDurable ((r.crates.head?).getD 0) (ends .ok true false nullHandle s))
    | .dedup h =>
      let s := match s.pubs.find? (fun x => x.id == h.record && x.pitch == h.pitch) with
        | some x => repoint r.seq r.page x.crates s
        | none => s
      forgetRecord id (count .pitchPrefixPubPagesAdded (ends .ok false true nullHandle s))
    | .okNoSlot => forgetRecord id (ends .ok false false nullHandle s)
    | .busy =>
      if again then retryLater id s else forgetRecord id (ends .busy false false nullHandle s)
    | .noSpace => forgetRecord id (ends .noSpace false false nullHandle s)
    | .differs k w => forgetRecord id (count .pitchPrefixPubDiffers (ends .duplicateDiffers false false (winnerHere s k w) s))
    | .peerLost =>
      if again then retryLater id s else forgetRecord id (count .pitchPrefixPubPeerLost (ends .peerLost false false nullHandle s))

/-- The layer-0 handle of a copy as a publisher on another device addresses it, tier 4 of the copy's device and pitch (R217): of
this device's own copy the location is that of its flash copy, of other copies it is open. (DEDUCED: log entry 35.) -/
def winnerHandle (s : State) (format : Nat) (c : Option Copy) : Nat × State :=
  match c with
  | none => (nullHandle, s)
  | some k =>
    let own := (((localCopy s k).bind (fun cs => cs.head?)).bind (crateOf s)).bind (fun x => x.flash)
    let place := own.elim (Config.location s.fresh) (fun f => f.location)
    let h : Handle := { tier := 4, device := k.device, pitch := k.pitch, format := format, location := place }
    (h.word, freshen s)

/-- The home decides an insert (R215); a device that holds only a replica accepts none (R216). -/
def decideInsert (epoch : Nat) (e : StockEntry) (c : Copy) (s : State) : InsertAnswer × State :=
  if epoch ≠ rd s .hallStockCfgEpoch 0 then (.busy, s)
  else if homeOf s e.key ≠ some (deviceId s) then (.peerLost, s) else
  match entryIn s.homes e.scope e.key with
  | none =>
    if s.homes.length < s.plan.stockEntries then
      (.copyAdded, putHome { e with copies := [some c, none, none, none], pop := 0, hot := decide (rd s .hallStockCfgHotPop 0 = 0) } s)
    else (.noSpace, s)
  | some x =>
    let copies := x.copies.filterMap id
    if copies.any (fun k => k.device == c.device && k.pitch == c.pitch && k.record == c.record) then (.copyAdded, s)
    else if x.shape ≠ e.shape ∨ x.pageDigest ≠ e.pageDigest then
      let w := winnerHandle s x.shape.format copies.head?
      (.differs copies.head? w.1, w.2)
    else match copies.find? (fun k => k.device == c.device && k.pitch == c.pitch) with
      | some k => (.dedup k, s)
      | none =>
        if x.copies.contains none then
          let slots := x.copies.foldl (fun (acc : List (Option Copy) × Bool) k =>
            if k.isNone ∧ acc.2 = false then (acc.1 ++ [some c], true) else (acc.1 ++ [k], acc.2)) ([], false)
          (.copyAdded, putHome { x with copies := slots.1 } s)
        else (.okNoSlot, s)

/-- Step 4 of R214: the insert goes to the home, or is decided here, or meets an unreachable home (R216). -/
def sendInsert (id : Nat) (s : State) : State :=
  match s.pubs.find? (fun r => r.id == id) with
  | none => s
  | some r =>
    let h := (((r.crates.head?).bind (crateOf s)).map (fun c => c.shape)).getD
      { layers := 0, format := 0, latent := false, kvHeads := 0, headDim32 := 0 }
    let all := r.crates.all (fun k => ((crateOf s k).bind (fun c => c.flash)).isSome)
    let c : Copy := { device := deviceId s, pitch := r.pitch, durable := all, record := id }
    let e : StockEntry :=
      { key := r.key, scope := r.scope, page := r.page, shape := h, hot := false, pageDigest := r.digest, modelFp := r.modelFp,
        adapter := r.adapter, pop := 0, copies := [none, none, none, none] }
    let s := { s with pubs := upd (fun x => x.id == id) (fun x => { x with st := .sent, durable := all, sentDurable := all }) s.pubs }
    let epoch := rd s .hallStockCfgEpoch 0
    match homeOf s r.key with
    | none => insertAnswered id .peerLost s
    | some d =>
      if d = deviceId s then
        let a := decideInsert epoch e c s
        insertAnswered id a.1 a.2
      else match servicePeer s d with
        | some q => tell q (.insert epoch e c) s
        | none => insertAnswered id .peerLost s

/-- The crates of a page in every layer, once it has swapped in all of them (R214 step 2). -/
def pageCrates (q : Seq) (page : Nat) : Option (List Nat) :=
  let l := q.layers.map (fun l => if page < l.sealed then (l.pages[page]?).getD none else none)
  if l.all (fun x => x.isSome) then some (l.filterMap id) else none

/-- PAGE_DIGEST (R196). -/
def pageDigest (s : State) (crates : List Nat) : Bytes :=
  (sha384 (crates.flatMap (fun id => ((crateOf s id).map (fun c => c.digest)).getD []))).take 8

/-- A publication record that waited for swaps goes on (R214 steps 2 to 4). (DEDUCED: log entry 34.) -/
def pubStep (r : PubRec) (s : State) : State :=
  match seqOf s r.seq with
  | none => forgetRecord r.id (pageDone r.cmd r.page .poison false false nullHandle s)
  | some q =>
    if q.st = .damaged then forgetRecord r.id (pageDone r.cmd r.page .poison false false nullHandle s)
    else match pageCrates q r.page with
      | none => s
      | some cs => sendInsert r.id { s with
          pubs := upd (fun x => x.id == r.id) (fun x => { x with crates := cs, digest := pageDigest s cs }) s.pubs }

/-- The records of a publication: 16 B per page (R217). -/
def reportBytes (x : Publish) : Bytes :=
  x.pages.flatMap (fun p => leBytes 1 ((p.1.getD .ok).code) ++ leBytes 1 (b2n p.2.1 + 2 * b2n p.2.2.1) ++ leBytes 6 0
    ++ leBytes 8 p.2.2.2)

/-- A publication that has reached step 6 for every page, or step 7 with DURABLE_WAIT, completes (R218).
(DEDUCED: log entry 50.) -/
def publishEnd (x : Publish) (s : State) : State :=
  match cmdOf s x.cmd with
  | none => { s with publishes := drop (fun y => y.cmd == x.cmd) s.publishes }
  | some c =>
    let mine := fun (i : Nat) => s.pubs.any (fun r => r.seq == x.seq && r.page == x.first + i && !r.durable)
    let waits := x.pages.any (fun p => p.1.isNone) || (x.durableWait
      && (x.pages.zipIdx).any (fun p => p.1.2.1 && mine p.2))
    if waits then s else
    let st := ((x.pages.filterMap (fun p => p.1)).find? (fun st => st != .ok)).getD .ok
    let n := countBy (fun (p : Option Status × Bool × Bool × Nat) => p.2.1 || p.2.2.1) x.pages
    let gone := fun (s : State) => { s with publishes := drop (fun y => y.cmd == x.cmd) s.publishes }
    let win := fieldOf c.entry 0x28 4
    if win = 0 then finish x.cmd st n (gone s)
    else match writeResult c win (fieldOf c.entry 0x30 6) (reportBytes x) s with
      | .bad e => finish x.cmd e n (gone s)
      | .later t => t
      | .done t => finish x.cmd st n (gone t)

/-- Publications go on: their steps are core 2's (R214, R224). -/
def publishesGoOn (s : State) : State :=
  if coreThere s 2 = false then s else
  let s := each (s.pubs.filter (fun r => r.st == .waitSwap)) pubStep s
  each s.publishes publishEnd s

/-- Fields of a PREFIX_PUBLISH are in range (R211). -/
def publishOk (e : Entry) : Bool :=
  let n := fieldOf e 0x16 2
  bits (fieldOf e 0x14 2) 13 3 == 0 && decide (1 ≤ n) && decide (n ≤ 8192) && decide (fieldOf e 0x18 1 ≤ 3) && zeroAt e 0x19 3
    && zeroAt e 0x26 2 && zeroAt e 0x2C 4 && zeroAt e 0x36 10
    && (fieldOf e 0x1C 4 == 0 || fieldOf e 0x20 6 % 64 == 0) && (fieldOf e 0x28 4 == 0 || fieldOf e 0x30 6 % 64 == 0)

/-- The keys that a PREFIX_PUBLISH leaves in the key list, where R212 holds. -/
def publishKeys (q : Seq) (first n : Nat) (toks : Option Bytes) : Option (List Bytes) :=
  if q.keys.length < first ∨ seqLength q < 256 * (first + n) then none else
  match toks with
  | none => if first + n ≤ q.keys.length then some q.keys else none
  | some bs =>
    let parent := if first = 0 then zeroKey else (q.keys[first - 1]?).getD zeroKey
    let new := keysFrom q.modelFp q.adapter parent first (chunks 1024 n bs)
    let same := (new.zipIdx).all (fun x => match q.keys[first + x.2]? with
      | some k => k == x.1
      | none => true)
    if same then some (q.keys ++ new.drop (q.keys.length - first)) else none

/-- The base of a variant's delta pair (R304): model fingerprint and adapter. -/
def deltaPairOf (s : State) (p : Nat) (q : Seq) : Option (Nat × Nat) :=
  let row := (List.range 8).find? (fun n => on s .pitchDeltaPairValid (8 * p + n)
    && rd s .pitchDeltaPairVarFp (8 * p + n) == q.modelFp && rd s .pitchDeltaPairVarAdapter (8 * p + n) == q.adapter)
  row.map (fun n => (rd s .pitchDeltaPairBaseFp (8 * p + n), rd s .pitchDeltaPairBaseAdapter (8 * p + n)))

/-- The base keys of the pages that a PREFIX_PUBLISH records from token ids (R305): none where an earlier page has none. -/
def newBaseKeys (s : State) (p : Nat) (q : Seq) (first n : Nat) (toks : Option Bytes) : List Bytes :=
  match deltaPairOf s p q, toks with
  | some (fp, adapter), some bs =>
    if q.baseKeys.length ≠ q.keys.length then [] else
    keysFrom fp adapter (q.baseKeys.getLast?.getD zeroKey) q.keys.length ((chunks 1024 n bs).drop (q.keys.length - first))
  | _, _ => []

/-- The base crates of a page, one per layer (R306): a VALID copy that this pitch holds on this device, of the same shape and
format, with every crate in tier 1. -/
def baseCrates (s : State) (p : Nat) (h : Shape) (key : Bytes) : Option (List Nat) :=
  match localEntry s (scopeOf s p) key with
  | none => none
  | some e =>
    let ready := fun (l : List Nat) => l.all (fun id => match crateOf s id with
      | some c => inDram c
      | none => false)
    if e.shape ≠ h then none
    else (((e.copies.filterMap id).filter (fun k => k.pitch == p)).filterMap (localCopy s)).find? ready

/-- The matcher records base keys and queues the recodes of their pages (R305, R306). (DEDUCED: log entry 78.) -/
def recordBaseKeys (p : Nat) (q : Seq) (first n : Nat) (toks : Option Bytes) (s : State) : State :=
  let new := newBaseKeys s p q first n toks
  if new.isEmpty then s else
  let jobs := (new.zipIdx).flatMap (fun x => match baseCrates s p q.shape x.1 with
    | some l => (l.zipIdx).map (fun y => (y.2, q.keys.length + x.2, y.1))
    | none => [])
  onSeq q.uid (fun q => { q with baseKeys := q.baseKeys ++ new, recodes := q.recodes ++ jobs }) s

/-- PREFIX_PUBLISH on a sequence whose keys are settled: records, and the pages on their way (R214). R225 gives the command no
NO_SPACE of its own: keys and records are written however full the working pool is. (DESIGN CHOICE: log entry 87.) -/
def startPublish (c : Cmd) (p : Nat) (q : Seq) (keys : List Bytes) (s : State) : State :=
  let e := c.entry
  let first := bits (fieldOf e 0x14 2) 0 13
  let n := fieldOf e 0x16 2
  let only := bit (fieldOf e 0x18 1) 0
  let wait := bit (fieldOf e 0x18 1) 1
  let s := onSeq q.uid (fun q => { q with keys := keys }) s
  let x : Publish :=
    { cmd := c.id, seq := q.uid, first := first, durableWait := wait && !only,
      pages := List.replicate n (if only then some Status.ok else none, false, false, nullHandle) }
  let s := startedCmd c.id { s with publishes := s.publishes ++ [x] }
  let s := if only then s else each (List.range n) (fun i s =>
    let r : PubRec :=
      { id := s.order, pitch := p, seq := q.uid, cmd := some c.id, page := first + i, key := (keys[first + i]?).getD zeroKey,
        digest := [], scope := scopeOf s p, modelFp := q.modelFp, adapter := q.adapter, crates := [], st := .waitSwap,
        durable := false, wantFlash := wait, since := s.localTime, retryAt := 0, sentDurable := false }
    ordered { s with pubs := s.pubs ++ [r] }) s
  publishesGoOn s

/-- PREFIX_PUBLISH (R211 to R218, R225). -/
def opPrefixPublish (c : Cmd) (s : State) : State :=
  let e := c.entry
  let first := bits (fieldOf e 0x14 2) 0 13
  let n := fieldOf e 0x16 2
  let tw := fieldOf e 0x1C 4
  let rw_ := fieldOf e 0x28 4
  match ringPitch s c.ring with
  | none => complete c.id .access 0 s
  | some p =>
    let checks := (if tw = 0 then [] else [locate s c.ring tw (fieldOf e 0x20 6) (1024 * n) false])
      ++ (if rw_ = 0 then [] else [locate s c.ring rw_ (fieldOf e 0x30 6) (16 * n) true])
    if scopeOf s p = 0 then complete c.id .access 0 s
    else match worstCheck checks with
    | some st => complete c.id st 0 s
    | none =>
      if !(publishOk e) then complete c.id .badParam 0 s
      else match seqById s p (fieldOf e 0x10 4) with
      | none => complete c.id .noSeq 0 s
      | some q =>
        let toks : Got (Option Bytes) := if tw = 0 then .val none
          else (readOperand s c tw (fieldOf e 0x20 6) (1024 * n)).bind (fun b => .val (some b))
        let go : Got State := toks.bind (fun t => .val (match publishKeys q first n t with
          | none => complete c.id .badParam 0 s
          | some keys =>
            if q.st = .damaged then complete c.id .poison 0 s
            else if (q.st ≠ .active ∧ q.st ≠ .parked) ∨ (q.striped ∧ bit (fieldOf e 0x18 1) 0 = false) then complete c.id .badState 0 s
            else startPublish c p q keys (recordBaseKeys p q first n t s)))
        gotElse c (fun st s => complete c.id st 0 s) go s

/-- STOCK_INSERT at the home (R215). -/
def stockInsert (q epoch : Nat) (e : StockEntry) (c : Copy) (s : State) : State :=
  let a := decideInsert epoch e c s
  tell q (.insertAnswer a.1) a.2

/-- STOCK_INSERT_ANSWER at the publisher. -/
def stockInsertAnswer (record : Nat) (a : InsertAnswer) (s : State) : State :=
  if s.pubs.any (fun r => r.id == record && (r.st == .sent || r.st == .retry)) then insertAnswered record a s else s

/-- INSERT_RETRY (R195): a record whose insert met BUSY is sent again 1 s later, or given up after ORPHAN seconds. It is core 2's
work (R18). (DEDUCED: log entry 34.) -/
def insertRetry (record : Nat) (s : State) : State :=
  match s.pubs.find? (fun r => r.id == record && r.st == .retry) with
  | none => s
  | some r =>
    if coreThere s 2 = false then s else
    let s := reach r.retryAt s
    if r.since + 1000000000 * rd s .hallStockCfgOrphan 0 ≤ s.localTime then forgetRecord record s else sendInsert record s

/-- STOCK_DURABLE_MARK at the home (R198). -/
def durableMarked (scope : Nat) (key : Bytes) (device p : Nat) (s : State) : State := markCopy scope key device p s

/- Dropping (R219 to R222). -/

/-- A drop completes once every home has answered. -/
def dropEnd (cmd : Nat) (s : State) : State :=
  match s.drops.find? (fun d => d.cmd == cmd) with
  | none => s
  | some d => if d.waiting.isEmpty then complete cmd d.status 0 { s with drops := drop (fun x => x.cmd == cmd) s.drops } else s

/-- The worse of two outcomes of a drop (R220): PEER_LOST, then BUSY. The spec sets no order between the two.
(DESIGN CHOICE: log entry 87.) -/
def worseDrop (a b : Status) : Status := if a = .peerLost ∨ b = .peerLost then .peerLost else if a = .busy ∨ b = .busy then .busy else .ok

/-- One key of a PREFIX_DROP (R220): the copy goes from its entry, and the record is released. -/
def dropKey (cmd p i : Nat) (key : Bytes) (s : State) : State :=
  match s.pubs.find? (fun r => r.pitch == p && r.key == key && (r.st == .standing || r.st == .retry)) with
  | none => s
  | some r =>
    let s := { s with pubs := drop (fun x => x.id == r.id) s.pubs }
    let onDrop := fun (f : Drop → Drop) (s : State) => { s with drops := upd (fun d => d.cmd == cmd) f s.drops }
    match homeOf s key with
    | none => s
    | some d =>
      if d = deviceId s then homeDrop r.scope key d p s
      else match servicePeer s d with
        | some q => tell q (.drop (rd s .hallStockCfgEpoch 0) r.scope key (deviceId s) p)
            (onDrop (fun x => { x with waiting := x.waiting ++ [(i, d)] }) s)
        | none => onDrop (fun x => { x with status := .peerLost }) s

/-- PREFIX_DROP (R219, R220, R225). -/
def opPrefixDrop (c : Cmd) (s : State) : State :=
  let e := c.entry
  let kind := fieldOf e 0x10 1
  let n := fieldOf e 0x14 4
  let win := fieldOf e 0x18 4
  let off := fieldOf e 0x20 6
  match ringPitch s c.ring with
  | none => complete c.id .access 0 s
  | some p =>
    let check := if kind = 0 then worstCheck [locate s c.ring win off (16 * n) false] else none
    if scopeOf s p = 0 then complete c.id .access 0 s
    else match check with
    | some st => complete c.id st 0 s
    | none =>
      if 1 < kind ∨ !(zeroAt e 0x11 1) ∨ !(zeroAt e 0x1C 4) ∨ !(zeroAt e 0x26 26)
          ∨ (kind = 1 ∧ rd s .pitchPrefixCfgResultSlots p ≤ fieldOf e 0x12 2)
          ∨ (kind = 0 ∧ (n = 0 ∨ 8192 < n ∨ off % 16 ≠ 0)) then complete c.id .badParam 0 s
      else if kind = 1 then complete c.id .ok 0 (releaseSlot p (fieldOf e 0x12 2) s)
      else
        let go : Got State := (readOperand s c win off (16 * n)).bind (fun bs =>
          let s := startedCmd c.id { s with drops := s.drops ++ [{ cmd := c.id, waiting := [], status := .ok }] }
          let s := each ((chunks 16 n bs).zipIdx) (fun x => dropKey c.id p x.2 x.1) s
          .val (dropEnd c.id (sweepAll s)))
        gotElse c (fun st s => complete c.id st 0 s) go s

/-- STOCK_DROP at the home (R195, R220): the copy of a device and pitch goes. It is the sender's own, or one whose hold has failed
(R223). -/
def stockDrop (q epoch scope : Nat) (key : Bytes) (device p : Nat) (s : State) : State :=
  if epoch ≠ rd s .hallStockCfgEpoch 0 then tell q (.dropAnswer true) s
  else tell q (.dropAnswer false) (homeDrop scope key device p s)

/-- STOCK_DROP_ANSWER at the dropping device. -/
def dropAnswered (cmd i : Nat) (busy : Bool) (s : State) : State :=
  dropEnd cmd { s with drops := upd (fun d => d.cmd == cmd && d.waiting.any (fun w => w.1 == i)) (fun d =>
    { d with waiting := drop (fun w => w.1 == i) d.waiting, status := worseDrop d.status (if busy then .busy else .ok) }) s.drops }

/- Lost devices (R210, R223). -/

/-- ORPHAN_RELEASE (R210, R223): the peer has been unreachable for ORPHAN seconds. -/
def orphanRelease (q : Nat) (s : State) : State :=
  if (peerOf s q).reachable then s else
  let s := reach ((peerOf s q).unreachableSince + 1000000000 * rd s .hallStockCfgOrphan 0) s
  let d := (peerPlan s q).map (fun r => r.deviceId)
  sweepAll { s with
    holds := drop (fun h => h.peer == q) s.holds,
    pubs := drop (fun r => homeOf s r.key == d && (r.st == .standing || r.st == .retry)) s.pubs }

/-- What waits for a peer that is lost: inserts and drops end with PEER_LOST, probes miss, and the next copy is tried
(R202, R216, R220). -/
def prefixPeerLost (q : Nat) (s : State) : State :=
  let d := ((peerPlan s q).map (fun r => r.deviceId)).getD 0
  let s := each ((s.pubs.filter (fun r => r.st == .sent && homeOf s r.key == some d)).map (fun r => r.id))
    (fun id => insertAnswered id .peerLost) s
  let s := each ((s.drops.filter (fun x => x.waiting.any (fun w => w.2 == d))).map (fun x => x.cmd)) (fun cmd s =>
    dropEnd cmd { s with drops := upd (fun x => x.cmd == cmd) (fun x =>
      { x with waiting := drop (fun w => w.2 == d) x.waiting, status := .peerLost }) s.drops }) s
  each s.lookups (fun l s => match l.tryEntry, l.tryCopies with
    | some e, c :: rest =>
      if c.device ≠ d then s
      else if rest.isEmpty then lookupEnd l.cmd (onLookup l.cmd (fun l => { l with tryEntry := none, tryCopies := [] }) s)
      else askHold l.cmd e rest s
    | _, _ => if l.ended || (l.keys[l.at_]?).isNone then s else lookupOn l.cmd s) s

end Sys2Proof.Machine
end

