-- ==== Sys2Proof/Machine/Receive.lean ====
section
/-! DEFINITION. The receiving side of Etlos: admission, sequence, ordering, placement, reads, refusals, resynchronisation
and the loss of a peer (R339, R340, R343 to R349, R353 to R365, R370, R372). -/
namespace Sys2Proof.Machine

/- Reads and messages that fail. -/

/-- The status that a refusal code gives a command (R444, R100): REVOKED for 0x02, ACCESS for the others. -/
def nakStatus (code : Nat) : Status := if code = 2 then .revoked else .access

/-- The result writes of a command that are still to go are dropped (R369). -/
def dropResults (cmd : Nat) (s : State) : State :=
  { s with conns := s.conns.map (fun c => { c with
      queued := c.queued.map (fun p => if p.purpose == .result cmd then { p with purpose := .none } else p),
      unacked := c.unacked.map (fun p => if p.purpose == .result cmd then { p with purpose := .none } else p),
      doneMsgs := drop (fun m => m.2.1 == .result cmd) c.doneMsgs }) }

/-- A remote read ends without its data: the command that waits runs on with the status (R346, R359), an import ends with
it (R86), a fetch finds its source unreadable (R244). -/
def failRead (id : Nat) (st : Status) (s : State) : State :=
  match s.reads.find? (fun r => r.id == id) with
  | none => s
  | some r =>
    let s := { s with reads := drop (fun x => x.id == id) s.reads }
    match r.want with
    | .operand cmd w off =>
      onCmd cmd (fun c => { c with badIn := (w, off, r.len, st) :: c.badIn, wait := .runnable }) s
    | .importPage sid =>
      (match (s.seals.find? (fun x => x.id == sid)).bind (fun x => (seqOf s x.seq).bind (fun q => q.import_)) with
      | some i => seqDone i.cmd st 0 s
      | none => s)
    | .crate cr => fetchFails cr s

/-- A message was refused with a code on a port (R348, R369, R428, R444). -/
def msgFailed (p : Purpose) (code port : Nat) (s : State) : State :=
  match p with
  | .none => s
  | .completion r slot => freeSlot r slot (report (srcPort port) .resultRefused sevContained (ringPitch s r) s)
  | .result cmd => giveUp cmd port (dropResults cmd s)
  | .remoteWrite cmd => complete cmd (nakStatus code) 0 s
  | .readReq r => failRead r (nakStatus code) s

/-- The port under which the loss of a connection is logged: the lowest it may use. -/
def connPort (s : State) (c : Nat) : Nat := ((portsOf (rd s .fabConnCfgPortMask c)).head?).getD 0

/-- A message is abandoned with its peer (R359, R428). -/
def msgLost (c : Nat) (p : Purpose) (s : State) : State :=
  match p with
  | .none => s
  | .completion r slot => freeSlot r slot (report (srcPort (connPort s c)) .resultRefused sevContained (ringPitch s r) s)
  | .result cmd => giveUp cmd (connPort s c) (dropResults cmd s)
  | .remoteWrite cmd => complete cmd .peerLost 0 s
  | .readReq r => failRead r .peerLost s

/-- Everything sent or to be sent on a connection is abandoned, and what waits on it fails (R359). -/
def connLost (c : Nat) (s : State) : State :=
  let x := connOf s c
  let ps := distinct (x.queued.map (fun p => p.purpose) ++ x.unacked.map (fun p => p.purpose) ++ x.doneMsgs.map (fun m => m.2.1))
  let s := putConn { x with queued := [], unacked := [], doneMsgs := [], naksOut := [], ackPending := 0, ackFrame := none } s
  let s := each ps (msgLost c) s
  each ((s.reads.filter (fun r => r.conn == c)).map (fun r => r.id)) (fun id => failRead id .peerLost) s

/-- The packets of a connection that a port holds are discarded (R359, R364, R365, R372). -/
def discardHeld (c : Nat) (s : State) : State :=
  { s with ports := s.ports.map (fun p => { p with
      pending := drop (fun f => f.conn == c) p.pending, reorder := drop (fun f => f.conn == c) p.reorder }) }

/-- The frames of a peer that wait in the egress queues are abandoned, but for CTRL (R359). -/
def dropEgress (q : Nat) (s : State) : State :=
  let mine := fun (f : Frame) => f.src == some q && f.opcode != opCtrl
  { s with ports := s.ports.map (fun p => { p with egress := p.egress.map (fun e => { e with frames := drop mine e.frames }) }) }

/-- The data of PEER_UNREACHABLE and PEER_REACHABLE, and who gets them (R371). (DEDUCED: log entry 45.) -/
def peerEvent (code q : Nat) (s : State) : State :=
  postTo (0 :: (peerPitches s q).map (· + 1)) code (srcPort 0) (leBytes 2 q) s

/-- Fetches that wait for a table from a peer fail (R317). -/
def tablesLost (q : Nat) (s : State) : State :=
  let asked := distinct ((s.pendingTables.filter (fun t => t.2.2.isNone)).map (fun t => t.1))
  each (asked.filter (fun id => ((crateOf s id).bind (fun c => c.origin)).bind (fun h => peerOfDevice s h.device) == some q))
    fetchFails s

/-- A peer becomes unreachable (R359). (DEDUCED: log entry 45.) -/
def peerLost (q : Nat) (s : State) : State :=
  let conns := connsOfPeer s q
  if (peerOf s q).reachable = false ∧ conns.all (fun c => rd s .fabConnStateState c == 2) then s else
  let s := onPeer q (fun x => { x with reachable := false, probeAt := none, unreachableSince := s.localTime }) s
  let s := each conns (fun c s => wr .fabConnStateState c 2 (onConn c (fun x => { x with asked := none }) (discardHeld c s)))
    (dropEgress q s)
  let s := tablesLost q (lenderLost q (stripePeerLost q (prefixPeerLost q (each conns connLost s))))
  peerEvent 0x0003 q s

/-- Messages given to a connection whose peer is unreachable fail at once (R359). -/
def abandonDead (s : State) : State :=
  each ((s.conns.filter (fun c => !(c.queued.isEmpty) && rd s .fabConnStateState c.num == 2)).map (fun c => c.num)) connLost s

/-- Trust in a peer lapses: its association closes and it becomes unreachable (R488, R400). Causes: 1 confirmation
missing, 2 association closed, 3 attestation failed. -/
def trustLapses (q cause : Nat) (s : State) : State :=
  peerLost q (wr .fabAssocStateRekeying q 0 (wr .fabAssocStateState q 3
    (wr .secPeerTrustTrusted q 0 (wr .secPeerTrustCause q cause s))))

/-- A counter of a direction has reached its last value (R400). -/
def counterLast (n : Nat) : Bool := decide (281474976710655 ≤ n)

/- Probes and resynchronisation (R358 to R360). -/

/-- The payload of a CTRL packet (R358). -/
def ctrlPayload (kind psn epoch : Nat) : Bytes :=
  leBytes 1 kind ++ leBytes 3 0 ++ leBytes 4 psn ++ leBytes 2 epoch ++ leBytes 6 0

/-- Send a CTRL packet of the device's own on a connection: on its next path, where one is usable. -/
def sendCtrl (c kind psn epoch : Nat) (s : State) : State :=
  match nextPath s c none with
  | none => s
  | some x => sendUnsequenced c x.1 (pathPort c x.2) opCtrl (ctrlPayload kind psn epoch) s

/-- Probe a peer on its service connection, or on its first connection where the plan lists none (R332, R359, R360).
(DEDUCED: log entry 45.) -/
def probePeer (q : Nat) (s : State) : State :=
  let s := onPeer q (fun x => { x with probeAt := some s.localTime }) s
  match (serviceConn s q).or (connsOfPeer s q).head? with
  | some c => sendCtrl c 1 0 0 s
  | none => s

/-- The transport state of a connection as it starts anew under an epoch, with what was queued before numbered again from
a new initial PSN (R358, R360, R382). (DEDUCED: log entry 41.) -/
def freshConn (c epoch : Nat) (s : State) : State :=
  let x := connOf s c
  let psn := freeBits s 32
  let num := fun (y : TxPkt × Nat) => { y.1 with frame := { y.1.frame with psn := psnAdd psn y.2, epoch := epoch } }
  let s := putConn { Conn.fresh c with
    epoch := epoch, txPsn := psnAdd psn x.queued.length, txCum := psnAdd psn 4294967295, msgId := x.msgId,
    queued := (x.queued.zipIdx).map num, lastUse := s.localTime } (freshen (discardHeld c s))
  wr .fabConnCcCwnd c (rd s .fabCcCfgInit 0 * 1024) (wr .fabConnStateRtoUs c 20 (wr .fabConnCcAvoided c 0 s))

/-- Ask a peer to resynchronise a connection with a new epoch (R360). (DEDUCED: log entry 41.) -/
def resync (c : Nat) (s : State) : State :=
  let e := ((connOf s c).epoch + 1) % 65536
  let s := onConn c (fun x => { x with asked := some e }) (freshConn c e s)
  sendCtrl c 3 (psnAdd (connOf s c).txCum 1) e s

/-- A peer resynchronises: every granule lent to it is discarded (R486). (DEDUCED: log entry 41.) -/
def discardLent (q : Nat) (s : State) : State :=
  each ((s.leases.filter (fun l => l.lent && l.peer == q)).map (fun l => l.id)) endLent s

/-- A peer answers, and its association is valid: every connection to it is resynchronised, and PEER_REACHABLE is raised
(R360). A peer that was reachable all along and answers a poll wake resynchronises without the event (R547).
(DEDUCED: log entry 45.) -/
def peerAnswers (q : Nat) (s : State) : State :=
  if !(assocUp s q) then s
  else if (peerOf s q).reachable then
    (if (peerOf s q).polled then each (connsOfPeer s q) resync (onPeer q (fun x => { x with polled := false }) s) else s)
  else
  let s := onPeer q (fun x => { x with reachable := true, polled := false, probeAt := none, lastHeard := s.localTime }) s
  peerEvent 0x0004 q (each (connsOfPeer s q) resync (discardLent q s))

/-- A connection is up with the peer's initial PSN (R358). -/
def connUp (c psn : Nat) (s : State) : State :=
  let s := onConn c (fun x => { x with asked := none, rxCum := psnAdd psn 4294967295 }) s
  pumpAll c (wr .fabConnStateState c 1 s)

/-- A RESYNC arrives (R358): the connection takes its epoch, unless this device's own RESYNC with a later epoch waits for
its answer; then the peer takes that one. (DEDUCED: log entry 41.) -/
def resyncArrives (c : Nat) (f : Frame) (s : State) : State :=
  let psn := leAt f.payload 4 4
  let e := leAt f.payload 8 2
  let x := connOf s c
  let own := match x.asked with
    | some a => decide (1 ≤ (a + 65536 - e) % 65536 ∧ (a + 65536 - e) % 65536 < 32768)
    | none => false
  if own then s else
  let s := if x.asked = some e then s else freshConn c e (connLost c (discardLent (connPeer s c) s))
  let first := psnAdd (connOf s c).txCum 1
  let s := sendUnsequenced c f.port f.udpSrc opCtrl (ctrlPayload 4 first e) s
  connUp c psn s

/-- A RESYNC_ACK arrives (R358): it counts when it answers the RESYNC that waits. (DEDUCED: log entry 41.) -/
def resyncAnswered (c : Nat) (f : Frame) (s : State) : State :=
  if (connOf s c).asked = some (leAt f.payload 8 2) then connUp c (leAt f.payload 4 4) s else s

/- Refusals (R345, R348, R349, R351). -/

/-- Send a NAK on a connection for a packet, on the port and source port of that packet (R348, R351). `own` says that the
packet came on this connection. A NAK with READ_END refers to no PSN, so it does not count for NAK_HIGH (R348, R353).
(DEDUCED: log entries 40 and 42.) -/
def sendNak (c code window offset : Nat) (readEnd own : Bool) (f : Frame) (s : State) : State :=
  let x := connOf s c
  let p := nakPacket s c x.txPsn f.port f.udpSrc (nakPayload f.psn f.msgId code readEnd window offset)
  let s := putConn { x with
    queued := x.queued ++ [p], txPsn := psnAdd x.txPsn 1, msgId := (x.msgId + 1) % 65536,
    naksOut := if own && !readEnd then x.naksOut ++ [(x.txPsn, f.psn)] else x.naksOut } s
  pumpAll c (bump .fabReliabilityNaksSent f.port 1 s)

/-- A FINAL is settled: it is the previous FINAL of those after it (R363). -/
def finalSettled (c : Nat) (f : Frame) (s : State) : State :=
  if f.final then onConn c (fun x => { x with refused := x.refused.filter (fun r => later r f.psn) }) s else s

/-- A packet is refused: it counts as received, and a NAK reports it (R345). (DEDUCED: log entry 39.) -/
def refuse (c code : Nat) (f : Frame) (s : State) : State :=
  let s := sendNak c code f.window f.offset false true f s
  finalSettled c f (if f.final then s else onConn c (fun x => { x with refused := x.refused ++ [f.psn] }) s)

/- Placement (R339, R340, R344). -/

/-- A packet between the previous FINAL and this one was refused (R363). (DEDUCED: log entry 39.) -/
def fenced (s : State) (c : Nat) (f : Frame) : Bool := (connOf s c).refused.any (fun r => later f.psn r)

/-- The refusal code of the kind's rules for a write into a window (R340, R349). A ring that does not run takes nothing. -/
def kindCode (s : State) (w : Window) (f : Frame) : Option Nat :=
  match w.kind with
  | 0 | 1 => none
  | 2 =>
    let r := w.base
    if !f.final ∨ f.offset % 64 ≠ 0 ∨ f.length % 64 ≠ 0 ∨ f.length = 0 then some 5
    else if ringRunning s r = false ∨ fabricRing s r = false then some 1
    else if f.offset = 64 * rd s .pciRingStateTail r then (if ringRoom s r < f.length / 64 then some 6 else none)
    else if ringRoom s r = 0 then some 6 else some 5
  | _ => if !f.final ∨ f.offset % 8 ≠ 0 ∨ f.length % 8 ≠ 0 ∨ f.length = 0 then some 5 else none

/-- What a WRITE meets at its placement: the window, or the refusal code (R339, R340, R349, R363).
(DEDUCED: log entries 39 and 40.) -/
def writeCheck (s : State) (c : Nat) (f : Frame) : Except Nat Window :=
  if connClosing s c then .error 7
  else if f.final ∧ fenced s c f then .error 4
  else if f.length ≠ f.payload.length ∨ maxPayload s < f.length then .error 5
  else match remoteUse s c f.window f.offset f.length permRemoteWrite with
    | .error e => .error e
    | .ok w => match kindCode s w f with
      | some k => .error k
      | none => .ok w

/-- The chits that a write to a CHIT window sets, with their values (R340). -/
def chitValues (base : Nat) (f : Frame) : List (Nat × Nat) :=
  (List.range (f.length / 8)).map (fun i => (base + f.offset / 8 + i, leAt f.payload (8 * i) 8))

/-- A write is placed, and a FINAL fires its effect (R344, R340, R362). -/
def placeWrite (w : Window) (f : Frame) (s : State) : State :=
  let after := fun (s : State) => if f.final ∧ w.chit ≠ noChit then updateChit (.add w.chit 1) s else s
  match w.kind with
  | 0 => after (writeDram w.pitch (w.base + f.offset) f.payload s)
  | 1 => after { s with hall := Memory.writeN s.hall (w.base + f.offset) f.payload }
  | 2 =>
    let r := w.base
    let a := ringAreaBase s r + rd s .pciRingAddrSubAddr r + f.offset
    acceptTo r ((f.offset + f.length) / 64 % ringSize s r) { s with hall := Memory.writeN s.hall a f.payload }
  | _ => each (chitValues w.base f) (fun x => updateChit (.set x.1 x.2)) s

/- Remote reads (R346, R347, R244). -/

/-- Queue the READ_RESP packets of a read under the request's MSG_ID (R347). Each takes its data, and is checked, as it leaves. -/
def respond (c : Nat) (f : Frame) (window offset : Nat) (parts : List (Nat × Bytes)) (source : Nat → Nat → Source) (s : State) : State :=
  let x := connOf s c
  let base := { blankFrame s c with opcode := opReadResp, window := window, msgId := f.msgId }
  let packet := fun (y : (Nat × Bytes) × Nat) =>
    let i := y.2
    let before := sumBy (fun z => z.1) (parts.take i)
    let p : TxPkt := {
      conn := c, purpose := .none, path := none, sentAt := 0, later := 0, source := some (source before y.1.1),
      frame := { base with
        first := i == 0, last := i + 1 == parts.length, ackreq := i + 1 == parts.length, psn := psnAdd x.txPsn i, pktIndex := i,
        offset := offset + before, length := y.1.1, payload := y.1.2 } }
    p
  pumpAll c (putConn { x with queued := x.queued ++ parts.zipIdx.map packet, txPsn := psnAdd x.txPsn parts.length } s)

/-- The crate service serves a READ_REQ on a service connection (R244, R332, R486): it sends the whole packed copy. -/
def crateService (c : Nat) (f : Frame) (window offset : Nat) (s : State) : State :=
  let q := connPeer s c
  let p := bits f.offset 44 4
  let loc := bits f.offset 0 44
  let hit := s.crates.find? (fun k => k.pitch == p && (match k.flash with
    | some h => h.location.toNat == loc
    | none => false) && s.holds.any (fun h => h.peer == q && h.pitch == p && h.crates.contains k.id))
  if f.window ≠ 1 then sendNak c 1 f.window f.offset true true f s
  else if pitchGoes s p then sendNak c 7 f.window f.offset true true f s
  else match hit with
    | none => sendNak c 1 f.window f.offset true true f s
    | some k => respond c f window offset ((packets (maxPayload s) (packCrate s k)).map (fun b => (b.length, b)))
        (fun _ n => { window := f.window, offset := f.offset, bytes := n, port := f.port, udpSrc := f.udpSrc, msgId := f.msgId,
                      crate := some p }) s

/-- A READ_REQ is served (R346, R347). (DEDUCED: log entry 40.) -/
def serveRead (c : Nat) (f : Frame) (s : State) : State :=
  let window := leAt f.payload 0 4
  let len := leAt f.payload 4 4
  let offset := leAt f.payload 8 6
  if connClosing s c then refuse c 7 f s
  else if f.length ≠ 16 ∨ f.payload.length ≠ 16 ∨ len = 0 ∨ 16777216 < len then refuse c 5 f s
  else if on s .fabConnCfgService c then crateService c f window offset s
  else respond c f window offset ((pieces (maxPayload s) len).map (fun x => (x.2, [])))
    (fun before n => { window := f.window, offset := f.offset + before, bytes := n, port := f.port, udpSrc := f.udpSrc,
                       msgId := f.msgId, crate := none }) s

/-- The data of a read has all been placed. -/
def readDone (r : Read) (s : State) : State :=
  match r.want with
  | .operand cmd w off =>
    onCmd cmd (fun c => { c with inputs := (w, off, readBytes r) :: c.inputs, wait := .runnable })
      { s with reads := drop (fun x => x.id == r.id) s.reads }
  | .crate id => askTables id s
  | .importPage _ => s

/-- What a READ_RESP packet meets at its placement into a read of this device (R339, R347, R349): the refusal code where its
connection is closing, its length disagrees, or it lies outside what the request asked for. A crate fetch runs to the end of the
copy (R244). (DEDUCED: log entry 40.) -/
def respCode (s : State) (c : Nat) (r : Read) (f : Frame) : Option Nat :=
  let free : Bool := match r.want with
    | .crate _ => true
    | _ => false
  if connClosing s c then some 7
  else if f.length ≠ f.payload.length ∨ maxPayload s < f.length then some 5
  else if !free ∧ (f.offset < r.base ∨ r.base + r.len < f.offset + f.length) then some 1
  else none

/-- A READ_RESP packet is placed (R347): into the read of this device that carries its MSG_ID, else as a write into the
window it names. (DEDUCED: log entry 40.) -/
def placeResp (c : Nat) (f : Frame) (s : State) : State :=
  match s.reads.find? (fun r => r.conn == c && r.msgId == f.msgId && !r.done) with
  | none => match writeCheck s c f with
    | .error e => refuse c e f s
    | .ok w => placeWrite w f s
  | some r =>
    match respCode s c r f with
    | some e => refuse c e f s
    | none =>
    let data := r.data ++ [(f.offset, f.payload)]
    let endAt := if f.last then some (f.offset + f.length) else r.endAt
    let got := sumBy (fun x => x.2.length) data
    let whole := match endAt with
      | some n => decide (n ≤ r.base + got)
      | none => false
    let r := { r with data := data, endAt := endAt, done := whole }
    let s := { s with reads := upd (fun x => x.id == r.id) (fun _ => r) s.reads }
    if whole then readDone r s else s

/-- A NAK is taken (R348): a read ends, or a message is refused. -/
def nakArrives (c : Nat) (f : Frame) (s : State) : State :=
  let psn := leAt f.payload 0 4
  let msg := leAt f.payload 4 2
  let code := leAt f.payload 6 1
  let x := connOf s c
  if bit (leAt f.payload 7 1) 0 then
    match s.reads.find? (fun r => r.conn == c && r.msgId == msg && !r.done) with
    | some r => failRead r.id (nakStatus code) s
    | none => s
  else
    let sent := (x.unacked ++ x.queued).find? (fun p => p.frame.psn == psn)
    let late := x.doneMsgs.find? (fun m => m.1 == msg && m.2.1 != .none)
    let p := match sent, late with
      | some p, _ => p.purpose
      | none, some m => m.2.1
      | none, none => .none
    if p = .none then s else
    let clear := fun (y : TxPkt) => if y.purpose = p ∧ y.frame.msgId = msg then { y with purpose := .none } else y
    msgFailed p code f.port (putConn { x with
      queued := x.queued.map clear, unacked := x.unacked.map clear,
      doneMsgs := drop (fun m => m.1 == msg && m.2.1 == p) x.doneMsgs } s)

/- Sequence and order (R353 to R356, R361 to R366). -/

/-- A placement of a packet must wait for a snoop of the host's lines (R449): the lines to snoop. -/
def snoopRange (s : State) (c : Nat) (f : Frame) : Option (Nat × Nat × Nat) :=
  if f.opcode = opWrite then
    match writeCheck s c f with
    | .ok w => if w.kind = 0 ∧ mustSnoop s w.pitch (w.base + f.offset) f.length true then some (w.pitch, w.base + f.offset, f.length)
        else none
    | .error _ => none
  else none

/-- A received packet is settled: placed or refused (R345). -/
def settleFrame (c : Nat) (f : Frame) (s : State) : State :=
  if f.opcode = opWrite then
    (match writeCheck s c f with
    | .error e => refuse c e f s
    | .ok w => finalSettled c f (placeWrite w f s))
  else if f.opcode = opReadReq then serveRead c f s
  else if f.opcode = opReadResp then placeResp c f s
  else nakArrives c f s

/-- The packets of a connection that ports hold. (DEDUCED: log entry 43.) -/
def heldOf (s : State) (c : Nat) : List Frame :=
  s.ports.flatMap (fun p => (p.pending ++ p.reorder).filter (fun f => f.conn == c))

/-- A packet may be settled now: its order allows it (R361, R362, R365). -/
def inTurn (s : State) (c : Nat) (f : Frame) : Bool :=
  (!f.final && !(on s .fabConnCfgMode c))
    || (!(later f.psn (connOf s c).rxCum) && (heldOf s c).all (fun g => g.psn == f.psn || later g.psn f.psn))

/-- Remove a held packet. -/
def unhold (c psn : Nat) (s : State) : State :=
  { s with ports := s.ports.map (fun p => { p with
      pending := drop (fun f => f.conn == c && f.psn == psn) p.pending,
      reorder := drop (fun f => f.conn == c && f.psn == psn) p.reorder }) }

/-- Settle the held packets of a connection whose turn has come, in PSN order. The fuel bounds their number. -/
def drainHeld (c : Nat) : Nat → State → State
  | 0, s => s
  | n + 1, s =>
    let base := (connOf s c).rxCum
    let ready := (heldOf s c).filter (fun f => inTurn s c f && (snoopRange s c f).isNone)
    match leastBy (fun (f : Frame) => psnDist f.psn (psnAdd base 2147483648)) ready with
    | none => s
    | some f => drainHeld c n (settleFrame c f (unhold c f.psn s))

/-- Settle what can be settled on a connection, and the messages that this lets succeed (R355). -/
def settleConn (c : Nat) (s : State) : State := pumpAll c (settleMsgs c (drainHeld c (heldOf s c).length s))

/-- A connection's next packet takes data that may have waited for a snoop (R449). -/
def Conn.reads (x : Conn) : Bool := ((x.queued.head?).map (fun p => p.source.isSome)).getD false

/-- Every connection with held packets, or with a packet of a remote read next, goes on. -/
def heldGoOn (s : State) : State :=
  each (distinct (s.ports.flatMap (fun p => (p.pending ++ p.reorder).map (fun f => f.conn))
    ++ (s.conns.filter Conn.reads).map (fun x => x.num))) settleConn s

/-- A PSN counts as received; the cumulative one moves over what is received (R353). The fuel bounds the steps. -/
def advance : Nat → Nat → List Nat → Nat × List Nat
  | 0, cum, seen => (cum, seen)
  | n + 1, cum, seen =>
    if seen.contains (psnAdd cum 1) then advance n (psnAdd cum 1) (seen.erase (psnAdd cum 1)) else (cum, seen)

/-- Mark a PSN as received. -/
def markReceived (c psn : Nat) (s : State) : State :=
  onConn c (fun x =>
    let r := advance (x.rxSeen.length + 1) x.rxCum (psn :: x.rxSeen)
    { x with rxCum := r.1, rxSeen := r.2, lastUse := s.localTime }) s

/-- FINALs in a port's pending-final buffer, and their payload (R364). -/
def pendingFinals (p : Port) : List Frame := p.pending.filter (fun f => f.final)

/-- A sequenced packet arrives in its window (R354): it is dropped for want of a buffer, held, or settled. -/
def takePacket (c : Nat) (f : Frame) (s : State) : State :=
  let ordered := on s .fabConnCfgMode c
  let p := portOf s f.port
  let t := markReceived c f.psn s
  if inTurn t c f then
    match snoopRange t c f with
    | none => settleFrame c f t
    | some (q, a, n) => onPort f.port (fun x => { x with pending := x.pending ++ [f] }) (snoop q a n t)
  else if ordered then
    (if 256 ≤ p.reorder.length then bump .fabOrderStatRoDrops f.port 1 s
     else onPort f.port (fun x => { x with reorder := x.reorder ++ [f] }) t)
  else
    (if 2048 ≤ (pendingFinals p).length ∨ 1048576 < sumBy (fun g => g.payload.length) (pendingFinals p) + f.payload.length then
       bump .fabOrderStatPfFull f.port 1 s
     else onPort f.port (fun x => { x with pending := x.pending ++ [f] }) t)

/-- A sequenced packet of the present epoch arrives on a connection (R354, R356). Every write of an LY-7 counts as FINAL
(R366). (DEDUCED: log entry 43.) -/
def sequenced (c : Nat) (f : Frame) (s : State) : State :=
  let x := connOf s c
  let f := { f with final := f.final || (isLy7 s (connPeer s c) && f.opcode == opWrite) }
  let d := psnDist f.psn x.rxCum
  if !(later f.psn x.rxCum) ∨ x.rxSeen.contains f.psn then sendAck c f s.localTime s
  else if 256 < d then s
  else
    let s := takePacket c f s
    let n := ((heldOf s c).filter (fun g => g.final)).length
    let s := drainHeld c (heldOf s c).length s
    let freed := decide (((heldOf s c).filter (fun g => g.final)).length < n)
    let y := connOf s c
    let taken := !(later f.psn y.rxCum) || y.rxSeen.contains f.psn
    let s := if !taken then s
      else if f.ackreq ∨ f.final ∨ d ≠ 1 ∨ freed then sendAck c f s.localTime s
      else ackLater c f s
    pumpAll c (settleMsgs c s)

/-- A CTRL packet arrives (R358 to R360). -/
def ctrlArrives (c : Nat) (f : Frame) (s : State) : State :=
  match leAt f.payload 0 1 with
  | 1 => sendUnsequenced c f.port f.udpSrc opCtrl (ctrlPayload 2 0 0) s
  | 2 => peerAnswers (connPeer s c) s
  | 3 => resyncArrives c f s
  | 4 => resyncAnswered c f s
  | _ => s

/-- A frame that the association admits (R329, R358, R361, R370). (DEDUCED: log entries 41 and 42.) -/
def admitted (q : Nat) (f : Frame) (s : State) : State :=
  let c := f.conn
  if f.ver ≠ versionFor s q ∨ f.opcode = 0 ∨ 6 < f.opcode then stranger f.port s
  else if !(on s .fabConnCfgValid c) ∨ connPeer s c ≠ q then
    (match (connsOfPeer s q).head? with
    | some k => sendNak k 3 f.window f.offset false false f (bump .fabRxStatFrames f.port 1 s)
    | none => s)
  else if f.ordered ≠ on s .fabConnCfgMode c then stranger f.port s
  else
    let s := touch c (bump .fabRxStatFrames f.port 1 s)
    if f.opcode = opCtrl then ctrlArrives c f s
    else if rd s .fabConnStateState c ≠ 1 then s
    else if f.epoch ≠ (connOf s c).epoch then bump .fabConnStateEpochDrops c 1 s
    else if f.opcode = opAck then ackArrives c f s
    else sequenced c f s

/-- A frame is taken from a port (R395 to R400, R370). -/
def receive (f : Frame) (s : State) : State :=
  match admission f s with
  | .error s => s
  | .ok (q, s) =>
    let s := admitted q f s
    if counterLast f.counter then trustLapses q 2 s else s

/-- Some ring has accepted work. -/
def workWaits (s : State) : Bool := s.rings.any (fun r => !(r.accepted.isEmpty))

/-- A frame waits in the ingress FIFO of its port, or is dropped when that is full (R21, R548). (DEDUCED: log entry 46.) -/
def queueIngress (f : Frame) (s : State) : State :=
  if 1048576 < sumBy (frameLen s) (portOf s f.port).ingress + frameLen s f then bump .fabRxStatIngressOvf f.port 1 s
  else onPort f.port (fun x => { x with ingress := x.ingress ++ [f] }) s

/-- A frame arrives at a port (R548). In P2 data waits in the ingress FIFO and wakes the device; in P3 nothing is received;
in P1 data is placed at once. (DEDUCED: log entry 46.) -/
def arrives (f : Frame) (s : State) : State :=
  if !(portUsable s f.port) ∨ rd s .pwrStateState 0 = 3 then s
  else if rd s .pwrStateState 0 = 2 ∧ f.opcode ≠ opAck ∧ f.opcode ≠ opCtrl then queueIngress f (startWake s)
  else
    let t := receive f s
    if workWaits t then startWake t else t

/-- The frame of a row of the table: a packet of an opcode, and of a CTRL kind. -/
def asPacket (op kind : Nat) (f : Frame) : Frame :=
  { f with opcode := op, payload := if op = opCtrl then leBytes 1 kind ++ f.payload.drop 1 else f.payload }

/-- The frame of an RX_WRITE: a WRITE, or a frame whose opcode is none of R329. -/
def asWrite (f : Frame) : Frame := if 1 ≤ f.opcode ∧ f.opcode ≤ 6 then { f with opcode := opWrite } else f

/-- A frame arrives, on a port that exists. -/
def rxFrame (f : Frame) (s : State) : Out State := due (decide (f.port < 8)) s (arrives f)

/- Timers (R356, R357, R359, R360). -/

/-- A retransmission timer expires (R357, R366, R384, R359). -/
def rtoExpires (c psn : Nat) (s : State) : State :=
  let x := connOf s c
  match x.unacked.find? (fun p => p.frame.psn == psn) with
  | none => s
  | some p =>
    let s := reach (p.sentAt + x.rto) s
    let l := if isLy7 s (connPeer s c) then x.unacked else [p]
    let s := putConn { x with rto := min 10000000 (2 * x.rto), expiries := x.expiries + 1 } s
    let s := wr .fabConnCcCwnd c (maxPayload s) (showRto c s)
    let again := fun (p : TxPkt) (s : State) =>
      let t := resend c p s
      match ((connOf t c).unacked.find? (fun y => y.frame.psn == p.frame.psn)).bind (fun y => y.path) with
      | some path => if (nextPath s c p.path).isSome then bump .fabReliabilityRtoExpiries path.1 1 t else t
      | none => t
    let s := each l again s
    if rd s .fabTransportCfgRetryMax 0 ≤ x.expiries + 1 then peerLost (connPeer s c) s else s

/-- A peer has been silent for 1 ms (R359). -/
def silenceProbe (q : Nat) (s : State) : State :=
  let x := peerOf s q
  if x.reachable = false ∨ x.probeAt.isSome then s else probePeer q (reach (x.lastHeard + 1000000) s)

/-- A PROBE has stayed unanswered for 10 ms (R359). -/
def probeUnanswered (q : Nat) (s : State) : State :=
  match (peerOf s q).probeAt with
  | none => s
  | some t => peerLost q (reach (t + 10000000) s)

/-- A PROBE to an unreachable peer (R360). -/
def unreachableProbe (q : Nat) (s : State) : State :=
  let x := peerOf s q
  if x.reachable then s
  else probePeer q (reach (match x.probeAt with
    | some t => t + 1000000
    | none => x.unreachableSince) s)

/-- An avoided path rejoins the rotation (R385). -/
def avoidEnds (c k : Nat) (s : State) : State :=
  if bit (rd s .fabConnCcAvoided c) k = false then s else
  let s := reach (pathOf (connOf s c) k).avoidUntil s
  pumpAll c (wr .fabConnCcAvoided c (rd s .fabConnCcAvoided c - 2 ^ k) s)

/-- A 10 s interval ends: the current samples become the previous ones (R381). -/
def baseInterval (s : State) : State :=
  let s := reach ((s.localTime / 10000000000 + 1) * 10000000000) s
  { s with conns := s.conns.map (fun c => { c with paths := c.paths.map (fun k => { k with prev := k.cur, cur := none }) }) }

/-- A port starts a frame (R388 to R391, R398, R400): the chosen head frame leaves under its association's next counter. -/
def frameStart (p : Nat) (s : State) : State :=
  if !(portUsable s p) then s else
  match choose s p (portOf s p) with
  | none => onPort p (spinRounds s p) s
  | some (q, l, round) => match (queueAt l q).frames with
    | [] => s
    | f :: _ =>
      let s := onPort p (fun x => { x with egress := takeHead s p q l, round := round }) s
      let up := match f.src with
        | some peer => assocUp s peer
        | none => true
      if !up then s else
      let r := protect f s
      let i := 32 * p + q
      let id := match f.src with
        | some peer => (peerOf s peer).assocId
        | none => 0
      let s := freshen { r.2 with wire := r.2.wire ++
        [{ frame := r.1, dscp := rd s .fabEgressCfgDscp i, ecn := 0, pcp := rd s .fabEgressCfgPcp i, ipv4 := on s .fabTransportCfgIpv4 0,
           tagged := taggedPort s p, udp := udpHeader s r.1, assoc := assocHeader id r.1,
           plain := etlosHeader r.1 ++ r.1.payload }] }
      match f.src with
      | some peer => if counterLast r.1.counter then trustLapses peer 2 s else s
      | none => s

/-- Two devices or a device and a client have attested each other (R487, R395): trust and an association, or a failure.
(DEDUCED: log entry 45.) (DESIGN CHOICE: log entry 13.) -/
def peerAttested (q : Nat) (o : AttestOutcome) (s : State) : State :=
  let device := match peerPlan s q with
    | some r => r.kind == .ly9
    | none => false
  let ok := o.chainOk && (!device || (o.lmsOk && o.deviceIdOk && o.confEqual)) && o.measuresOk
  if ok && assocUp s q then s
  else if ok then
    let s := wr .secPeerTrustTrusted q 1 (wr .fabAssocStateKeyPhase q 0 (wr .fabAssocStateRekeying q 0 (wr .fabAssocStateState q 2 s)))
    let s := onPeer q (fun x => { Peer.fresh q with
      reachable := x.reachable, bornAt := s.localTime, lastHeard := s.localTime,
      assocId := freeBits s 32 }) (freshen s)
    peerAnswers q s
  else
    let s := bump .secPeerTrustFails q 1 s
    if on s .secPeerTrustTrusted q ∨ assocUp s q then trustLapses q 3 s else wr .secPeerTrustCause q 3 s

end Sys2Proof.Machine
end

