-- ==== Sys2Proof/Machine/ChitCmds.lean ====
section
/-! DEFINITION. The commands of the chit unit (R442 to R445). -/
namespace Sys2Proof.Machine

/-- The function that owns the ring of a command. -/
def cmdOwner (s : State) (c : Cmd) : Nat := (ringFn s c.ring).getD 0

/-- CHIT_SET and CHIT_ADD (R442): the checks, and the update with its own value. -/
def chitUpdateCmd (c : Cmd) (add : Bool) (s : State) : State :=
  let e := c.entry
  let i := fieldOf e 0x10 4
  let v := fieldOf e 0x18 8
  if !(chitOwned s (cmdOwner s c) i) then failWord c.id .access s
  else if !(zeroAt e 0x14 4) ∨ !(zeroAt e 0x20 32) then failWord c.id .badParam s
  else
    let after := if add then (chitVal s i + v) % 2 ^ 64 else v
    complete c.id .ok after (updateChit (if add then .add i v else .set i v) s)

/-- CHIT_SET (R442). -/
def opChitSet (c : Cmd) (s : State) : State := chitUpdateCmd c false s

/-- CHIT_ADD (R442). -/
def opChitAdd (c : Cmd) (s : State) : State := chitUpdateCmd c true s

/-- The trigger that a CHIT_WAIT describes (R443). -/
def triggerOf (c : Cmd) (owner now : Nat) : Trigger :=
  let e := c.entry
  let us := fieldOf e 0x20 4
  { cmd := c.id, owner := owner, index := fieldOf e 0x10 4, threshold := fieldOf e 0x18 8, action := fieldOf e 0x14 1,
    vector := fieldOf e 0x16 2, deadline := if us = 0 then none else some (now + 1000 * us), conn := fieldOf e 0x24 2,
    window := fieldOf e 0x28 4 % 2147483648, releaseId := fieldOf e 0x2C 4, offset := fieldOf e 0x30 6, value := fieldOf e 0x38 8 }

/-- The fields that the action of a CHIT_WAIT uses are in range (R445 step 3). -/
def actionOk (s : State) (owner : Nat) (t : Trigger) (window : Nat) : Bool :=
  match t.action with
  | 1 => decide (t.vector < rd s .pciFnStatusVectors owner)
  | 2 => owner != 0 && on s .fabConnCfgValid t.conn && !(on s .fabConnCfgService t.conn)
      && rd s .fabConnCfgPitch t.conn == owner - 1 && bit window 31 && t.offset % 8 == 0
  | _ => true

/-- CHIT_WAIT (R443 to R445). (DEDUCED: log entry 50.) -/
def opChitWait (c : Cmd) (s : State) : State :=
  let e := c.entry
  let owner := cmdOwner s c
  let t := triggerOf c owner s.localTime
  if !(chitOwned s owner t.index) then complete c.id .access 0 s
  else if 3 < t.action ∨ !(zeroAt e 0x15 1) ∨ !(zeroAt e 0x26 2) ∨ !(zeroAt e 0x36 2) ∨ 60000000 < fieldOf e 0x20 4 then
    complete c.id .badParam 0 s
  else if !(actionOk s owner t (fieldOf e 0x28 4)) then complete c.id .badParam 0 s
  else if rd s .pciChitRangeTrigQuota owner ≤ countBy (fun (x : Trigger) => x.owner == owner) s.triggers then
    complete c.id .noSpace 0 s
  else
    let s := startedCmd c.id { s with triggers := s.triggers ++ [t] }
    if t.threshold ≤ chitVal s t.index then settleChits (fireTrigger (chitVal s t.index) t s) else s

end Sys2Proof.Machine
end

