-- ==== Sys2Proof/Machine/Cxl.lean ====
section
/-! DEFINITION. The CXL window: the ledger image, host accesses, the snoop filter, and the loss of a host (R38, R448 to
R451). -/
namespace Sys2Proof.Machine

/-- The value of a sequence state in a ledger entry (R38). -/
def SeqSt.code : SeqSt → Nat
  | .free => 0
  | .open_ => 1
  | .active => 2
  | .parked => 3
  | .closing => 4
  | .damaged => 5

/-- The COUNTS field of a ledger entry (R38, R39): each count lies in its own bits, BARROW_FILL in 9.
(DEDUCED: log entry 79.) -/
def ledgerCounts (q : Seq) : Nat :=
  let len := seqLength q
  let pages := seqSealed q
  len % 2 ^ 22 + 4194304 * (pages % 2 ^ 14) + 68719476736 * ((len - 256 * pages) % 512) + 35184372088832 * (seqTent q % 128)

/-- LCOUNTS of a layer directory entry (R44). -/
def layerCounts (l : Layer) : Nat :=
  l.len % 2 ^ 22 + 2 ^ 22 * (l.sealed % 2 ^ 14) + 2 ^ 36 * (l.cur % 2) + 2 ^ 37 * b2n l.sealing + 2 ^ 38 * (l.tent % 128)

/-- The DRAM address of a structure of a layer: a segment, or 16 and 17 for the barrow slots; 0 when it is not allocated
(R44). Addresses are free (R630). (DESIGN CHOICE: log entry 11.) -/
def layerAddress (q : Seq) (j n : Nat) (there : Bool) : Bytes :=
  leBytes 8 (if there then (Config.address (2 ^ 64 * (128 * q.uid + j + 1) + n)).toNat else 0)

/-- The 256 bytes of the directory entry of layer j (R44). -/
def directoryEntry (q : Seq) (j : Nat) (l : Layer) : Bytes :=
  (List.range 16).flatMap (fun n => layerAddress q j n (decide (512 * n < l.pages.length)))
    ++ layerAddress q j 16 l.slot0.alloc ++ layerAddress q j 17 l.slot1.alloc ++ leBytes 8 (layerCounts l)
    ++ leBytes 2 l.slot0.readers ++ leBytes 2 l.slot1.readers ++ List.replicate 100 0

/-- The 128 bytes of a sequence's ledger entry (R38). DRAM addresses are free (R630). (DESIGN CHOICE: log entry 11.) -/
def ledgerEntry (q : Seq) : Bytes :=
  let h := q.shape
  let sealing := q.layers.any (fun l => l.sealing)
  let key := if seqSealed q = 0 then zeroKey else (q.keys[seqSealed q - 1]?).getD zeroKey
  leBytes 4 q.id ++ leBytes 1 (q.st.code + 8 * b2n q.striped + 16 * b2n h.latent + 32 * b2n sealing)
    ++ leBytes 1 (q.pitch + 16 * q.cls) ++ leBytes 2 q.client ++ leBytes 8 q.modelFp ++ leBytes 2 q.adapter ++ leBytes 1 h.format
    ++ leBytes 1 h.layers ++ leBytes 1 h.kvHeads ++ leBytes 1 h.headDim32 ++ leBytes 2 0 ++ leBytes 8 (ledgerCounts q)
    ++ leBytes 8 (Config.address (2 * q.uid)).toNat
    ++ leBytes 2 (if q.striped then memberCount q - 1 + 64 * q.ownIndex else 0) ++ leBytes 6 0
    ++ leBytes 8 (if q.striped then (Config.address (2 * q.uid + 1)).toNat else 0) ++ leBytes 8 q.lastAttend
    ++ leBytes 8 q.nextHint ++ leBytes 4 q.sharedPages ++ leBytes 4 0 ++ (key ++ zeroKey).take 16 ++ List.replicate 32 0

/-- The 64 bytes of a line of a pitch's ledger, by its byte offset. A FREE entry reads as zeros. -/
def ledgerLine (s : State) (p off : Nat) : Bytes :=
  match s.seqs.find? (fun q => q.pitch == p && q.slot == off / 128) with
  | some q => ((ledgerEntry q).drop (off % 128)).take 64
  | none => List.replicate 64 0

/-- The segment of the window that shows an address, with its pitch (R448). -/
def segmentAt (s : State) (half addr : Nat) : Option (Nat × CxlSeg) :=
  ((List.range 16).flatMap (fun p => (pitchPlan s p).segments.map (fun g => (p, g)))).find? (fun x =>
    x.2.half == half && decide (x.2.base ≤ addr) && decide (addr < x.2.base + x.2.size))

/-- The host port shows the window on a half: CXL 3.1, or CXL 2.0 and 1.1 on half 0 (R451). -/
def windowShown (s : State) (half : Nat) : Bool :=
  on s .pciLinkUp half && (rd s .pciLinkCxl half == 3 || (rd s .pciLinkCxl half != 0 && half == 0))

/-- Lines that the snoop filter tracks at once (R449). (DEDUCED: log entry 48.) -/
def filterMax : Nat := 1048576

/-- Track a line that a host takes (R449). (DEDUCED: log entry 48.) -/
def trackLine (half line : Nat) (exclusive : Bool) (image : Bytes) (s : State) : State :=
  let mine := fun (x : CxlLine) => x.half == half && x.line == line
  let x : CxlLine := { half := half, line := line, exclusive := exclusive, used := s.order, snooped := false, snoopAt := 0, image := image }
  let s := ordered s
  { s with cxlLines := if s.cxlLines.any mine then upd mine (fun _ => x) s.cxlLines else s.cxlLines ++ [x] }

/-- A full filter back-invalidates its least recently tracked line before it tracks a new one (R449).
(DEDUCED: log entry 48.) -/
def makeTrackRoom (s : State) : State :=
  match leastBy (fun (y : CxlLine) => y.used) s.cxlLines with
  | some v => { s with cxlLines := upd (fun y => y.half == v.half && y.line == v.line) (CxlLine.ask s.localTime) s.cxlLines }
  | none => s

/-- The access tracks a line that the full filter does not hold yet, so it waits for room (R449). -/
def trackWaits (a : CxlAccess) (g : CxlSeg) (s : State) : Bool :=
  rd s .pciLinkCxl a.half == 3 && (!a.isWrite || (a.exclusive && g.data.isSome)) && decide (filterMax ≤ s.cxlLines.length)
    && !(s.cxlLines.any (fun x => x.half == a.half && x.line == a.addr / 64))

/-- The filter forgets a line. -/
def forgetLine (half line : Nat) (s : State) : State :=
  { s with cxlLines := drop (fun x => x.half == half && x.line == line) s.cxlLines }

/-- A host read of a line: data, or poison (R448, R450). (DEDUCED: log entry 48.) -/
def cxlRead (a : CxlAccess) (p : Nat) (g : CxlSeg) (s : State) : State :=
  let off := a.addr / 64 * 64 - g.base
  let data := match g.data with
    | none => if s.ledgerPoison.contains (p, off) then none else some (ledgerLine s p off)
    | some d => if poisoned s p (d + off) 64 then none else some (Memory.readN s.dram (dramKey p (d + off)) 64)
  let s := { s with cxlOut := s.cxlOut ++ [(a.half, a.addr / 64 * 64, data)] }
  if rd s .pciLinkCxl a.half ≠ 3 then s
  else trackLine a.half (a.addr / 64) a.exclusive (if g.data.isNone then data.getD [] else []) s

/-- A host write: stored in a DATA segment, discarded and logged in a LEDGER segment (R448). A write after which the host
does not keep the line exclusive ends its tracking. (DEDUCED: log entry 48.) -/
def cxlWrite (a : CxlAccess) (p : Nat) (g : CxlSeg) (s : State) : State :=
  match g.data with
  | none => report srcCxl .ledgerWrite sevContained (some p) s
  | some d =>
    let s := writeDram p (d + a.addr - g.base) a.data s
    if rd s .pciLinkCxl a.half ≠ 3 then s
    else if a.exclusive then trackLine a.half (a.addr / 64) true [] s
    else forgetLine a.half (a.addr / 64) s

/-- CXL_MEM_ACCESS (R448, R449, R548). -/
def cxlAccess (a : CxlAccess) (s : State) : State :=
  if !(windowShown s a.half) then s else
  match segmentAt s a.half a.addr with
  | none => s
  | some (p, g) =>
    if trackWaits a g s then makeTrackRoom { startWake s with cxlWaiting := s.cxlWaiting ++ [a] }
    else if a.isWrite then cxlWrite a p g (startWake s)
    else cxlRead a p g (startWake s)

/-- Accesses that waited for room in the snoop filter are tried again, in their order (R449). (DEDUCED: log entry 48.) -/
def cxlRetry (s : State) : State := each s.cxlWaiting cxlAccess { s with cxlWaiting := [] }

/-- The byte of DRAM that a line of a DATA segment starts at: pitch and offset. -/
def lineData (s : State) (half line : Nat) : Option (Nat × Nat) :=
  (segmentAt s half (64 * line)).bind (fun x => x.2.data.map (fun d => (x.1, d + 64 * line - x.2.base)))

/-- The line of a LEDGER segment: pitch and offset in the pitch's ledger. -/
def lineLedger (s : State) (half line : Nat) : Option (Nat × Nat) :=
  (segmentAt s half (64 * line)).bind (fun x => if x.2.data.isNone then some (x.1, 64 * line - x.2.base) else none)

/-- A host is lost (R450, R451): lines held exclusive are poisoned, the filter forgets the half, CXL_HOST_LOST is raised.
(DEDUCED: log entry 48.) -/
def hostGone (half : Nat) (s : State) : State :=
  let mine := s.cxlLines.filter (fun x => x.half == half)
  let held := mine.filter (fun x => x.exclusive)
  let keys := held.filterMap (fun x => (lineData s half x.line).map (fun d => dramKey d.1 d.2))
  let ledger := held.filterMap (fun x => lineLedger s half x.line)
  let fns := (List.range 16).filter (fun p => (pitchPlan s p).segments.any (fun g => g.half == half))
  let s := cxlRetry
    { s with cxlLines := drop (fun x => x.half == half) s.cxlLines, cxlWaiting := drop (fun a => a.half == half) s.cxlWaiting,
             poison := distinct (s.poison ++ keys), ledgerPoison := distinct (s.ledgerPoison ++ ledger) }
  let s := report srcCxl .hostLost sevContained none (bump .pciCxlStatLosses half 1 s)
  postTo (0 :: fns.map (· + 1)) 0x0031 srcCxl (leBytes 1 half ++ leBytes 3 0 ++ leBytes 4 (keys.length + ledger.length)) s

/-- A snoop has stayed unanswered for 1 ms (R449). -/
def snoopTimeout (half line : Nat) (s : State) : State :=
  match s.cxlLines.find? (fun x => x.half == half && x.line == line && x.snooped) with
  | some x => hostGone half (reach (x.snoopAt + 1000000) s)
  | none => s

/-- CXL viral on a half (R450). -/
def viral (half : Nat) (s : State) : State := if on s .pciLinkUp half && rd s .pciLinkCxl half != 0 then hostGone half s else s

/-- A snooped line answers (R449): what the host had modified is written, the line is forgotten, and what waited goes on. -/
def snoopAnswered (half line : Nat) (data : Option Bytes) (s : State) : State :=
  if !(s.cxlLines.any (fun x => x.half == half && x.line == line && x.snooped)) then s else
  let s := forgetLine half line s
  cxlRetry (match data, lineData s half line with
    | some bs, some (p, off) => writeDram p off (bs.take 64) s
    | _, _ => s)

/-- Ledger lines whose entry has changed since the host read them are snooped (R449). (DEDUCED: log entry 48.) -/
def ledgerSnoops (s : State) : State :=
  { s with cxlLines := s.cxlLines.map (fun x => match segmentAt s x.half (64 * x.line) with
    | some (p, g) => if g.data.isNone ∧ ledgerLine s p (64 * x.line - g.base) ≠ x.image then x.ask s.localTime else x
    | none => x) }

/-- A link goes down by surprise (R422, R450): its host is lost. -/
def surpriseDown (half : Nat) (s : State) : State :=
  if on s .pciLinkUp half = false then s else
  let cxl := rd s .pciLinkCxl half != 0
  let s := bump .pciLinkDowns half 1 (linkDown half s)
  if cxl then hostGone half (wr .pciLinkCxl half 0 s) else s

/-- Since when a function has waited for DMA, as far as the state tells: for a lost link, or since a ring in host memory
accepted an entry that it has not fetched (R421, R422). (DEDUCED: log entry 10.) -/
def dmaWaits (fn : Nat) (s : State) : Option Nat :=
  let links := (s.dmaSince.filter (fun x => x.1 == fn)).map (fun x => x.2)
  let rings := s.rings.filter (fun r => ringFn s r.num == some fn && !(on s .pciRingCfgSubLoc r.num))
  match links ++ rings.flatMap (fun r => r.accepted.map (fun a => a.at_)) with
  | [] => none
  | t :: l => some (l.foldl min t)

/-- A DMA read of a function got no completion within 50 ms, or DMA toward a lost link has waited that long (R421, R422). -/
def dmaTimesOut (fn : Nat) (s : State) : State :=
  wedge fn (match dmaWaits fn s with
    | some t => reach (t + 50000000) s
    | none => s)

/-- A DMA of a function returned Completer Abort (R421). -/
def dmaAborts (fn : Nat) (s : State) : State := wedge fn s

/-- A DMA read of entries returned Unsupported Request or poison (R432). -/
def fetchError (r : Nat) (s : State) : State := if ringRunning s r then ringError r 2 s else s

end Sys2Proof.Machine
end

