-- ==== Sys2Proof/Machine/Pitch.lean ====
section
/-! DEFINITION. Binding and releasing a pitch (R466 to R469, R474 to R477, R481 to R486). -/
namespace Sys2Proof.Machine

/-- A pitch is laid out (R463). -/
def laidOut (s : State) (p : Nat) : Bool := (pitchPlan s p).laidOut

/-- The state of a pitch (R497). -/
def pitchState (s : State) (p : Nat) : Nat := rd s .secPitchStateState p

/-- The binding record of a pitch as the device holds it (R476). -/
def bindingOf (s : State) (p : Nat) : KeyRec :=
  let key := (s.flashKeys.find? (fun k => k.1 == p)).map (fun k => k.2)
  { pitch := p, state := pitchState s p, tenant := rd s .secPitchTenantTenantId p, epoch := rd s .secPitchStateEpoch p,
    volatile := on s .secPitchStateVolatile p, conf := on s .secModeConf 0,
    wrapped := if on s .secPitchStateVolatile p then none else key, intact := true }

/-- The Abtoser writes a pitch's binding record to the key area (R476). -/
def writeRecord (p : Nat) (s : State) : State :=
  { s with keyArea := bindingOf s p :: drop (fun k => k.pitch == p) s.keyArea }

/-- A pitch changes state: its record follows, and its session key ends (R467, R491). -/
def enterPitchState (p st : Nat) (s : State) : State :=
  let s := wr .secPitchStateState p st s
  writeRecord p { s with sessions := drop (fun k => k.scope == p) s.sessions }

/-- PITCH_BIND (R468, R469). -/
def opPitchBind (c : Cmd) (s : State) : State :=
  let e := c.entry
  let p := fieldOf e 0x10 1
  if 15 < p ∨ !(laidOut s p) ∨ !(zeroAt e 0x11 7) ∨ !(zeroAt e 0x38 8) then complete c.id .badParam 0 s
  else if pitchState s p ≠ 0 then complete c.id .badState 0 s
  else
    let s := wr .secPitchTenantTenantId p (fieldOf e 0x18 32) (wr .secPitchStateEpoch p (rd s .secPitchStateEpoch p + 1) s)
    complete c.id .ok 0 (enterPitchState p 1 s)

/-- The release of a pitch that runs. -/
def releaseOf (s : State) (p : Nat) : Option Release := s.releases.find? (fun r => r.pitch == p)

/-- The windows of a pitch that a lease does not use are revoked (R343). -/
def revokeAll (p : Nat) (s : State) : State :=
  let lent := fun (w : Window) => s.leases.any (fun l => l.lent && bits l.window 0 18 == w.index)
  let mark := fun (w : Window) => { w with revoking := true, waiters := [] }
  { s with windows := upd (fun w => w.pitch == p && !(lent w)) mark s.windows }

/-- What one command has in progress is given up, and it completes with CLOSING without a chit (R483 step 1). -/
def closeCmd (id : Nat) (s : State) : State :=
  let s := discardAttend id s
  let s := { s with
    forwards := drop (fun f => f.1 == id) s.forwards, triggers := drop (fun t => t.cmd == id) s.triggers, lookups := drop (fun l => l.cmd == id) s.lookups,
    publishes := drop (fun x => x.cmd == id) s.publishes, drops := drop (fun x => x.cmd == id) s.drops,
    attestWait := s.attestWait.erase id }
  let s := match (cmdOf s id).filter (fun c => c.op == .prefixLookup) with
    | some c => (ringPitch s c.ring).elim s (fun p => bump .pitchPrefixStatLookups p 1 s)
    | none => s
  complete id .closing 0 (onCmd id (fun c => { c with chit := noChit }) s)

/-- Step 1 of a release (R483): CLOSING, windows revoked, contexts and runs discarded, seals abandoned, commands stopped; the
pitch's sequences are CLOSING until the scrub (R41). (DEDUCED: log entry 51.) -/
def closePitch (p : Nat) (s : State) : State :=
  let s := revokeAll p (wr .secPitchStateStep p 1 (enterPitchState p 3 s))
  let mine := (s.cmds.filter (fun c => cmdPitch s c == some p)).map (fun c => c.id)
  let s := each mine closeCmd s
  let uids := (s.seqs.filter (fun q => q.pitch == p)).map (fun q => q.uid)
  let s := { s with seqs := upd (fun q => q.pitch == p) (fun q => { q with st := .closing, closer := none }) s.seqs }
  abandonSeals (fun x => uids.contains x.seq) s

/-- Step 3 of a release (R483): queued flash writes of the namespace are cancelled; those under way end with the erase. -/
def cancelFlash (p : Nat) (s : State) : State :=
  { s with crates := upd (fun c => c.pitch == p) (fun c => { c with flashWanted := 0 }) s.crates }

/-- Step 4 of a release (R483): borrowed leases are dropped, lent ones recalled, records, results and holds released. Steps
2 and 3 are then in progress. (DEDUCED: log entry 51.) -/
def recallPitch (p : Nat) (s : State) : State :=
  let borrowed := s.leases.filter (fun l => !l.lent && l.pitch == p)
  let lent := s.leases.filter (fun l => l.lent && l.pitch == p && l.st == .live)
  let d := s.localTime + 50000000
  let asked := fun (l : Lease) => !l.lent && l.pitch == p && l.st == .asked
  let dropping := upd (fun (l : Lease) => !l.lent && l.pitch == p)
    (fun l => { l with st := .dropAsked, deadline := s.localTime + 100000000 }) (drop asked s.leases)
  let s := { s with leases := dropping }
  let s := each (borrowed.filter (fun l => l.st != .asked)) (fun l => tell l.peer (.recallDrop l.window)) s
  let s := each lent (fun l s => tell l.peer (.leaseRecall l.window d)
    { s with leases := upd (fun x => x.id == l.id) (fun x => { x with st := .recalled, deadline := d }) s.leases }) s
  let s := each ((s.pubs.filter (fun r => r.pitch == p)).map (fun r => r.id)) releaseRecord s
  wr .secPitchStateStep p 2 { s with results := drop (fun r => r.pitch == p) s.results, holds := drop (fun h => h.pitch == p) s.holds }

/-- PITCH_RELEASE (R481, R483). -/
def opPitchRelease (c : Cmd) (s : State) : State :=
  let e := c.entry
  let p := fieldOf e 0x10 1
  if 15 < p ∨ !(laidOut s p) ∨ !(zeroAt e 0x11 47) then complete c.id .badParam 0 s
  else if pitchState s p = 0 then complete c.id .badState 0 s
  else
    let s := startedCmd c.id s
    if (releaseOf s p).isSome then
      { s with releases := upd (fun r => r.pitch == p) (fun r => { r with waiters := r.waiters ++ [c.id] }) s.releases }
    else
      let r : Release :=
        { pitch := p, startAt := s.localTime, startOrder := s.order, drained := false, scrubbed := false, waiters := [c.id] }
      recallPitch p (cancelFlash p (closePitch p (wr .secPitchStateUntrusted p 0 { s with releases := s.releases ++ [r] })))

/-- Crypto-erase (R477): the key goes, and with it every copy written under it. The zones keep their wear and stay full until
collection erases them. (DESIGN CHOICE: log entry 73.) -/
def cryptoErase (p : Nat) (s : State) : State :=
  let s := { s with flashKeys := drop (fun k => k.1 == p) s.flashKeys,
                    crates := upd (fun c => c.pitch == p) (fun c =>
                      { c with flash := none, flashWanted := 0, copying := if c.copying = .toFlash then .none else c.copying }) s.crates,
                    zones := upd (fun z => z.pitch == p) (fun z => { z with crates := [], places := [], old := false }) s.zones,
                    catalogue := drop (fun x => x.1 == p) s.catalogue, journalRecs := drop (fun x => x.1 == p) s.journalRecs }
  writeRecord p s

/-- The connections of a pitch. -/
def pitchConns (s : State) (p : Nat) : List Nat := (allConns s).filter (fun c => !(on s .fabConnCfgService c) && rd s .fabConnCfgPitch c == p)

/-- The held packets of a connection are refused with CLOSING (R483 step 2). -/
def refuseHeld (c : Nat) (s : State) : State :=
  each (sortBy (fun (f : Frame) => psnDist f.psn (psnAdd (connOf s c).rxCum 2147483648)) (heldOf s c))
    (fun f s => refuse c 7 f (unhold c f.psn s)) s

/-- RELEASE_DRAIN_DONE (R483 steps 2, 3, 5): placements have drained, the key is erased, the scrubs start. -/
def releaseDrained (p : Nat) (s : State) : State :=
  match releaseOf s p with
  | none => s
  | some r =>
    if r.drained then s else
    let s := each (pitchConns s p) refuseHeld s
    let s := each ((s.windows.filter (fun w => w.pitch == p && w.revoking)).map (fun w => w.index)) closeWindow s
    let s := { s with releases := upd (fun r => r.pitch == p) (fun r => { r with drained := true }) s.releases }
    wr .secPitchStateStep p 5 (enterPitchState p 4 (cryptoErase p s))

/-- The scrub of a pitch (R484): stalls, hall, DRAM and registers' state of the pitch. Crates that other pitches still name
are lost to them. -/
def scrub (p : Nat) (s : State) : State :=
  let uids := (s.seqs.filter (fun q => q.pitch == p)).map (fun q => q.uid)
  let s := { s with seqs := drop (fun q => q.pitch == p) s.seqs, seals := drop (fun x => uids.contains x.seq) s.seals,
                    attends := drop (fun a => a.pitch == p) s.attends, ctxs := drop (fun x => x.pitch == p) s.ctxs,
                    unplaced := drop (fun w => w.pitch == p) s.unplaced,
                    stalls := s.stalls.map (fun k => { k with queue := drop (fun w => w.pitch == p) k.queue }) }
  let s := each ((s.crates.filter (fun c => c.pitch == p && decide (0 < refCount s c.id))).map (fun c => c.id)) crateLost s
  let h := (pitchPlan s p).hallBase
  let chits := (List.range (rd s .pciChitRangeCount (p + 1))).map (fun i => rd s .pciChitRangeBase (p + 1) + i)
  let mine := fun (x : Nat × Nat) => chits.contains x.1
  let s := { s with
    crates := drop (fun c => c.pitch == p) s.crates, tables := drop (fun t => t.pitch == p) s.tables,
    actives := drop (fun a => a.pitch == p) s.actives, evicting := drop (fun x => x.1 == p) s.evicting,
    tills := drop (fun t => t.pitch == p) s.tills,
    dram := Memory.zero s.dram (dramKey p 0) (dramKey 1 0), hall := Memory.zero s.hall h (hallSize s p),
    poison := drop (fun k => decide (dramKey p 0 ≤ k) && decide (k < dramKey (p + 1) 0)) s.poison,
    ledgerPoison := drop (fun x => x.1 == p) s.ledgerPoison,
    chits := drop mine s.chits }
  sweepAll s

/-- PITCH_SCRUB_DONE (R483 step 5, R484). (DEDUCED: log entry 51.) -/
def scrubDone (p : Nat) (s : State) : State :=
  match releaseOf s p with
  | none => s
  | some r =>
    if r.drained = false ∨ r.scrubbed then s
    else wr .secPitchStateStep p 6 (scrub p
      { s with releases := upd (fun r => r.pitch == p) (fun r => { r with scrubbed := true }) s.releases })

/-- The pitch reset of the register file (R482, R12). -/
def pitchReset (p : Nat) (s : State) : State :=
  restore (fun d i => match d.kind with
    | .pitch => pitchOf (ringPitch s) d.reg i == some p
    | _ => false) s

/-- PITCH_CLEAN (R483 step 7): once the scrubs are done and every lease is settled. (DEDUCED: log entry 51.) -/
def pitchCleaned (p : Nat) (s : State) : State :=
  match releaseOf s p with
  | none => s
  | some r =>
    if r.scrubbed = false ∨ coreThere s 0 = false ∨ s.leases.any (fun l => l.pitch == p) then s else
    let ms := min 65535 ((s.localTime - r.startAt) / 1000000)
    let epoch := (rd s .secPitchStateEpoch p + 1) % 4294967296
    let s := wr .secPitchStateReleaseMs p ms (wr .secPitchStateStep p 0 (wr .secPitchStateEpoch p epoch
      (wr .secPitchStateVolatile p 0 (wr .secPitchTenantTenantId p 0 s))))
    let s := { pitchReset p s with
      rings := drop (fun x => ringPitch s x.num == some p) s.rings,
      crier := { s.crier with evtUnread := drop (fun x => x.1 == p + 1) s.crier.evtUnread, lostFns := s.crier.lostFns.erase (p + 1) },
      releases := drop (fun x => x.pitch == p) s.releases }
    let s := enterPitchState p 0 s
    let s := postEvent 0 0x0040 (srcCore 0) (leBytes 1 p ++ leBytes 3 0 ++ leBytes 4 epoch) s
    each r.waiters (fun id s => complete id .ok 0 s) s

/-- RECALL_DROP_CONFIRM (R485, R483 step 6). -/
def recallDropConfirmed (id : Nat) (s : State) : State :=
  match leaseOf s id with
  | none => s
  | some l => if l.st = .dropAsked then { s with leases := drop (fun x => x.id == id) s.leases } else s

/-- RECALL_DROP_TIMEOUT (R485): 100 ms without a confirmation; the lender is marked untrusted. -/
def recallDropTimeout (id : Nat) (s : State) : State :=
  match leaseOf s id with
  | none => s
  | some l =>
    if l.st ≠ .dropAsked then s else
    let s := reach l.deadline { s with leases := drop (fun x => x.id == id) s.leases }
    let s := bump .secPitchStateUntrusted l.pitch 1 (report (srcPort 0) .untrusted sevContained (some l.pitch) s)
    trustLapses l.peer 1 s

end Sys2Proof.Machine
end

