-- ==== Sys2Proof/Machine/Attest.lean ====
section
/-! DEFINITION. Attestation and provisioning (R470 to R473, R489 to R495). -/
namespace Sys2Proof.Machine

/-- The device scope of ATTEST (R489). -/
def deviceScope : Nat := 0x1F

/-- Free bytes of an output: n of them, under the present free value number. -/
def freeBytes (s : State) (n : Nat) : Bytes := (List.range n).map (fun i => Config.byte s.fresh i)

/-- The serial number of a certificate (R492): the count, highest byte first, then 8 bytes of the DRBG. Bit 127 is 0.
(DEDUCED: log entry 49.) (DESIGN CHOICE: log entry 73.) -/
def serialOf (s : State) : Bytes := (leBytes 8 ((s.serials + 1) % 2 ^ 63)).reverse ++ leBytes 8 (Config.drbg s.fresh).toNat

/-- Byte 2 of entry 3 (R493): LIVE and STAGED. -/
def activation (s : State) : Nat := b2n s.live.live + 2 * b2n (s.stagedOk.contains 0)

/-- The 40 B vendorInfo of entry 3 (R493). -/
def scopeRecord (s : State) (scope : Nat) : Bytes :=
  let device := decide (scope = deviceScope)
  let st := if device then 0 else pitchState s scope
  let volatile := !device && on s .secPitchStateVolatile scope
  leBytes 1 scope ++ leBytes 1 st ++ leBytes 1 (activation s) ++ leBytes 1 (rd s .secModeConf 0 + 2 * b2n volatile)
    ++ (if device then List.replicate 36 0
        else leBytes 4 (rd s .secPitchStateEpoch scope) ++ leBytes 32 (rd s .secPitchTenantTenantId scope))

/-- What a certificate for a scope states now (R492, R493). (DEDUCED: log entry 49.) -/
def certOf (s : State) (scope : Nat) (nonce : Bytes) : Cert :=
  { scope := scope, serial := serialOf s, nonce := nonce, debug := !(on s .secModeConf 0), rotSvn := rd s .secModeRotSvn 0,
    rotDigest := (s.rotRunning.map (fun i => i.bodyDigest)).getD 0, coreSvn := (s.fwRunning.map (fun i => i.svn)).getD 0,
    coreDigest := (s.fwRunning.map (fun i => i.bodyDigest)).getD 0,
    planDigest := (s.planImage.map (fun i => i.bodyDigest)).getD 0, record := scopeRecord s scope }

/-- Where an ATTEST reads or writes: a certificate buffer of PF0, or an operand window. -/
inductive AttestPlace where
  | buf (i : Nat)
  | win (pl : Place)

/-- Room of a window from an offset, where this device knows its length. -/
def roomAt (s : State) (c : Cmd) (h off : Nat) : Option Nat :=
  match ringPitch s c.ring with
  | none => none
  | some p =>
    if bit h 31 then (if fabricRing s c.ring then none else some (rd s .pciHwinLength (p * 256 + bits h 0 8) - off))
    else (windowAt s (bits h 0 18)).map (fun w => w.length - off)

/-- The output or input of an ATTEST lies where R489 allows it: a window with room, or a buffer. -/
def attestShape (s : State) (c : Cmd) (h off need : Nat) : Bool :=
  off % 64 == 0 && (match ringPitch s c.ring with
    | none => decide (h < 8) && off == 0
    | some _ => match roomAt s c h off with
      | some n => decide (need ≤ n)
      | none => true)

/-- Bytes that an ATTEST of a kind may write (R489). -/
def attestNeed (kind : Nat) : Nat := if kind = 0 then 2048 else if kind = 1 then 64 else 8192

/-- The pitch that a scope names. -/
def scopePitch (scope : Nat) : Option Nat := if scope ≤ 15 then some scope else none

/-- The field checks of ATTEST (R495). -/
def attestOk (s : State) (c : Cmd) : Bool :=
  let e := c.entry
  let kind := fieldOf e 0x10 1
  let scope := fieldOf e 0x11 1
  decide (kind ≤ 2) && (decide (scope ≤ 15) || (scope == deviceScope && kind != 1)) && zeroAt e 0x12 2 && zeroAt e 0x1E 2
    && zeroAt e 0x2C 4 && attestShape s c (fieldOf e 0x14 4) (fieldOf e 0x18 6) (attestNeed kind)
    && (kind != 1 || (fieldOf e 0x24 2 == 376 && attestShape s c (fieldOf e 0x20 4) (fieldOf e 0x26 6) 376))

/-- The place that an ATTEST writes. (DEDUCED: log entry 49.) -/
def attestOut (s : State) (c : Cmd) : Got AttestPlace :=
  let e := c.entry
  match ringPitch s c.ring with
  | none => .val (.buf (fieldOf e 0x14 1 % 8))
  | some _ => (checkOutput s c (fieldOf e 0x14 4) (fieldOf e 0x18 6) (attestNeed (fieldOf e 0x10 1))).bind (fun pl => .val (.win pl))

/-- The provisioning message of an ATTEST. -/
def attestIn (s : State) (c : Cmd) : Got Bytes :=
  let e := c.entry
  match ringPitch s c.ring with
  | none => .val (leBytes 376 (rd s .secCertBufData (fieldOf e 0x20 1 % 8)))
  | some _ => readOperand s c (fieldOf e 0x20 4) (fieldOf e 0x26 6) 376

/-- Bytes go to where an ATTEST writes them; a buffer keeps what lies after them. -/
def attestWrite (id : Nat) (pl : AttestPlace) (bs : Bytes) (s : State) : State :=
  match pl with
  | .buf i =>
    let n := 2 ^ (8 * bs.length)
    wr .secCertBufData i (rd s .secCertBufData i / n * n + leNat bs) s
  | .win p => resultWrite id p bs s

/-- A QUOTE (R491 to R493): a new session key, and a certificate of at most 2,048 bytes. (DEDUCED: log entry 49.) -/
def quote (c : Cmd) (pl : AttestPlace) (s : State) : State :=
  let scope := fieldOf c.entry 0x11 1
  let cert := certOf s scope (leBytes 16 (fieldOf c.entry 0x30 16))
  let n := Config.length s.fresh % 2049
  let bs := freeBytes s n
  let k : Session := { scope := scope, serial := cert.serial, bornAt := s.localTime }
  let s := { freshen s with serials := s.serials + 1, certs := s.certs ++ [cert],
                            sessions := k :: drop (fun x => x.scope == scope) s.sessions }
  finish c.id .ok n (attestWrite c.id pl bs s)

/-- A CHAIN (R492): three items, each after its length in 4 bytes. -/
def chain (c : Cmd) (pl : AttestPlace) (s : State) : State :=
  let item := fun (i : Nat) =>
    let n := Config.length (s.fresh + i) % 2700
    leBytes 4 n ++ (List.range n).map (fun k => Config.byte (s.fresh + i) k)
  let bs := item 0 ++ item 1 ++ item 2
  finish c.id .ok bs.length (attestWrite c.id pl bs (freshen (freshen (freshen s))))

/-- The status of a provisioning message (R472): the first check that fails. (DEDUCED: log entry 49.) -/
def provisionCheck (s : State) (p : Nat) (m : Bytes) : Status :=
  let serial := (m.drop 0x008).take 16
  let pub := (m.drop 0x079).take 97
  let epoch := leNat ((List.range 4).map (fun i => Config.provisionBody m (4 + i)))
  if leAt m 0 2 ≠ 1 ∨ leAt m 2 2 ≠ 376 ∨ leAt m 4 4 ≠ 0 ∨ leAt m 0x0DA 2 ≠ 0 then .badParam
  else if !(s.sessions.any (fun k => k.scope == p && k.serial == serial)) then .access
  else if (sha384 pub).take 32 ≠ leBytes 32 (rd s .secPitchTenantTenantId p) then .access
  else if !(Config.ecdsa pub (m.take 0x118) ((m.drop 0x118).take 96)) then .access
  else if !(Config.provisionTag m) then .access
  else if pitchState s p ≠ 1 ∨ epoch ≠ rd s .secPitchStateEpoch p then .badState
  else .ok

/-- A PROVISION (R470 to R475): the flash key, the binding, the reply. -/
def provision (c : Cmd) (p : Nat) (pl : AttestPlace) (m : Bytes) (s : State) : State :=
  match provisionCheck s p m with
  | .ok =>
    let volatile := b2n (Config.provisionBody m 0 != 0)
    let reply := leBytes 4 0 ++ leBytes 4 (rd s .secPitchStateEpoch p) ++ leBytes 8 0
      ++ (List.range 48).map (fun i => Config.sealed s.fresh i)
    let s := { freshen s with flashKeys := (p, s.fresh) :: drop (fun k => k.1 == p) s.flashKeys }
    let s := enterPitchState p 2 (wr .secPitchStateVolatile p volatile s)
    finish c.id .ok 64 (attestWrite c.id pl reply s)
  | st => complete c.id st 0 s

/-- An earlier ATTEST is being served: it has started and waits for what it reads or writes (R490). -/
def attestBehind (s : State) (c : Cmd) : Bool :=
  let serving := fun (x : Cmd) => !(s.attestWait.contains x.id) && (match x.wait with
    | .runnable | .chained | .fenced | .core => false
    | _ => true)
  s.cmds.any (fun x => x.op == .attest && decide (x.order < c.order) && serving x)

/-- An ATTEST is held (R494, R490): live activation runs, an earlier one is being served, or PF0 asks for a pitch that is
being released. -/
def attestHeld (s : State) (c : Cmd) : Bool :=
  (s.live.active && s.live.copied) || attestBehind s c
    || (ringPitch s c.ring == none && (match scopePitch (fieldOf c.entry 0x11 1) with
      | some p => pitchState s p == 3 || pitchState s p == 4
      | none => false))

/-- ATTEST is served (R490): its output is checked, and its kind runs. -/
def attestServe (c : Cmd) (s : State) : State :=
  let scope := fieldOf c.entry 0x11 1
  let s := { s with attestWait := s.attestWait.erase c.id }
  let fail := fun (st : Status) (s : State) => complete c.id (if st = .revoked then .access else st) 0 s
  let go : Got State := (attestOut s c).bind (fun pl =>
    match fieldOf c.entry 0x10 1 with
    | 0 => .val (quote c pl s)
    | 1 => (attestIn s c).bind (fun m => .val (provision c scope pl m s))
    | _ => .val (chain c pl s))
  gotElse c fail go s

/-- ATTEST (R489, R490, R494, R495). -/
def opAttest (c : Cmd) (s : State) : State :=
  let scope := fieldOf c.entry 0x11 1
  let foreign := match ringPitch s c.ring with
    | some p => scope != p
    | none => false
  if !(attestOk s c) then complete c.id .badParam 0 s
  else if foreign then complete c.id .access 0 s
  else if attestHeld s c then
    startedCmd c.id { s with attestWait := if s.attestWait.contains c.id then s.attestWait else s.attestWait ++ [c.id] }
  else attestServe c s

/-- Held ATTESTs that may be served now are, in order of acceptance. -/
def attestsGoOn (s : State) : State :=
  each s.attestWait (fun id s => match cmdOf s id with
    | some c => if attestHeld s c then s else attestServe c s
    | none => { s with attestWait := s.attestWait.erase id }) s

/-- ATTEST_BUSY_TIMEOUT (R494): 50 ms from acceptance, and not for a pitch being released. -/
def attestBusy (id : Nat) (s : State) : State :=
  match cmdOf s id with
  | none => s
  | some c =>
    if !(s.attestWait.contains id) ∨ ((s.live.active && s.live.copied) || attestBehind s c) = false then s
    else complete id .busy 0 (reach (c.at_ + 50000000) { s with attestWait := s.attestWait.erase id })

/-- A session key's 60 s end (R491). -/
def sessionExpires (scope : Nat) (s : State) : State :=
  match s.sessions.find? (fun k => k.scope == scope) with
  | none => s
  | some k => reach (k.bornAt + 60000000000) { s with sessions := drop (fun x => x.scope == scope) s.sessions }

end Sys2Proof.Machine
end

