-- ==== Sys2Proof/Machine/Boot.lean ====
section
/-! DEFINITION. Images, the boot header and the boot of R511 (R502 to R515, R522, R478). -/
namespace Sys2Proof.Machine

/- Images and the boot header (R503 to R507). -/

/-- The image in a slot: kinds 0 to 2 for KIND 1 to 3, slots 0 and 1. -/
def imageAt (s : State) (k slot : Nat) : Option Image :=
  (s.xspi.slots.find? (fun x => x.1 == k && x.2.1 == slot)).map (fun x => x.2.2)

/-- Offset and size of a slot in the configuration flash (R502): kinds 0 to 2, slots 0 and 1. -/
def slotSpan (k slot : Nat) : Nat × Nat :=
  match k with
  | 0 => (0x00100000 + slot * 0x100000, 0x100000)
  | 1 => (0x00400000 + slot * 0x800000, 0x800000)
  | _ => (0x02000000 + slot * 0x1000000, 0x1000000)

/-- The bytes that an image takes: header and body up to a 4 KiB boundary, and the signature block (R504). -/
def imageSize (im : Image) : Nat := ceilDiv (256 + im.bodyLen) 4096 * 4096 + 4096

/-- The 256 bytes of an image's header (R504). (DEDUCED: log entry 52.) -/
def imageHeader (im : Image) : Bytes :=
  [0x4C, 0x59, 0x39, 0x49] ++ leBytes 1 im.kind ++ leBytes 1 1 ++ leBytes 2 im.svn ++ leBytes 4 im.version ++ leBytes 4 im.bodyLen
    ++ leBytes 1 im.parts ++ leBytes 1 (b2n im.commitSvn + 2 * b2n im.liveOk) ++ leBytes 1 im.keySlot ++ List.replicate 13 0
    ++ (leBytes 48 im.bodyDigest).reverse ++ leBytes 16 im.buildId ++ List.replicate 160 0

/-- Store an image in a slot, or erase the slot. -/
def putImage (k slot : Nat) (im : Option Image) (s : State) : State :=
  let rest := drop (fun x => x.1 == k && x.2.1 == slot) s.xspi.slots
  { s with xspi := { s.xspi with slots := match im with
      | some im => (k, slot, im) :: rest
      | none => rest } }

/-- The key slot that signed an image stands, holds its keys' digest and is not revoked (R505, R506). -/
def keySlotOk (s : State) (im : Image) : Bool :=
  if im.kind = 3 then match s.ownerKeys[im.keySlot]? with
    | some (some d, revoked) => !revoked && d == im.keyDigest
    | _ => false
  else s.romKeys[im.keySlot]? == some im.keyDigest && !(s.shodunRevoked.contains im.keySlot)

/-- An image is valid (R505, R507). -/
def imageValid (s : State) (im : Image) : Bool :=
  im.ecdsaOk && im.lmsOk && keySlotOk s im && im.digestOk && bit im.parts (rd s .hallDeviceInfoPart 0 - 1)
    && (im.kind == 3 || decide (rd s .secImageFusedSvn (im.kind - 1) ≤ im.svn))

/-- The first header of a flash that holds none. -/
def BootHdr.first : BootHdr := { active := [0, 0, 0], trial := [false, false, false], count := [0, 0, 0], seqNo := 0, crcOk := true }

/-- A header copy with a valid CRC. -/
def hdrCopy (h : Option BootHdr) : Option BootHdr :=
  match h with
  | some h => if h.crcOk then some h else none
  | none => none

/-- The header the ROM uses: a valid CRC and the higher sequence number (R503). -/
def hdrOf (x : Xspi) : Option BootHdr :=
  match hdrCopy x.hdr0, hdrCopy x.hdr1 with
  | some a, some b => if a.seqNo < b.seqNo then some b else some a
  | some a, none => some a
  | none, b => b

/-- Copy 0 holds the higher valid sequence number. -/
def hdrIsFirst (x : Xspi) : Bool :=
  match hdrCopy x.hdr0, hdrCopy x.hdr1 with
  | some a, some b => decide (b.seqNo ≤ a.seqNo)
  | some _, none => true
  | none, _ => false

/-- Write a header into the copy that does not hold the higher valid sequence number (R503). -/
def writeHdr (h : BootHdr) (s : State) : State :=
  let n := match hdrOf s.xspi with
    | some c => (c.seqNo + 1) % 4294967296
    | none => 0
  let h := { h with seqNo := n, crcOk := true }
  { s with xspi := if hdrIsFirst s.xspi then { s.xspi with hdr1 := some h } else { s.xspi with hdr0 := some h } }

/-- The active slot of a kind. -/
def BootHdr.slot (h : BootHdr) (k : Nat) : Nat := (h.active[k]?).getD 0

/-- A kind is on trial. -/
def BootHdr.onTrial (h : BootHdr) (k : Nat) : Bool := (h.trial[k]?).getD false

/-- The staging slot of a kind: the one that the header does not name (R503). -/
def stagingSlot (s : State) (k : Nat) : Nat := 1 - ((hdrOf s.xspi).getD BootHdr.first).slot k

/-- Name a slot of a kind, on trial or not. -/
def BootHdr.name (k slot : Nat) (trial : Bool) (h : BootHdr) : BootHdr :=
  { h with active := h.active.set k slot, trial := h.trial.set k trial, count := h.count.set k 0 }

/-- Staged images become active, on trial (R522). -/
def activateStaged (s : State) : State :=
  if s.stagedOk.isEmpty then s else
  let h := s.stagedOk.foldl (fun (h : BootHdr) k => h.name k (stagingSlot s k) true) ((hdrOf s.xspi).getD BootHdr.first)
  let clear := fun (k : Nat) (s : State) => wr .secImageStaged k 0 (wr .secImageStagedVersion k 0 (wr .secImageStagedSvn k 0 s))
  { each s.stagedOk clear (writeHdr h s) with stagedOk := [] }

/-- A boot that uses a trial slot counts; the third goes to the other slot and ends the trial (R522). -/
def countTrial (h : BootHdr) (k : Nat) : BootHdr :=
  if h.onTrial k = false then h
  else if 2 ≤ (h.count[k]?).getD 0 then h.name k (1 - h.slot k) false
  else { h with count := h.count.set k ((h.count[k]?).getD 0 + 1) }

/-- The image a boot runs of a kind: the active one, else the staging one once, with FALLBACK (R514). -/
def chooseImage (s : State) (h : BootHdr) (k : Nat) : Option (Nat × Image × Bool) :=
  let good := fun (slot : Nat) => match imageAt s k slot with
    | some im => if imageValid s im then some im else none
    | none => none
  match good (h.slot k) with
  | some im => some (h.slot k, im, false)
  | none => (good (1 - h.slot k)).map (fun im => (1 - h.slot k, im, true))

/-- SEC_IMAGE and SEC_BOOT show the image that runs (R524, R525). -/
def showImage (h : BootHdr) (k : Nat) (x : Nat × Image × Bool) (s : State) : State :=
  let back := match k with
    | 0 => Fld.secBootFallbackRot
    | 1 => Fld.secBootFallbackFw
    | _ => Fld.secBootFallbackPlan
  let s := wr .secImageVersion k x.2.1.version (wr .secImageSvn k (if k = 2 then 0 else x.2.1.svn) s)
  wr back 0 (b2n x.2.2) (wr .secImageSlot k x.1 (wr .secImageTrial k (b2n (h.onTrial k && x.1 == h.slot k)) s))

/- The checks of the plan (R513). -/

/-- No two ranges (first, count) share a member. -/
def disjoint (l : List (Nat × Nat)) : Bool :=
  (List.range l.length).all (fun i => (List.range i).all (fun j => match l[i]?, l[j]? with
    | some a, some b => a.2 == 0 || b.2 == 0 || decide (a.1 + a.2 ≤ b.1) || decide (b.1 + b.2 ≤ a.1)
    | _, _ => true))

/-- No member of a list comes twice. -/
def noRepeat {α : Type} [BEq α] (l : List α) : Bool := (distinct l).length == l.length

/-- The laid-out pitches. -/
def laidPitches (s : State) : List Nat := (List.range 16).filter (laidOut s)

/-- A sum over the 16 pitches. -/
def overPitches (f : Nat → Nat) : Nat := sumBy f (List.range 16)

/-- One table passes R154. -/
def tableOk (s : State) (t : List TtSlot) : Bool :=
  let cls := fun (x : TtSlot) (k : Nat) => bits x.classMap (4 * k) 4
  decide (1 ≤ t.length) && decide (t.length ≤ 64)
    && t.all (fun x => decide (1 ≤ x.duration) && decide (x.duration ≤ 1000) && x.reserved == 0
      && (List.range 32).all (fun k => cls x k == 15 || (laidPitches s).any (fun p => bit (rd s .secPitchLayoutStalls p) k
        && on s .pitchClientValid (16 * p + cls x k))))
    && decide (sumBy (fun x => x.duration) t ≤ 10000)
    && (laidPitches s).all (fun p => (List.range 15).all (fun c => !(on s .pitchClientValid (16 * p + c))
      || t.any (fun x => (List.range 32).any (fun k => stallPitch s k == p && cls x k == c))))

/-- Code 0x22: units exist and have at most one owner. The shares lie in banks 32 to 63, of which the device area takes at
least eight (R143). -/
def ownersOk (s : State) : Bool :=
  let ps := laidPitches s
  let mask := rd s .hallDeviceInfoStackMask 0
  let grans := ps.flatMap (fun p => (pitchPlan s p).granules)
  let dies := ps.flatMap (fun p => (pitchPlan s p).dies)
  let rings := (s.plan.pf0RingLo, s.plan.pf0Rings) :: ps.map (fun p => ((pitchPlan s p).ringLo, (pitchPlan s p).ringCount))
  let chits := (0 :: ps.map (· + 1)).map (fun f => (rd s .pciChitRangeBase f, rd s .pciChitRangeCount f))
  let stalls := ps.flatMap (fun p => (List.range 32).filter (fun k => bit (rd s .secPitchLayoutStalls p) k))
  grans.all (fun k => bit mask k) && (List.range 8).all (fun k => decide (countBy (· == k) grans ≤ 72))
    && noRepeat stalls && noRepeat dies && dies.all (fun d => s.plan.dies.contains d && decide (d.1 < 16))
    && disjoint (ps.map (fun p => ((pitchPlan s p).hallBase, hallSize s p)))
    && ps.all (fun p => hallSize s p == 0 || (decide (134217728 ≤ (pitchPlan s p).hallBase)
      && decide ((pitchPlan s p).hallBase + hallSize s p ≤ 268435456)))
    && decide (overPitches (fun p => rd s .secPitchLayoutHallBanks p) ≤ 24)
    && disjoint rings && rings.all (fun r => decide (r.1 + r.2 ≤ 1024))
    && disjoint chits && chits.all (fun r => r.1 % 512 == 0 && r.2 % 512 == 0 && decide (r.1 + r.2 ≤ 16384))

/-- The fixed areas of a pitch (R630). -/
def fixedAreas (s : State) (p : Nat) : Nat :=
  2 * (ceilDiv (rd s .pitchLedgerQuota p * 128) 2097152 * 2097152) + gib * rd s .pitchTierCapCrateGib p
    + rd s .pitchDispatchCfgSaveSlots p * 1179648

/-- Code 0x23: quota sums, and what must fit in a pitch. (DEDUCED: log entry 53.) -/
def quotasOk (s : State) : Bool :=
  let vectors := sumBy (fun f => rd s .pciFnStatusVectors f) (List.range 17)
  let triggers := sumBy (fun f => rd s .pciChitRangeTrigQuota f) (List.range 17)
  decide (overPitches (fun p => rd s .pitchLedgerQuota p) ≤ 65536) && decide (overPitches (fun p => rd s .fabWinUseQuota p) ≤ 262144)
    && decide (triggers ≤ 8192) && decide (vectors ≤ 2048) && decide (overPitches (fun p => rd s .pitchPackCfgTableQuota p) ≤ 512)
    && (laidPitches s).all (fun p => decide (rd s .pitchTierCapFetchReserve p ≤ rd s .pitchTierCapCrateGib p)
      && decide (fixedAreas s p ≤ dramPlanned s p)
      && (pitchStacks s p).all (fun k => decide (gib * rd s .pitchTierCapCrateGib p / stackCount s p
        ≤ gib * countBy (· == k) (pitchPlan s p).granules))
      && decide (ringArea s p ≤ hallSize s p))

/-- Code 0x25: what an LY-7 may be (R366, R367). (DEDUCED: log entry 55.) -/
def ly7Ok (s : State) : Bool :=
  let l := (List.range s.plan.peers.length).filter (isLy7 s)
  l.all (fun q => match peerPlan s q with
    | some r => !r.stripes && !r.stock && !r.lends && !r.fetches
        && s.plan.shard.all (fun h => h.home != r.deviceId || h.home == deviceId s)
    | none => true)
    && l.all (fun q => (connsOfPeer s q).all (fun c => rd s .fabConnCfgMode c == 0 && rd s .fabConnCfgPathsM1 c == 0))

/-- Code 0x26: connections name a listed peer and a laid-out pitch, and the service connections of R244 exist.
(DEDUCED: log entry 55.) -/
def connsOk (s : State) : Bool :=
  (allConns s).all (fun c => decide (connPeer s c < s.plan.peers.length)
      && (on s .fabConnCfgService c || laidOut s (rd s .fabConnCfgPitch c)))
    && (List.range s.plan.peers.length).all (fun q => match peerPlan s q with
      | some r => r.kind != .ly9 || !(r.stock || r.fetches) || (serviceConn s q).isSome
      | none => true)

/-- Code 0x27: no CLIENT_ID in two VALID rows of a pitch (R138). -/
def clientsOk (s : State) : Bool :=
  (laidPitches s).all (fun p => noRepeat (((List.range 15).filter (fun c => on s .pitchClientValid (16 * p + c))).map
    (fun c => rd s .pitchClientClientId (16 * p + c))))

/-- A slot entry as its 32 B (R153). -/
def slotBits (t : TtSlot) : Nat := t.duration % 65536 + t.reserved % 65536 * 2 ^ 16 + t.classMap % 2 ^ 128 * 2 ^ 32 + t.reserved / 65536 * 2 ^ 160

/-- The fields that report the plan's tables: layout and slots of the timetables, stacks, granules and stalls of the pitches
(R176, R177, R181, R499). -/
def tableFields (p : Plan) : RegFile :=
  let cycle := fun (t : List TtSlot) => sumBy (fun x => x.duration) t
  let slots := fun (t : List TtSlot) (n : Nat) => (t.zipIdx).map (fun x => ((⟨.hallTtSlotEntry, n + x.2⟩ : RegKey), slotBits x.1))
  let pitch := fun (x : PitchPlan × Nat) => [((⟨.secPitchLayoutGranules, x.2⟩ : RegKey), x.1.granules.length),
    (⟨.secPitchLayoutStacks, x.2⟩, sumBy (fun k => if x.1.granules.contains k then 2 ^ k else 0) (List.range 8))]
  let owner := fun (k : Nat) => (List.range 16).find? (fun q => bit ((RegFile.get p.fields ⟨.secPitchLayoutStalls, q⟩).getD 0) k)
  [(⟨.hallTtLayoutSlotsA, 0⟩, p.tableA.length), (⟨.hallTtLayoutSlotsB, 0⟩, p.tableB.length),
   (⟨.hallTtLayoutCycleA, 0⟩, cycle p.tableA), (⟨.hallTtLayoutCycleB, 0⟩, cycle p.tableB)]
    ++ slots p.tableA 0 ++ slots p.tableB 64 ++ (p.pitches.zipIdx).flatMap pitch
    ++ (List.range 32).filterMap (fun k => (owner k).map (fun q => ((⟨.stallCtxPitch, k⟩ : RegKey), q)))

/-- A plan as the device takes it: what its tables say stands before its list of fields. -/
def loadPlan (p : Plan) : Plan := { p with fields := tableFields p ++ p.fields }

/-- The first check of R513 that the plan of the state fails. The host port's straps are bits 0 to 2 (R418).
(DEDUCED: log entry 53.) -/
def planCheck (s : State) : Option Nat :=
  if !s.plan.formOk then some 0x20
  else if !(tableOk s s.plan.tableA && tableOk s s.plan.tableB) then some 0x21
  else if !(ownersOk s) then some 0x22
  else if !(quotasOk s) then some 0x23
  else if s.plan.straps % 8 ≠ s.power.straps % 8 then some 0x24
  else if !(ly7Ok s) then some 0x25
  else if !(connsOk s) then some 0x26
  else if !(clientsOk s) then some 0x27
  else none

/- The boot (R511, R515). -/

/-- A boot record (R570). A stopped boot has its step in DETAIL0 [3:0]. -/
def bootRecord (c : Cond) (sev d0 : Nat) (s : State) : State :=
  let e : LogEntry :=
    { time := s.localTime, boot := rd s .pwrResetCauseFullResets 0, source := srcReset, kind := 3, sev := sev,
      code := c.code, pitch := none, detail0 := d0, detail1 := (Config.word s.fresh).toNat }
  (logWrite e (freshen s)).2

/-- The boot stops at a step with a code (R515): ALERT_N, SEC_BOOT, the boot record. -/
def bootStop (step code : Nat) (s : State) : State :=
  let c := Cond.bootStopped code
  let d0 := step + 16 * freeBits s 60
  let s := alarms sevFatal c (capture srcReset sevFatal code none d0 0 (freshen s))
  let s := bootRecord c sevFatal d0 { s with phase := .stopped, bootStep := step }
  wr .secBootStage 0 15 (wr .secBootCode 0 code s)

/-- The stacks that some pitch has a granule on. -/
def assignedStacks (s : State) : List Nat := distinct ((laidPitches s).flatMap (fun p => (pitchPlan s p).granules))

/-- A pitch after the boot, from its binding record (R478). -/
def restorePitch (p : Nat) (s : State) : State :=
  if !(laidOut s p) then wr .secPitchStateState p 7 s else
  match s.keyArea.find? (fun r => r.pitch == p) with
  | none => s
  | some r =>
    let clean := fun (erase : Bool) (up : Nat) (s : State) =>
      let s := wr .secPitchStateEpoch p (r.epoch + up) (wr .secPitchStateState p 0 s)
      if up = 0 then s else if erase then cryptoErase p s else writeRecord p s
    let same := r.conf == on s .secModeConf 0
    match r.state with
    | 0 => clean false 0 s
    | 1 => clean false 1 s
    | 2 =>
      if r.volatile then clean true 1 s
      else match r.wrapped, r.intact && same with
        | some k, true =>
          let s := wr .secPitchTenantTenantId p r.tenant (wr .secPitchStateEpoch p r.epoch (wr .secPitchStateState p 2 s))
          { s with flashKeys := (p, k) :: drop (fun x => x.1 == p) s.flashKeys, replaying := s.replaying ++ [p] }
        | _, _ =>
          let s := report srcAbtoser .keyLost sevContained (some p) s
          clean true 1 (if same then s else wr .secModeConfChanged 0 1 s)
    | _ => clean true 1 s

/-- The timetable starts at slot 0 of the plan's initial table (R155). -/
def startTimetable (s : State) : State :=
  let t := (ttTable s)[0]?
  let stall := fun (k : Nat) => { Stall.idle with cls := slotClass s t k }
  { s with stalls := (List.range 32).map stall, slotStart := s.localTime }

/-- Step 5 (R511): self-test at power-on, dies, ports. (DEDUCED: log entry 53.) -/
def bootTrain (env : BootEnv) (s : State) : State :=
  let first := rd s .pwrResetCauseFullResets 0 = 0
  let s := if first then wr .hallStallRetiredRetired 0 env.stallsFailed { s with frames := env.framesFailed, frameErrs := [] } else s
  let s := if first then each ((List.range 32).filter (fun k => bit env.stallsFailed k))
      (fun k s => report (srcStall k) .stallFailed sevDegraded none s) s else s
  let s := if first then each env.framesFailed (fun f s => report f.1 .frameRetired sevContained none s) s else s
  let s := { s with channelsFailed := env.silentChannels % 65536 }
  let s := each ((List.range 16).filter (fun c => bit env.silentChannels c))
    (fun _ s => report srcFlash .channelFailed sevDegraded none s) s
  let s := if env.unlistedDie then report srcFlash .unlistedDie sevInfo none s else s
  each ((List.range 8).filter (fun p => rd s .fabPortCfgSpeed p ≠ 0)) (fun p => wr .fabPortStatusState p 1) s

/-- The home entries a device catalogue restores: those whose keys the map still gives to this device (R195, R223).
(DEDUCED: log entry 53.) -/
def restoredHomes (s : State) : List StockEntry :=
  s.deviceCat.filter (fun e => homeOf s e.key == some (deviceId s))

/-- Step 6 (R511): the tables are loaded, the pitches restored, the device leaves boot, within 1 s (R512). -/
def bootLeave (env : BootEnv) (s : State) : State :=
  let ms := min env.bootMs 1000
  let s := reach (ms * 1000000) s
  let s := each (List.range 16) restorePitch { s with flashKeys := [], replaying := [] }
  let s := startTimetable { s with homes := restoredHomes s, zones := s.zones.map (fun z => { z with old := z.state != 0, filledAt := 0 }) }
  let s := each (List.range s.plan.peers.length) (fun q => wr .fabAssocStateState q 1) s
  let s := wr .secBootStage 0 (if s.replaying.isEmpty then 8 else 7) (wr .secBootCode 0 0 (wr .secBootBootMs 0 ms s))
  let s := { s with phase := .running, bootedAt := s.localTime, bootStep := 0, flashFilled := s.localTime }
  bootRecord .bootRecord sevInfo (Config.word s.fresh).toNat (freshen s)

/-- The reset is released (R530, R552). -/
def released (s : State) : Bool :=
  s.phase == .reset && s.power.vauxOk && s.power.tileOn && !s.power.perst && !s.power.tripped

/-- BOOT (R511). (DEDUCED: log entry 54.) (DESIGN CHOICE: log entry 4.) -/
def boot (env : BootEnv) (s : State) : State :=
  if released s = false then s else
  let s := wr .errAlarmFatal 0 0 (activateStaged { s with plan := Plan.empty })
  match hdrOf s.xspi with
  | none => bootStop 1 0x01 s
  | some h0 =>
    let h := [0, 1, 2].foldl countTrial h0
    let s := if h = h0 then s else writeHdr h s
    match chooseImage s h 0 with
    | none => bootStop 1 0x10 s
    | some rot =>
      let s := { showImage h 0 rot s with rotRunning := some rot.2.1 }
      match chooseImage s h 1 with
      | none => bootStop 3 0x11 s
      | some fw =>
        let s := { showImage h 1 fw s with fwRunning := some fw.2.1 }
        match chooseImage s h 2 with
        | none => bootStop 3 0x12 s
        | some pl =>
          let plan := loadPlan ((pl.2.1.plan).getD Plan.empty)
          let s := { showImage h 2 pl s with planImage := some pl.2.1 }
          match planCheck { s with plan := plan } with
          | some code => bootStop 4 code s
          | none =>
            let s := { s with plan := plan }
            if (assignedStacks s).all (fun k => bit env.stacksTrained k) then bootLeave env (bootTrain env s)
            else bootStop 5 0x30 s

/- Replaying a namespace (R264, R315). -/

/-- A crate as its namespace gives it back: the packed copy only. (DEDUCED: log entry 56.) -/
def replayCrate (now : Nat) (c : Crate) : Crate :=
  { c with dir := c.packDir, base := none, readers := 0, pinned := false, lastUse := now, hall := none, dram := none,
           lease := none, leaving := [], bad := [], fetch := none, reserve := false, hinted := false, lateSeen := false,
           copying := .none, flashWanted := 0, promoting := false, recoding := none, rebasing := false }

/-- A catalogued crate is there again: its ORIGIN's hold has been granted, or its namespace is still under its key. -/
def crateReturns (s : State) (failed : List (Nat × Nat × Nat)) (holds : List MyHold) (c : Crate) : Bool :=
  let held := fun (h : Handle) => holds.any (fun x => x.handles.contains h && !(failed.contains (x.device, x.pitch, x.record)))
  (match c.origin with
    | some h => held h
    | none => false)
  || (c.flash.isSome && s.flashKeys.any (fun k => k.1 == c.pitch))

/-- Put a crate back, where another namespace's replay has not done so. (DEDUCED: log entry 56.) -/
def returnCrate (failed : List (Nat × Nat × Nat)) (holds : List MyHold) (c : Crate) (s : State) : State :=
  if (crateOf s c.id).isSome then s else
  let ok := crateReturns s failed holds { c with flash := none }
  let c := replayCrate s.localTime { c with origin := if ok then c.origin else none }
  { s with crates := s.crates ++ [c] }

/-- A sequence comes back PARKED, cut to its leading catalogued pages (R264). (DEDUCED: log entry 56.) -/
def replaySeq (failed : List (Nat × Nat × Nat)) (holds : List MyHold) (x : CatSeq) (s : State) : State :=
  if x.damaged ∨ x.closing then s else
  let pages := x.pages.takeWhile (fun l => l.all (crateReturns s failed holds))
  let n := pages.length
  let layer := fun (j : Nat) (l : Layer) => { Layer.fresh with
    pages := pages.map (fun cs => (cs[j]?).map (fun c => c.id)), sealed := n,
    len := if x.seq.striped then 256 * globalPage x.seq n else 256 * n, cur := l.cur }
  let len := if x.seq.striped then 256 * globalPage x.seq n else 256 * n
  let q : Seq := { x.seq with
    st := .parked, layers := (x.seq.layers.zipIdx).map (fun y => layer y.2 y.1), lastAttend := 0, nextHint := 0, hint := none,
    keys := x.seq.keys.take (len / 256), baseKeys := [], recodes := [], import_ := none, fork := none,
    closer := none, lastStalls := [], planned := false }
  let s := each (pages.flatMap id) (returnCrate failed holds) s
  { s with seqs := s.seqs ++ [q] }

/-- A publication record with a DURABLE copy is sent anew to the home of the present map (R195). (DEDUCED: log entry 56.) -/
def replayRecord (failed : List (Nat × Nat × Nat)) (holds : List MyHold) (x : PubRec × List Crate) (s : State) : State :=
  if x.2.all (crateReturns s failed holds) then
    let s := each x.2 (returnCrate failed holds) s
    sendInsert x.1.id { s with pubs := s.pubs ++ [{ x.1 with cmd := none, st := .standing, since := s.localTime, sentDurable := false }] }
  else s

/-- CATALOGUE_REPLAY_DONE (R264, R315, R511): `failed` are the holds (device, pitch, record) that were not granted again. -/
def replayDone (p ms : Nat) (failed : List (Nat × Nat × Nat)) (s : State) : State :=
  if !(s.replaying.contains p) then s else
  let cat := ((s.catalogue.find? (fun x => x.1 == p)).map (fun x => x.2)).getD Catalogue.empty
  let s := reach (s.bootedAt + ms * 1000000) s
  let ask := fun (h : MyHold) (s : State) => match peerOfDevice s h.device with
    | some q => tell q (.holdAsk h.pitch h.record) s
    | none => s
  let s := each cat.holds ask s
  let granted := cat.holds.filter (fun h => !(failed.contains (h.device, h.pitch, h.record)))
  let back := fun (t : CodeTable) => { t with restored := true, risen := false, current := false }
  let s := { s with myHolds := s.myHolds ++ granted, tables := s.tables ++ cat.tables.map back }
  let s := each cat.seqs (replaySeq failed cat.holds) s
  let s := each cat.records (replayRecord failed cat.holds) s
  let s := raiseTo .secBootReplayMs 0 (min ms 65535) { s with replaying := s.replaying.erase p }
  if s.replaying.isEmpty then wr .secBootStage 0 8 s else s

end Sys2Proof.Machine
end

