-- ==== Sys2Proof/Machine/Cores.lean ====
section
/-! DEFINITION. Stallholders, FATAL, and firmware updates (R517 to R526). -/
namespace Sys2Proof.Machine

/- Escalation (R520). -/

/-- FATAL: alarms and the log entry first, a power state ends (R548), then rings, ports and stalls stop.
(DEDUCED: log entry 57.) -/
def escalate (src : Nat) (s : State) : State :=
  if s.phase ≠ .running then s else
  let s := report src .fatal sevFatal none s
  let s := { endPowerState s with phase := .fatalHold, fatalAt := s.localTime, restarts := [] }
  let s := each ((List.range 8).filter (fun p => rd s .fabPortStatusState p ≠ 0)) (fun p => portDown p 1 0) s
  each (List.range 4) (fun k => wr .hallCoreState k 3) s

/-- FATAL_HOLD_EXPIRY (R520). (DEDUCED: log entry 57.) -/
def holdExpires (s : State) : State :=
  if s.phase ≠ .fatalHold then s
  else fullReset causeFatal (reach (s.fatalAt + 1000000 * rd s .secBootFatalHoldMs 0) s)

/-- ABTOSER_FAULT (R520). -/
def abtoserFails (s : State) : State := escalate srcAbtoser s

/- Restarts (R517 to R521). -/

/-- Change a stallholder. -/
def onCore (k : Nat) (f : Core → Core) (s : State) : State := { s with cores := setAt s.cores k f }

/-- The stallholder of a number. -/
def coreAt (s : State) (k : Nat) : Core := (s.cores[k]?).getD Core.fresh

/-- A core restarts for a cause (R517, R527): 1 watchdog, 2 exception, 3 SRAM error, 4 live activation. -/
def restartCore (k cause : Nat) (newBank : Bool) (s : State) : State :=
  let s := bump .hallCoreRestarts k 1 (wr .hallCoreCause k cause (wr .hallCoreState k 1 s))
  let s := onCore k (fun x => { x with restartAt := s.localTime, newBank := newBank, cause := cause }) s
  report (srcCore k) .coreRestart sevContained none s

/-- Live activation fails at a core (R523): the cores that changed go back, entry 1 and the header stay as they were. -/
def activationFails (k : Nat) (s : State) : State :=
  let back := (List.range 4).filter (fun i => (coreAt s i).newBank)
  let s := { s with fwRunning := s.live.oldImage,
                    live := { s.live with active := false, copied := false, turn := 0, oldImage := none } }
  let s := wr .secFwCtrlActState 0 4 (wr .secFwCtrlActCore 0 k s)
  each back (fun i => restartCore i 4 false) s

/-- The core is the one that live activation restarts now. (DEDUCED: log entry 57.) -/
def inTurnCore (s : State) (k : Nat) : Bool :=
  s.live.active && s.live.copied && s.live.turn == k && rd s .hallCoreState k != 0

/-- The core restarts on the old bank after a live activation that failed (R523). (DEDUCED: log entry 57.) -/
def wentBack (s : State) (k : Nat) : Bool :=
  !s.live.active && !(coreAt s k).newBank && (coreAt s k).cause == 4 && rd s .hallCoreState k != 0

/-- CORE_WATCHDOG, CORE_EXCEPTION, CORE_SRAM_ERROR (R517, R520, R521): the third restart within 1 s is
FATAL, and so is a core that fails again on the old bank (R523). A watchdog expires 10 ms after the core became READY, at
the soonest. (DEDUCED: log entries 10 and 57.) -/
def coreFails (k cause : Nat) (s : State) : State :=
  let s := if cause = 1 ∧ rd s .hallCoreState k = 0 then reach (max s.bootedAt (coreAt s k).readyAt + 10000000) s else s
  if inTurnCore s k then activationFails k s
  else if wentBack s k then escalate (srcCore k) s else
  let recent := s.restarts.filter (fun t => decide (s.localTime ≤ t + 1000000000)) ++ [s.localTime]
  let s := restartCore k cause (coreAt s k).newBank { s with restarts := recent }
  if 3 ≤ recent.length then escalate (srcCore k) s else s

/-- Live activation ends (R523 step 4): LIVE, the header without TRIAL, the new image shown. (DEDUCED: log entry 52.) -/
def activationDone (s : State) : State :=
  let slot := stagingSlot s 1
  let h := ((hdrOf s.xspi).getD BootHdr.first).name 1 slot false
  let im := s.fwRunning
  let s := writeHdr h s
  let s := { s with live := { active := false, copied := false, turn := 0, live := true, oldImage := none },
                    stagedOk := s.stagedOk.erase 1, cores := s.cores.map (fun c => { c with newBank := false }) }
  let s := wr .secImageVersion 1 ((im.map (fun i => i.version)).getD 0) (wr .secImageSvn 1 ((im.map (fun i => i.svn)).getD 0) s)
  let s := wr .secImageSlot 1 slot (wr .secImageTrial 1 0 (wr .secImageStaged 1 0 s))
  wr .secFwCtrlActState 0 3 (wr .secImageStagedVersion 1 0 (wr .secImageStagedSvn 1 0 s))

/-- What a core that is READY again resumes before its rings (R517 steps 3 and 4, R518): core 1 its selections, imports, forks,
parks and closes, core 2 the inserts that have no answer (R224). -/
def resumeCore (k : Nat) (s : State) : State :=
  if k = 1 then closesGoOn (parksGoOn (forksGoOn (importsDone (selectsDone s))))
  else if k = 2 then each ((s.pubs.filter (fun r => r.st == .sent)).map (fun r => r.id)) sendInsert s else s

/-- CORE_READY (R517 step 4, R523 step 3). -/
def coreReady (k : Nat) (s : State) : State :=
  if rd s .hallCoreState k = 0 then s else
  let turn := inTurnCore s k
  let us := min 65535 ((s.localTime - (coreAt s k).restartAt) / 1000)
  let s := onCore k (fun x => { x with readyAt := s.localTime }) s
  let s := resumeCore k (wr .hallCoreState k 0 (wr .hallCoreLastUs k us s))
  if turn = false then s
  else if k = 0 then activationDone s
  else restartCore (k - 1) 4 true { s with live := { s.live with turn := k - 1 } }

/-- CORE_READY_TIMEOUT (R520): 50 ms after the event that started the restart. -/
def coreLate (k : Nat) (s : State) : State :=
  if rd s .hallCoreState k = 0 then s
  else escalate (srcCore k) (reach ((coreAt s k).restartAt + 50000000) s)

/-- LIVE_ACTIVATION_TIMEOUT (R523): 5 ms without READY. -/
def activationLate (k : Nat) (s : State) : State :=
  if inTurnCore s k then activationFails k (reach ((coreAt s k).restartAt + 5000000) s) else s

/- Live activation and confirmation (R522, R523, R526). -/

/-- A staged stallholder image that may be activated live. -/
def liveImage (s : State) : Option Image :=
  if s.stagedOk.contains 1 then (imageAt s 1 (stagingSlot s 1)).filter (fun im => im.liveOk) else none

/-- Step 1 of a live activation starts: the image is copied to the free bank. -/
def startLive (s : State) : State :=
  if s.live.active ∨ (liveImage s).isNone then s
  else wr .secFwCtrlActState 0 1 (wr .secFwCtrlActCore 0 0
    { s with live := { s.live with active := true, copied := false, turn := 3, oldImage := s.fwRunning } })

/-- LIVE_ACTIVATE: PF0 writes 1 to LIVE_ACTIVATE (R526). -/
def liveActivate (fn : Nat) (s : State) : State := if fn = 0 then startLive s else s

/-- LIVE_COPY_DONE (R523 steps 1 to 3): with the image verified, entry 1 is extended and core 3 restarts.
(DEDUCED: log entry 52.) -/
def liveCopied (verified : Bool) (s : State) : State :=
  if s.live.active = false ∨ s.live.copied then s
  else match verified, liveImage s with
    | true, some im =>
      restartCore 3 4 true (wr .secFwCtrlActState 0 2
        { s with live := { s.live with copied := true, turn := 3 }, fwRunning := some im })
    | _, _ => wr .secFwCtrlActState 0 4 { s with live := { s.live with active := false, oldImage := none } }

/-- Burn a fused version (R507): versions only rise, to at most 255. -/
def burnSvn (k n : Nat) (s : State) : State :=
  if n ≤ rd s .secImageFusedSvn k ∨ 255 < n then s else
  let s := { s with fuses := RegFile.set s.fuses ⟨.secImageFusedSvn, k⟩ n }
  if k = 0 then { s with fuses := RegFile.set s.fuses ⟨.secModeRotSvn, 0⟩ n } else s

/-- Apply one request of OWNER_KEYS (R506): slots 1 to 3 are burned once, and the slot that signed the plan is not
revoked. -/
def ownerKeyOp (signer : Nat) (op : OwnerKeyOp) (s : State) : State :=
  match op with
  | .burn slot digest => match s.ownerKeys[slot]? with
    | some (none, r) => if slot = 0 then s else { s with ownerKeys := s.ownerKeys.set slot (some digest, r) }
    | _ => s
  | .revoke slot => match s.ownerKeys[slot]? with
    | some (d, _) => if slot = signer then s else { s with ownerKeys := s.ownerKeys.set slot (d, true) }
    | none => s

/-- The image of a kind that runs. -/
def runningImage (s : State) (k : Nat) : Option Image :=
  match k with
  | 0 => s.rotRunning
  | 1 => s.fwRunning
  | _ => s.planImage

/-- A kind on trial is confirmed (R522). -/
def confirmKind (k : Nat) (s : State) : State :=
  if !(on s .secImageTrial k) then s else
  let s := wr .secImageTrial k 0 s
  match runningImage s k with
  | none => s
  | some im =>
    if k = 2 then each s.plan.ownerKeys (ownerKeyOp im.keySlot) s
    else if im.commitSvn then burnSvn k im.svn s else s

/-- Every image on trial is confirmed: TRIAL is cleared, security versions and owner keys are burned. -/
def confirm (s : State) : State :=
  if (List.range 3).all (fun k => !(on s .secImageTrial k)) then s else
  let end_ := fun (h : BootHdr) (k : Nat) => if on s .secImageTrial k then h.name k (h.slot k) false else h
  each (List.range 3) confirmKind (writeHdr ((List.range 3).foldl end_ ((hdrOf s.xspi).getD BootHdr.first)) s)

/-- FW_CONFIRM: PF0 writes 1 to CONFIRM (R526). -/
def fwConfirm (fn : Nat) (s : State) : State := if fn = 0 then confirm s else s

/-- TRIAL_CONFIRM_TIMER (R522): 60 s after the device left boot. -/
def trialTimer (s : State) : State :=
  if (List.range 3).all (fun k => !(on s .secImageTrial k)) then s else confirm (reach (s.bootedAt + 60000000000) s)

/- The sideband's firmware update (R452, R522). -/

/-- The endpoint answers. -/
def answerSideband (m : SidebandMsg) (s : State) : State := { s with sidebandOut := s.sidebandOut ++ [m] }

/-- PLDM_FW_COMPONENT (R522): the component goes to the staging slot of its kind and stays there if it verifies.
(DEDUCED: log entries 52 and 70.) (DESIGN CHOICE: log entry 4.) -/
def fwComponent (im : Image) (s : State) : State :=
  if s.power.vauxOk = false then s
  else if im.kind = 0 ∨ 3 < im.kind then answerSideband (.verified false) s
  else
    let k := im.kind - 1
    let ok := imageValid s im && decide (imageSize im ≤ (slotSpan k (stagingSlot s k)).2)
    let s := putImage k (stagingSlot s k) (if ok then some im else none) s
    let s := { s with stagedOk := s.stagedOk.erase k ++ (if ok then [k] else []) }
    let s := wr .secImageStaged k (b2n ok) (wr .secImageStagedVersion k (if ok then im.version else 0)
      (wr .secImageStagedSvn k (if ok then im.svn else 0) s))
    answerSideband (.verified ok) s

/-- PLDM_ACTIVATE_FIRMWARE (R515, R523, R550): a self-contained activation is a live one; any other, and any while a boot
is stopped, is a full reset. (DEDUCED: log entry 70.) -/
def activateFirmware (selfContained : Bool) (s : State) : State :=
  if s.power.vauxOk = false then s
  else if selfContained ∧ s.phase ≠ .stopped then (if running s then startLive s else s)
  else fullReset causePldm s

end Sys2Proof.Machine
end

