-- ==== Sys2Proof/Machine/Life.lean ====
section
/-! DEFINITION. Power states, FULL_RESET, clocks and the ONFI rail (R542 to R551, R599, R606). -/
namespace Sys2Proof.Machine

/- Quiet and known events (R544, R545). -/

/-- A command does not disturb quiet: it is held by its chain or armed. -/
def cmdQuiet (s : State) (c : Cmd) : Bool := c.wait == .chained || s.triggers.any (fun t => t.cmd == c.id)

/-- Nothing is in progress on a crate. A flash write that stage B holds does not count. -/
def crateQuiet (s : State) (c : Crate) : Bool :=
  c.fetch.isNone && c.recoding.isNone && !c.rebasing && !c.promoting && c.copying == .none
    && (stageOn s 2 || c.flashWanted == 0 || !(flashAllowed s c))

/-- The device is quiet (R544). -/
def isQuiet (s : State) : Bool :=
  s.cmds.all (cmdQuiet s) && s.rings.all (fun r => r.accepted.isEmpty)
    && s.ctxs.isEmpty && s.unplaced.isEmpty && s.stalls.all (fun k => k.queue.isEmpty && k.running.isNone)
    && s.seals.isEmpty && s.crates.all (crateQuiet s) && s.evicting.all (fun x => x.2.2)
    && !((List.range 16).any (fun p => gcRuns s p && s.zones.any (fun z => z.pitch == p && z.state == 3)))
    && s.leases.all (fun l => l.st == .live) && s.releases.isEmpty && s.replaying.isEmpty
    && s.conns.all (fun c => c.unacked.isEmpty)

/-- The end of each slot from the present one on, over one cycle: the time and the slot that follows. -/
def slotEnds (s : State) : List (Nat × Nat) :=
  let t := ttTable s
  let n := t.length
  let k := rd s .hallTtStatusSlot 0
  ((List.range n).foldl (fun (acc : Nat × List (Nat × Nat)) i =>
    let d := acc.1 + 10000 * ((t[(k + i) % n]?).map (fun x => x.duration)).getD 0
    (d, acc.2 ++ [(d, (k + i + 1) % n)])) (s.slotStart, [])).2

/-- The next slot boundary at which the class of any stall changes (R157). (DEDUCED: log entry 58.) -/
def nextClassChange (s : State) : Option Nat :=
  let t := ttTable s
  let now := (List.range 32).map (fun k => slotClass s t[rd s .hallTtStatusSlot 0]? k)
  ((slotEnds s).find? (fun x => (List.range 32).map (fun k => slotClass s t[x.2]? k) != now)).map (fun x => x.1)

/-- The known events (R545), without the poll wake of P3. -/
def knownEvents (s : State) : List Nat :=
  let hinted := s.seqs.filter (fun q => q.nextHint != 0)
  let plans := hinted.filterMap (fun q => if q.planned then none else q.hint.map (planStart s q))
  let rekeys := (List.range s.plan.peers.length).filterMap (fun q =>
    if assocUp s q then some ((peerOf s q).bornAt + rd s .fabAssocCfgRekeyAge 0 * 3600000000000) else none)
  (nextClassChange s).toList ++ plans ++ hinted.map (fun q => q.nextHint) ++ s.triggers.filterMap (fun t => t.deadline)
    ++ rekeys

/-- The earliest known event that lay ahead when the choice of a power state was made: now in P0, else when its entry
began (R546, R549). -/
def nextEvent (s : State) : Option Nat :=
  let l := knownEvents s ++ (if rd s .pwrStateState 0 = 3 then [s.power.pollAt] else [])
  let from_ := if rd s .pwrStateState 0 = 0 then s.localTime else s.power.quietAt
  leastBy (fun x => x) (l.filter (fun e => decide (from_ < e)))

/- Power states (R542, R546 to R549). -/

/-- Entry cost and wake latency of a power state in ns (R542). (DESIGN CHOICE: log entry 75.) -/
def entryCost (n : Nat) : Nat := if n = 1 then 5000 else if n = 2 then 100000 else 2000000
def wakeLatency (n : Nat) : Nat := if n = 1 then 20000 else if n = 2 then 300000 else 6000000

/-- P3 is allowed: MAX_STATE 3, no CXL link up, no lease (R546). -/
def p3Allowed (s : State) : Bool :=
  rd s .pwrCtrlMaxState 0 == 3 && s.leases.isEmpty
    && (List.range 2).all (fun h => !(on s .pciLinkUp h) || rd s .pciLinkCxl h == 0)

/-- The deepest allowed state that a limit and a test admission; 0 for none. -/
def deepest (s : State) (top : Nat) (ok : Nat → Bool) : Nat :=
  (([3, 2, 1].filter (fun n => decide (n ≤ top) && (n != 3 || p3Allowed s))).find? ok).getD 0

/-- The device enters a state, or stays in P0. -/
def enterPower (n : Nat) (event : Option Nat) (s : State) : State :=
  { s with power := { s.power with move := if n = 0 then .none else .entering n, quietAt := s.localTime, event := event } }

/-- DEVICE_QUIET (R546). -/
def deviceQuiet (s : State) : State :=
  if !(isQuiet s) ∨ rd s .pwrStateState 0 ≠ 0 ∨ s.power.move ≠ .none ∨ s.localTime < s.power.holdUntil then s
  else match nextEvent s with
    | none => { s with power := { s.power with move := .quiet, quietAt := s.localTime, event := none } }
    | some e =>
      let n := deepest s (rd s .pwrCtrlMaxState 0) (fun n =>
        decide (10 * (entryCost n + wakeLatency n) ≤ 9 * (e - s.localTime)))
      enterPower n (some e) s

/-- QUIET_IDLE_TIMER (R546): quiet for 1 ms with no known event. -/
def quietTimer (s : State) : State :=
  if s.power.move ≠ .quiet then s
  else if !(isQuiet s) then { s with power := { s.power with move := .none } }
  else
    let s := reach (s.power.quietAt + 1000000) s
    enterPower (deepest s (min (rd s .pwrCtrlDeepIdle 0) (rd s .pwrCtrlMaxState 0)) (fun _ => true)) none s

/-- Quiet that ends before the timer is left (R546). -/
def leaveQuiet (s : State) : State :=
  if s.power.move = .quiet ∧ !(isQuiet s) then { s with power := { s.power with move := .none } } else s

/-- The SerDes go off for P3: the ports that are up rest. (DEDUCED: log entry 58.) -/
def portsRest (s : State) : State :=
  each ((List.range 8).filter (fun p => rd s .fabPortStatusState p = 2)) (fun p s =>
    wr .fabPortStatusEqSettled p 0 (wr .fabPortStatusState p 3 s)) s

/-- The ports link again after P3: base RTTs are forgotten, and under stage C FAB4 to FAB7 stay idle (R547, R554, R538).
(DEDUCED: log entry 58.) -/
def portsReturn (s : State) : State :=
  each ((List.range 8).filter (fun p => rd s .fabPortStatusState p = 3 && !(portOf s p).idle)) (fun p s =>
    if stageOn s 3 ∧ 4 ≤ p then onPort p (fun x => { x with idle := true }) s
    else forgetBase p (wr .fabPortStatusState p 2 s)) s

/-- Every peer is probed after P3, and its connections resynchronise when it answers (R547). -/
def pollPeers (s : State) : State :=
  each (List.range s.plan.peers.length) (fun q s => probePeer q (onPeer q (fun x => { x with polled := true }) s)) s

/-- POWER_STATE_ENTRY_DONE (R542, R561). -/
def entryDone (s : State) : State :=
  match s.power.move with
  | .entering n =>
    let s := reach (s.power.quietAt + entryCost n) s
    let poll := s.localTime + 1000000 * max 10 (rd s .pwrCtrlP3PollMs 0)
    let s := { s with p0Regs := s.regs, power := { s.power with
               move := .none, enteredAt := s.localTime, pollAt := if n = 3 then poll else 0, stageAtEntry := rd s .pwrStageStage 0 } }
    let s := bump (if n = 1 then .pwrStateStatP1Entries else if n = 2 then .pwrStateStatP2Entries
      else .pwrStateStatP3Entries) 0 1 (wr .pwrStateState 0 n s)
    if n = 3 then portsRest s else s
  | _ => s

/-- The device rests in a state and is not waking. -/
def resting (s : State) : Bool := rd s .pwrStateState 0 != 0 && s.power.move == .none

/-- KNOWN_EVENT_WAKE (R546): the wake begins its latency before the event. A wake for the poll is a poll wake (R545, R547). -/
def eventWake (s : State) : State :=
  match nextEvent s with
  | none => s
  | some e =>
    if !(resting s) then s else
    let hold := if rd s .pwrStateState 0 = 3 ∧ e = s.power.pollAt then e + 20000000 else s.power.holdUntil
    let s := reach (e - wakeLatency (rd s .pwrStateState 0)) s
    { s with power := { s.power with move := .waking, event := some e, holdUntil := hold } }

/-- P3_POLL_WAKE (R547): P3_POLL_MS after P3 was entered, with 20 ms in P0 to follow. (DEDUCED: log entry 58.) -/
def pollWake (s : State) : State :=
  if rd s .pwrStateState 0 ≠ 3 ∨ !(resting s) then s else
  let s := reach s.power.pollAt s
  { s with power := { s.power with move := .waking, event := none, holdUntil := s.localTime + wakeLatency 3 + 20000000 } }

/-- P3_POLL_HOLD_END (R547). -/
def pollHoldEnds (s : State) : State := if s.power.holdUntil = 0 then s else
  let t := reach s.power.holdUntil s
  { t with power := { t.power with holdUntil := 0 } }

/-- WAKE_DONE (R547 to R549): P0, a late wake is counted, waiting frames are taken, after P3 the ports link and every peer is
probed; stages entered in the state shed from now on (R538). (DEDUCED: log entry 58.) -/
def wakeDone (s : State) : State :=
  if s.power.move ≠ .waking then s else
  let n := rd s .pwrStateState 0
  let late := match s.power.event with
    | some e => decide (e < s.localTime)
    | none => false
  let s := if n = 0 then s else countResidency (s.localTime - s.power.enteredAt) s
  let s := if late then bump .pwrStateLateWakes 0 1 s else s
  let s := wr .pwrStateState 0 0 { s with power := { s.power with move := .none, event := none, pollAt := 0 } }
  let s := if n = 3 then pollPeers (portsReturn s) else s
  let s := if n ≠ 0 ∧ stageOn s 1 then wr .errTelemCtrlShed 0 1 s else s
  let s := if n ≠ 0 ∧ stageOn s 3 then idlePorts s else s
  let s := if n ≠ 0 ∧ s.power.stageAtEntry < 2 ∧ stageOn s 2 then recallOnStage s else s
  each (List.range 8) (fun p s =>
    let l := (portOf s p).ingress
    each l receive (onPort p (fun x => { x with ingress := [] }) s)) s

/-- WAKE_ARRIVAL (R548). -/
def wakeArrival (a : Arrival) (s : State) : State :=
  match a with
  | .dataFrame f => arrives f s
  | .controlPacket _ => s
  | .sidebandRequest => s
  | .doorbell | .registerAccess | .cxlAccess | .alarm => startWake s

/-- PWR_CTRL_WRITE: PF0 writes PWR_CTRL (R559, R549). -/
def pwrCtrlWrite (fn v : Nat) (s : State) : State :=
  if fn ≠ 0 then s else
  let s := wr .pwrCtrlMaxState 0 (bits v 0 2) (wr .pwrCtrlDeepIdle 0 (bits v 2 2) (wr .pwrCtrlP3PollMs 0 (bits v 4 12) s))
  if rd s .pwrCtrlMaxState 0 < rd s .pwrStateState 0 then startWake s else s

/- FULL_RESET and the other ends of a run. -/

/-- FULL_RESET (R551). -/
def opFullReset (c : Cmd) (s : State) : State :=
  if fieldOf c.entry 0x10 4 ≠ 0x4C595253 ∨ !(zeroAt c.entry 0x14 44) then complete c.id .badParam 0 s
  else fullReset causeCommand s

/-- PCIE_HOT_RESET: hot reset or link disable on a half (R422, R550). -/
def hotReset (half : Nat) (s : State) : State := if on s .pciLinkUp half then fullReset causeHotReset s else s

/- Clocks and the ONFI rail. -/

/-- SREFCLK_LOSS (R606): every port goes down with cause link lost. (DEDUCED: log entry 58.) -/
def srefLost (s : State) : State :=
  let up := (List.range 8).filter (fun p => rd s .fabPortStatusState p != 0 && rd s .fabPortStatusState p != 4)
  report (srcPort 0) .clockLost sevDegraded none (each up (fun p => portDown p 1 0) s)

/-- Every flash channel fails (R26): each channel that a listed die lies on and that had not failed is reported. -/
def channelsFail (s : State) : State :=
  let new := (distinct (s.plan.dies.map (fun d => d.1))).filter (fun c => !(bit s.channelsFailed c))
  each new (fun _ => report srcFlash .channelFailed sevDegraded none) { s with channelsFailed := 65535 }

/-- AUXCLK_LOSS (R606). -/
def auxLost (s : State) : State := channelsFail (report srcReset .clockLost sevDegraded none s)

/-- HREFCLK_LOSS (R606): a surprise link-down of the half; nothing without bifurcation on half 1. -/
def hrefLost (half : Nat) (s : State) : State :=
  if half = 1 ∧ on s .pciLinkBif 0 = false then s else surpriseDown half s

/-- ONFI_VCCQ_OVERCURRENT (R599): the rail goes off until the next full reset. -/
def onfiOvercurrent (s : State) : State :=
  if s.power.onfiOff then s
  else channelsFail (report srcFlash .overcurrent sevDegraded none { s with power := { s.power with onfiOff := true } })

/-- SUPPLY_STAGE_ENTER (R534, R535, R266): under stage B lenders recall, from the wake on when the device rests (R538). -/
def stageEnter (g mv : Nat) (s : State) : State :=
  let before := rd s .pwrStageStage 0
  let s := enterStage g mv s
  if before < 2 ∧ 2 ≤ rd s .pwrStageStage 0 ∧ rd s .pwrStateState 0 = 0 then recallOnStage s else s

end Sys2Proof.Machine
end

