-- ==== Sys2Proof/Machine/Views.lean ====
section
/-! DEFINITION. The register map of BAR0, what each field shows, and register reads (R611 to R628). -/
namespace Sys2Proof.Machine

/- Addresses (R617, R619, R620). -/

/-- A row of the address index: `outer` groups of `inner` entries; entry j of group i has index i * mul + j. -/
structure RegRow where
  base    : Nat
  reg     : Reg
  outer   : Nat
  ostride : Nat
  inner   : Nat
  istride : Nat
  mul     : Nat

/-- One register. -/
def RegRow.one (base : Nat) (reg : Reg) : RegRow := ⟨base, reg, 1, 0, 1, 1048576, 0⟩

/-- An array. -/
def RegRow.many (base : Nat) (reg : Reg) (n stride : Nat) : RegRow := ⟨base, reg, 1, 0, n, stride, 0⟩

/-- A register of each port. -/
def RegRow.port (base : Nat) (reg : Reg) : RegRow := ⟨base, reg, 8, 0x1000, 1, 0x1000, 1⟩

/-- The device registers up to the FAB block's peers (R619). -/
def deviceRows1 : List RegRow :=
  [.one 0x0 .hallDeviceInfo, .one 0x8 .hallStallRetired, .one 0x10 .hallRate, .one 0x18 .hallLocalTime,
   .one 0x20 .hallSealStat, .one 0x28 .hallReplayStat, .one 0x30 .hallTtStatus, .one 0x38 .hallTtLayout,
   .one 0x40 .hallStockCfg, .one 0x48 .hallStockStat, .one 0x50 .hallStockLost, .one 0x54 .hallTierStall,
   .one 0x58 .hallLease, .one 0x60 .hallTableStore, .many 0x80 .hallDramRetired 8 4, .many 0xC0 .hallUnpackStat 8 8,
   .many 0x100 .hallCore 4 8, .many 0x1000 .hallTtSlot 128 0x20,
   .many 0x10000 .stallPasses 32 0x100, .many 0x10008 .stallCtx 32 0x100, .many 0x10010 .stallCtxStat 32 0x100,
   .one 0x12000 .stallWeighStat, .one 0x20000 .flashBudget, .one 0x20008 .flashHealth]

/-- The FAB block (R619). -/
def deviceRows2 : List RegRow :=
  [.one 0x30000 .fabTransportCfg, .one 0x30008 .fabCcCfg, .one 0x30010 .fabAssocCfg, .port 0x31000 .fabPortCfg,
   .port 0x31008 .fabPortStatus, .port 0x31010 .fabPortCtrl, .port 0x31018 .fabRxStat, .port 0x31020 .fabOrderStat,
   .port 0x31028 .fabReliability, ⟨0x31040, .fabLaneStat, 8, 0x1000, 4, 8, 4⟩, ⟨0x31100, .fabEgressCfg, 8, 0x1000, 32, 8, 32⟩,
   ⟨0x31200, .fabShaper, 8, 0x1000, 32, 8, 32⟩, .many 0x40000 .fabAssocState 4096 8, .many 0x100000 .fabConnCfg 65536 8,
   .many 0x180000 .fabConnState 65536 8, .many 0x200000 .fabConnCc 65536 16]

/-- The PCI, SEC, PWR and ERR blocks (R619). -/
def deviceRows3 : List RegRow :=
  [.many 0x300000 .pciLink 2 8, .many 0x300010 .pciCxlStat 2 8, .many 0x300040 .pciFnStatus 17 4,
   .many 0x300100 .pciChitRange 17 8, .many 0x310000 .pciRingCfg 1024 16, .many 0x314000 .pciRingAddr 1024 16,
   .many 0x318000 .pciRingState 1024 8, .one 0x400000 .secMode, .one 0x400008 .secBoot, .one 0x400010 .secFwCtrl,
   .many 0x400020 .secImage 3 16, .many 0x401000 .secPeerTrust 4096 4, .many 0x410000 .secCertBuf 8 0x1000,
   .one 0x500000 .pwrSupply, .one 0x500008 .pwrPower, .one 0x500010 .pwrLimit, .one 0x500018 .pwrStage,
   .one 0x500020 .pwrCtrl, .one 0x500028 .pwrState, .one 0x500030 .pwrStateStat, .one 0x500040 .pwrResetCause,
   .one 0x600000 .errLogPtr, .one 0x600008 .errAlarm, .one 0x600010 .errTelemCtrl, .one 0x600020 .errTelemAddr,
   .many 0x600100 .errEvtCfg 17 16, .many 0x600300 .errEvtState 17 8, .many 0x601000 .errSourceStat 128 8,
   .many 0x602000 .errCapture 128 0x20, .one 0x608000 .errLog]

/-- A register of each pitch block, with its entries in a block and the distance of their indices. -/
def RegRow.pitch (off : Nat) (reg : Reg) (n stride mul : Nat) : RegRow := ⟨0x2000000 + off, reg, 16, 0x100000, n, stride, mul⟩

/-- The pitch blocks (R620). -/
def pitchRows : List RegRow :=
  [.pitch 0x0 .pitchLedger 1 8 1, .pitch 0x8 .pitchLedgerDamaged 1 8 1, .pitch 0x10 .pitchAttendStat 1 8 1,
   .pitch 0x18 .pitchAttendFault 1 8 1, .pitch 0x20 .pitchDispatchCfg 1 8 1, .pitch 0x28 .pitchSaveUse 1 4 1,
   .pitch 0x2C .pitchTillCtrl 1 4 1, .pitch 0x30 .pitchPrefixCfg 1 8 1, .pitch 0x38 .pitchPrefixBase 1 8 1,
   .pitch 0x40 .pitchPrefixStat 1 8 1, .pitch 0x48 .pitchPrefixPub 1 8 1, .pitch 0x50 .pitchTierCfg 1 8 1,
   .pitch 0x58 .pitchTierCap 1 8 1, .pitch 0x60 .pitchTierUse 1 8 1, .pitch 0x68 .pitchTierPool 1 8 1,
   .pitch 0x70 .pitchHawkStat 1 8 1, .pitch 0x78 .flashWear 1 8 1, .pitch 0x80 .pitchPackCfg 1 8 1,
   .pitch 0x88 .pitchPackStat 1 8 1, .pitch 0x90 .pitchDeltaStat 1 8 1, .pitch 0x98 .fabWinUse 1 8 1,
   .pitch 0xA0 .secPitchState 1 8 1, .pitch 0xA8 .secPitchLayout 1 8 1, .pitch 0xC0 .secPitchTenant 1 32 1,
   .pitch 0x100 .pitchClient 15 4 16, .pitch 0x200 .pitchDeltaPair 8 0x20 8, .pitch 0x1000 .pitchTillWait 15 16 16,
   .pitch 0x1100 .pitchTillPreempt 15 16 16, .pitch 0x1200 .pitchTillHist 240 4 256, .pitch 0x2000 .pciHwin 256 16 256]

/-- Bytes of a register. -/
def regBytes (r : Reg) : Nat := r.width / 8

/-- The entry of a row that holds a BAR0 offset: index and byte within the register. -/
def RegRow.at (x : RegRow) (off : Nat) : Option (Nat × Nat) :=
  if off < x.base then none else
  let d := off - x.base
  let i := if x.outer = 1 then 0 else d / x.ostride
  let e := d - i * x.ostride
  let j := e / x.istride
  let b := e % x.istride
  if i < x.outer ∧ j < x.inner ∧ b < regBytes x.reg then some (i * x.mul + j, b) else none

/-- A source code of R563 that names a unit. -/
def sourceNamed (n : Nat) : Bool :=
  n ≤ 8 || (0x10 ≤ n && n ≤ 0x35) || n == 0x38 || (0x40 ≤ n && n ≤ 0x47) || n == 0x50 || n == 0x51 || (0x58 ≤ n && n ≤ 0x5E)

/-- The instance of an array is in use (R613). -/
def instanceUsed (s : State) (r : Reg) (off i : Nat) : Bool :=
  match r with
  | .errCapture | .errSourceStat => sourceNamed i
  | _ => decide (off < 0x2000000) || laidOut s ((off - 0x2000000) / 0x100000)

/-- The register at a BAR0 offset, its index and the byte within it; none where the offset is reserved (R613). -/
def regAt (s : State) (off : Nat) : Option (Reg × Nat × Nat) :=
  let rows := if 0x2000000 ≤ off then pitchRows else deviceRows1 ++ (deviceRows2 ++ deviceRows3)
  (rows.findSome? (fun x => (x.at off).map (fun y => (x.reg, y.1, y.2)))).filter (fun x => instanceUsed s x.1 off x.2.1)

/- What fields show. -/

/-- Bytes in units of 16 MiB. (DEDUCED: log entry 18.) -/
def units16 (n : Nat) : Nat := n / 16777216

/-- What holds the stalls below their nominal rate (R29). -/
def rateLimit (s : State) : Nat :=
  if s.power.capHeld || decide (0 < s.power.throttle) then 1
  else if s.power.tempLimit < 2000 ∧ rd s .hallRateRateTarget 0 < 2000 then 2
  else if stageOn s 3 then 3
  else if rd s .pwrStateState 0 ≠ 0 then 4
  else 0

/-- The bytes of a slot entry of a timetable (R153, R177). -/
def slotEntry (t : List TtSlot) (n : Nat) : Nat :=
  match t[n]? with
  | some x => x.duration + 2 ^ 32 * (x.classMap % 2 ^ 128)
  | none => 0

/-- The cycle of a table in units of 10 µs (R176). -/
def tableCycle (t : List TtSlot) : Nat := sumBy (fun x => x.duration) t

/-- The state of a context slot of a stall (R181): 0 free, 1 runnable, 2 running, 3 blocked or in transfer. A context that has
finished its last pass reads 3 until its partial is handed over. (DESIGN CHOICE: log entry 81.) -/
def slotState (s : State) (k j : Nat) : Nat :=
  match s.ctxs.find? (fun x => ctxStall x == some k && decide (x.base ≤ j) && decide (j < x.base + x.slots)) with
  | none => 0
  | some x =>
    if x.place ≠ .resident k then 3
    else if (stallAt s k).running = some x.id then 2
    else if ctxRunnable s x then 1 else 3

/-- Sequences of a pitch in states that a test picks. -/
def seqsIn (s : State) (p : Nat) (ok : SeqSt → Bool) : Nat := countBy (fun q => q.pitch == p && ok q.st) s.seqs

/-- The connection state is among the 8,192 used most recently (R334). -/
def connHot (s : State) (c : Nat) : Bool :=
  match s.conns.find? (fun x => x.num == c) with
  | none => false
  | some x => decide (countBy (fun y => decide (x.lastUse < y.lastUse)) s.conns < 8192)

/-- Lines of a half's host poisoned and not rewritten (R460). -/
def poisonedLines (s : State) (half : Nat) : Nat :=
  countBy (fun k => match cxlOf s (k / dramKey 1 0) (k % dramKey 1 0) with
    | some x => x.1 == half
    | none => false) s.poison

/-- Time to the earliest known event in µs; 0 for none (R560). -/
def nextEventUs (s : State) : Nat :=
  match nextEvent s with
  | some e => min 4294967295 ((e - s.localTime) / 1000)
  | none => 0

/-- What a field shows: the stored value, or what the tables of the device hold now. SAVED (R180) leaves out a context that is being
restored. (DESIGN CHOICE: log entry 81.) -/
def view (s : State) (f : Fld) (i : Nat) : Nat :=
  match f with
  | .hallRateRateMeas => freeBits s 12
  | .hallRateLimit => rateLimit s
  | .hallLocalTimeNs => s.localTime
  | .hallTtLayoutSlotsA => s.plan.tableA.length
  | .hallTtLayoutSlotsB => s.plan.tableB.length
  | .hallTtLayoutCycleA => tableCycle s.plan.tableA
  | .hallTtLayoutCycleB => tableCycle s.plan.tableB
  | .hallTtSlotEntry => if i < 64 then slotEntry s.plan.tableA i else slotEntry s.plan.tableB (i - 64)
  | .hallStockStatEntries => s.homes.length
  | .hallStockStatReplicas => s.replicas.length
  | .hallLeaseLent => countBy (fun l => l.lent) s.leases
  | .hallLeaseBorrowed => countBy (fun l => !l.lent && l.st != .asked) s.leases
  | .hallLeaseDirtyMib => dirtyBytes s / 1048576
  | .hallTableStoreUsed => s.tables.length
  | .hallTableStoreRestored => countBy (fun t => t.restored) s.tables
  | .hallDramRetiredFrames => countBy (fun x => x.1 == i) s.frames
  | .hallDramRetiredFull => b2n (decide (512 ≤ countBy (fun x => x.1 == i) s.frames))
  | .hallCoreState => if rd s f i = 1 ∧ (coreAt s i).restartAt + 200000 ≤ s.localTime then 2 else rd s f i
  | .stallCtxSlotState => slotState s i 0 + 4 * slotState s i 1 + 16 * slotState s i 2 + 64 * slotState s i 3
  | .stallCtxClass => (stallAt s i).cls
  | .stallCtxQueued => min 65535 (stallLoad s i)
  | .flashBudgetTokensGib => (fillFlash s).flashTokens / gib
  | .fabConnStateHot => b2n (connHot s i)
  | .fabConnStateInflight => (connOf s i).unacked.length
  | .fabOrderStatPfHeld => (pendingFinals (portOf s i)).length
  | .fabOrderStatRoHeld => (portOf s i).reorder.length
  | .pciChitRangeTrigArmed => countBy (fun t => t.owner == i) s.triggers
  | .pciRingStateHeld => countBy (fun c => c.ring == i && c.wait == .chained) s.cmds
  | .pciCxlStatTracked => countBy (fun x => x.half == i) s.cxlLines
  | .pciCxlStatPoisoned => poisonedLines s i / 1000
  | .pwrStateNextEventUs => nextEventUs s
  | .pwrSupplyVauxMv => freeBits s 12
  | .pwrSupplyVcoreMv => freeBits (freshen s) 12
  | .pwrPowerDram => freeBits s 16
  | .fabLaneStatFecCorr => freeBits s 32
  | .fabLaneStatFecUncorr => freeBits (freshen s) 16
  | .fabLaneStatEyeMargin => freeBits (freshen (freshen s)) 8
  | .errTelemCtrlTrace => if on s .secModeConf 0 then 0 else rd s f i
  | .pitchLedgerInUse => seqsIn s i (fun x => x != .free)
  | .pitchLedgerParked => seqsIn s i (fun x => x == .parked)
  | .pitchLedgerDamagedDamaged => seqsIn s i (fun x => x == .damaged)
  | .pitchSaveUseReserved => saveReserved s i
  | .pitchSaveUseSaved => sumBy (fun x => if x.pitch = i then (match x.place with
      | .saved _ => x.slots
      | _ => 0) else 0) s.ctxs
  | .pitchTierUseDramUsed => units16 (dramUsed s i)
  | .pitchTierUsePinned => units16 (pinnedBytes s i)
  | .pitchTierUseFlashUsed => units16 (flashUsed s i)
  | .pitchTierUseLeases => countBy (fun l => !l.lent && l.pitch == i && l.st != .asked) s.leases
  | .pitchTierPoolPoolSize => units16 (poolSize s i)
  | .pitchTierPoolPoolUsed => units16 (poolUsed s i)
  | .flashWearEraseMin => min 65535 (eraseRange s i).1
  | .flashWearEraseMax => min 65535 (eraseRange s i).2
  | .flashWearFreeZones => min 65535 (freeZones s i)
  | .pitchDeltaStatDependants => countBy (fun c => c.pitch == i && c.base.isSome) s.crates
  | .pitchDeltaStatBases => min 65535 (countBy (fun c => c.pitch == i && isBase s c.id) s.crates)
  | .fabWinUseOpen => windowsOf s i
  | .secPitchLayoutStacks => sumBy (fun k => 2 ^ k) (pitchStacks s i)
  | .secPitchLayoutGranules => dramSize s i / gib
  | _ => rd s f i

/- Who sees what (R618, R628) and the limits of confidential mode (R480, R582). -/

/-- PF0 or the sideband. (DESIGN CHOICE: log entry 15.) -/
def operator (who : Requester) : Bool := who == .fn 0 || who == .sideband

/-- The pitch that a register instance is about, for the registers that PF0 reads as 0 in confidential mode. -/
def hiddenFromPf0 (s : State) (r : Reg) (i : Nat) : Bool :=
  match r with
  | .pitchLedger | .pitchLedgerDamaged | .pitchAttendStat | .pitchAttendFault | .stallPasses | .hallReplayStat | .stallCtx
  | .stallCtxStat | .pitchSaveUse | .pitchTillWait | .pitchTillHist | .pitchTillPreempt | .pitchPrefixStat | .pitchPrefixPub
  | .pitchTierUse | .pitchTierPool | .pitchHawkStat | .flashWear | .pitchPackStat | .pitchDeltaStat | .fabWinUse => true
  | .fabConnState | .fabConnCc => !(on s .fabConnCfgService i)
  | _ => false

/-- Round down to a multiple. (DESIGN CHOICE: log entry 15.) -/
def floorTo (m v : Nat) : Nat := v / m * m

/-- What a field shows to a requester. (DESIGN CHOICE: log entries 13, 14 and 15.) -/
def shown (s : State) (who : Requester) (f : Fld) (i : Nat) : Nat :=
  let v := view s f i
  if on s .secModeConf 0 = false then v
  else if operator who && hiddenFromPf0 s f.desc.reg i then 0
  else match f with
    | .hallLocalTimeNs => floorTo 1000000 v
    | .pwrPowerInput100us | .pwrPowerInput1s | .pwrPowerStall | .pwrPowerDram => floorTo 100 (freeBits s 16)
    | .pwrStateNextEventUs => floorTo 1000 v
    | .hallCoreLastUs => if operator who then floorTo 1000 v else v
    | .errCaptureTime => floorTo 1000000 v
    | .fabConnCcBaseRtt | .fabConnCcQdelay => if operator who then floorTo 1000000 v else v
    | .fabConnStateRtoUs => if operator who then floorTo 1000 v else v
    | .pitchTillWaitWaitSum | .pitchTillWaitWaitMax | .pitchTillPreemptSaveTime => floorTo 1000000 v
    | .pitchTillHistCount =>
      let k := i % 16
      if k = 0 then sumBy (fun j => view s f (i + j)) (List.range 11) else if k ≤ 10 then 0 else v
    | _ => v

/-- The whole value of a register as a requester sees it. -/
def regValue (s : State) (who : Requester) (r : Reg) (i : Nat) : Nat :=
  r.flds.foldl (fun n f => n + 2 ^ f.desc.lo * (shown s who f i % 2 ^ f.desc.w)) 0

/-- A function other than PF0 may read a register (R618). -/
def fnReads (s : State) (fn : Nat) (r : Reg) (off i : Nat) : Bool :=
  let p := fn - 1
  if 0x2000000 ≤ off then decide ((off - 0x2000000) / 0x100000 = p) && r != .secPitchTenant
  else match r with
    | .fabConnCfg | .fabConnState | .fabConnCc =>
      on s .fabConnCfgValid i && rd s .fabConnCfgPitch i == p && !(on s .fabConnCfgService i)
    | .pciRingCfg | .pciRingAddr | .pciRingState => ringFn s i == some fn
    | .pciFnStatus | .pciChitRange | .errEvtCfg | .errEvtState => i == fn
    | .secCertBuf | .secFwCtrl => false
    | _ => decide (off < 0x600000)

/-- The sideband may read a register (R628). -/
def sidebandReads (r : Reg) (off : Nat) : Bool :=
  match r with
  | .hallCore => true
  | .secCertBuf | .errEvtCfg | .errEvtState => false
  | _ => decide (0x400000 ≤ off) && decide (off < 0x700000)

/-- A requester may read a register. (DEDUCED: log entry 16.) -/
def mayRead (s : State) (who : Requester) (r : Reg) (off i : Nat) : Bool :=
  match who with
  | .fn 0 => true
  | .fn n => fnReads s n r off i
  | .sideband => sidebandReads r off

/- Reads (R614, R615). -/

/-- The form of an access is allowed (R614): the byte within the register, and the size. (DEDUCED: log entry 16.) -/
def formOk (r : Reg) (b size : Nat) : Bool :=
  if r.width = 32 then size == 4 && b == 0 else (size == 8 && b % 8 == 0) || (size == 4 && b % 4 == 0)

/-- An access of a wrong form is logged (R614). -/
def refuseAccess (who : Requester) (s : State) : State :=
  report srcHost .refusedAccess sevContained (match who with
    | .fn (p + 1) => some p
    | _ => none) s

/-- A register with the latch of R615: wider than 64 bits, and not one of the two memories read word by word (R614). -/
def latching (r : Reg) : Bool := decide (64 < r.width) && r != .errLog && r != .secCertBuf

/-- The entry of the log ring with a number, as a requester sees it. -/
def logImage (s : State) (n : Nat) : Bytes :=
  match s.crier.log.find? (fun x => x.1 == n) with
  | some x => (if on s .secModeConf 0 then { x.2 with time := floorTo 1000000 x.2.time } else x.2).image
  | none => List.replicate 32 0

/-- The value a requester reads from a register now, and the state with the latch. -/
def latchRead (who : Requester) (r : Reg) (i b : Nat) (s : State) : Nat × State :=
  let mine := fun (x : Latch) => x.by_ == who && x.reg == r && x.idx == i
  let v := regValue s who r i
  if latching r = false then (v, s)
  else if b < 8 then
    (v, { s with latches := { by_ := who, reg := r, idx := i, value := v, at_ := s.localTime } :: drop mine s.latches })
  else match s.latches.find? mine with
    | some x => if s.localTime ≤ x.at_ + 1000000 then (x.value, s) else (v, s)
    | none => (v, s)

/-- A read of BAR0 (R613 to R615, R618). (DEDUCED: log entry 16.) -/
def readBar0 (who : Requester) (off size : Nat) (s : State) : Nat × State :=
  match regAt s off with
  | none => (0, s)
  | some (r, i, b) =>
    if formOk r b size = false then (0, refuseAccess who s)
    else if mayRead s who r off i = false then (0, s)
    else if r = .errLog then (leAt (logImage s (b / 32)) (b % 32) size, s)
    else
      let x := latchRead who r i b s
      (x.1 / 2 ^ (8 * b) % 2 ^ (8 * size), x.2)

/-- The doorbell page of a ring reads its tail and completion head (R426). -/
def readDoorbell (s : State) (fn off size : Nat) : Nat :=
  let r := off / 0x1000
  if ringFn s r ≠ some fn ∨ size ≠ 4 ∨ fabricRing s r then 0
  else if off % 0x1000 = 0 then rd s .pciRingStateTail r
  else if off % 0x1000 = 8 then compHead s r
  else 0

/-- A read of a chit page (R446). -/
def readChit (fn off size : Nat) (s : State) : Nat × State :=
  let c := (off - 0x400000) / 8
  if size = 8 ∧ off % 8 = 0 ∧ chitOwned s fn c then (chitVal s c, s) else (0, refuseAccess (.fn fn) s)

/-- A read of BAR2 (R621). (DEDUCED: log entry 17.) -/
def readBar2 (fn off size : Nat) (s : State) : Nat × State :=
  if off < 0x400000 then (readDoorbell s fn off size, s)
  else if off < 0x420000 then readChit fn off size s
  else if 0x8000000 ≤ off ∧ 0 < fn ∧ laidOut s (fn - 1) then
    let a := off - 0x8000000
    let own := fun (j : Nat) => if a + j < ringArea s (fn - 1) then Memory.read s.hall ((pitchPlan s (fn - 1)).hallBase + a + j) else 0
    (leNat ((List.range size).map own), s)
  else (0, s)

/-- Host accesses are answered: the device has left boot (R418), and a FATAL hold leaves the host port up (R520). -/
def hostAnswers (s : State) : Bool := s.phase == .running || s.phase == .fatalHold

/-- An access to BAR0 wakes the device unless the always-on domain answers it (R626). -/
def wakeFor (off : Nat) (s : State) : State :=
  if 0x500000 ≤ off ∧ off < 0x700000 then s else startWake s

/-- BAR2 follows BAR0 in the offsets of the register rows. (DEDUCED: log entry 17.) -/
def bar2 : Nat := 0x4000000

/-- The most bytes one host access moves. (DEDUCED: log entry 16.) -/
def accessMax : Nat := 64

/-- A write of a function toward the host is under way, so far as the state tells: it is held (R422, R454). -/
def dmaUnderWay (s : State) (fn : Nat) : Bool := s.dmaWait.any (fun x => x.1 == fn)

/-- A read of a register waits for more than the requester's own writes (R624): for the writes that its function, or PF0, has
under way. Entry fetches are single commands of the model, so no read waits for them. (DEDUCED: log entry 85.) -/
def readFenced (s : State) (r : Reg) (i : Nat) : Bool :=
  match r with
  | .pciHwin => dmaUnderWay s (i / 256 + 1)
  | .errEvtState => !(on s .errEvtCfgEnable i) && dmaUnderWay s i
  | .errTelemAddr => dmaUnderWay s 0
  | _ => false

/-- A function's read may complete now: its register's fence holds no more (R624), and the device is awake unless the
always-on domain answers (R626). (DEDUCED: log entry 85.) -/
def mayAnswer (s : State) (off : Nat) : Bool :=
  ((decide (0x500000 ≤ off) && decide (off < 0x700000)) || awake s)
    && (bar2 ≤ off || !((regAt s off).any (fun x => readFenced s x.1 x.2.1)))

/-- A function's read completes: the value is among the answers. -/
def completeRead (fn off n : Nat) (s : State) : State :=
  let r := if bar2 ≤ off then readBar2 fn (off - bar2) n s else readBar0 (.fn fn) off n s
  { freshen (freshen (freshen r.2)) with answers := r.2.answers ++ [(.fn fn, off, r.1)] }

/-- REGISTER_READ (R615, R623, R624, R626): a read of a function that cannot complete yet is held, in order.
(DEDUCED: log entry 85.) -/
def registerRead (who : Requester) (off size : Nat) (s : State) : State :=
  let n := min size accessMax
  match who with
  | .fn fn =>
    if hostAnswers s = false then s
    else
      let s := wakeFor off s
      if mayAnswer s off then completeRead fn off n s else { s with readsHeld := s.readsHeld ++ [(fn, off, n)] }
  | .sideband =>
    if s.power.vauxOk = false then s else
    let r := readBar0 who off n s
    { freshen (freshen (freshen r.2)) with answers := r.2.answers ++ [(who, off, r.1)] }

/-- Held reads complete where they may, in their order (R624, R626). -/
def readsGoOn (s : State) : State :=
  each s.readsHeld (fun x s => if mayAnswer s x.2.1 then completeRead x.1 x.2.1 x.2.2 s
    else { s with readsHeld := s.readsHeld ++ [x] }) { s with readsHeld := [] }

/-- The state as the sideband reads it (R628): outside P0, fields of the hall die and the SEC block stand as they did when
the device left P0. -/
def sidebandState (s : State) (off : Nat) : State :=
  if rd s .pwrStateState 0 ≠ 0 ∧ off < 0x500000 then { s with regs := s.p0Regs } else s

/-- One word of a sideband read. -/
def sidebandWord (off : Nat) (s : State) : Nat × State :=
  let r := readBar0 .sideband off 8 (sidebandState s off)
  if rd s .pwrStateState 0 ≠ 0 ∧ off < 0x500000 then (r.1, s) else r

/-- SIDEBAND_REGISTER_READ (R628): 8 to 64 B in 8 B words. (DEDUCED: log entry 16.) -/
def sidebandRead (off len : Nat) (s : State) : State :=
  if s.power.vauxOk = false then s
  else if len = 0 ∨ len % 8 ≠ 0 ∨ 64 < len then answerSideband (.registers []) s
  else
    let r := (List.range (len / 8)).foldl (fun (acc : Bytes × State) i =>
      let x := sidebandWord (off + 8 * i) acc.2
      (acc.1 ++ leBytes 8 x.1, freshen x.2)) ([], s)
    answerSideband (.registers r.1) r.2

/-- The reading of a type 2 sensor (R452, R515): 0 die temperature, 1 VIN, 2 VAUX, 3 input power, 4 power state, 5 supply
stage, 6 boot state with the step and the code at which a boot stopped. (DEDUCED: log entry 20.) -/
def sensorReading (s : State) (n : Nat) : Option Nat :=
  let see := fun (f : Fld) => some (shown s .sideband f 0)
  match n with
  | 0 => see .pwrSupplyTj
  | 1 => see .pwrSupplyVinMv
  | 2 => see .pwrSupplyVauxMv
  | 3 => see .pwrPowerInput1s
  | 4 => see .pwrStateState
  | 5 => see .pwrStageStage
  | 6 => some (rd s .secBootStage 0 + 16 * s.bootStep + 256 * rd s .secBootCode 0)
  | _ => none

/-- PLDM_PLATFORM_REQUEST (R452). A sensor the device does not have gets an answer that the specification does not lay
out. -/
def platformRequest (sensor : Nat) (s : State) : State :=
  if s.power.vauxOk = false then s else
  match sensorReading s sensor with
  | some v => answerSideband (.reading sensor v) (freshen s)
  | none => answerSideband (.other (freeBytes s (Config.length s.fresh % 256))) (freshen s)

/-- PLDM_BASE_REQUEST and PLDM_FRU_REQUEST (R452): answered with bytes that the specification does not lay out.
(DESIGN CHOICE: log entry 12.) -/
def pldmAnswer (s : State) : State :=
  if s.power.vauxOk = false then s
  else answerSideband (.other (freeBytes s (Config.length s.fresh % 256))) (freshen s)

end Sys2Proof.Machine
end

