-- ==== Sys2Proof/Machine/Run.lean ====
section
/-! DEFINITION. Fetching an entry of a ring (R427, R439), starting commands (R429, R18), and what the block does between
commands with what it holds. -/
namespace Sys2Proof.Machine

/-- What a command does when it starts. An ATTEND or a lookup that has its result and waits for a snoop writes it. -/
def runOp (c : Cmd) (s : State) : State :=
  match c.op with
  | .seqOpen => opSeqOpen c s
  | .seqClose => opSeqClose c s
  | .seqPark => opSeqPark c s
  | .seqFork => opSeqFork c s
  | .attend =>
    if s.attends.any (fun a => a.cmd == c.id) then attendResult c.id s
    else match s.forwards.find? (fun f => f.1 == c.id) with
    | some f => opForward c f.2.pitch f.2 s
    | none => opAttend c s
  | .accept => opAccept c s
  | .hintStep => opHintStep c s
  | .prefixLookup => opPrefixLookup c s
  | .prefixPublish => opPrefixPublish c s
  | .prefixDrop => opPrefixDrop c s
  | .winOpen => opWinOpen c s
  | .winRevoke => opWinRevoke c s
  | .chitSet => opChitSet c s
  | .chitAdd => opChitAdd c s
  | .chitWait => opChitWait c s
  | .pitchBind => opPitchBind c s
  | .pitchRelease => opPitchRelease c s
  | .timetableSelect => opTimetableSelect c s
  | .shaperSet => opShaperSet c s
  | .attest => opAttest c s
  | .fullReset => opFullReset c s

/-- A command of the same ring that was accepted before another. -/
def before (x c : Cmd) : Bool := x.ring == c.ring && x.ringGen == c.ringGen && decide (x.order < c.order)

/-- The command's FENCE holds it: an earlier command of its ring has not completed (R429). (DEDUCED: log entry 62.) -/
def fenceHolds (s : State) (c : Cmd) : Bool := bit (fieldOf c.entry 1 1) flagFence && s.cmds.any (fun x => before x c)

/-- The command has not started, and no chain holds it. -/
def unstarted (c : Cmd) : Bool := c.wait == .runnable || c.wait == .fenced || c.wait == .core

/-- A command may start as its ring goes (R429): no FENCE holds it, nor an earlier command that has not started.
(DEDUCED: log entry 62.) -/
def ringTurn (s : State) (c : Cmd) : Bool :=
  !(fenceHolds s c) && !(s.cmds.any (fun x => before x c && unstarted x && fenceHolds s x))

/-- A command that waits may go on now. (DEDUCED: log entry 62.) -/
def cmdReady (s : State) (c : Cmd) : Bool :=
  match c.wait with
  | .runnable | .core | .fenced => ringTurn s c && executorReady s c.op
  | .dma => match ringFn s c.ring with
    | some fn => !dmaStopped s fn
    | none => true
  | .snoop => !(s.cxlLines.any (fun x => x.snooped))
  | _ => false

/-- A command starts, or waits for its turn or its executor. -/
def tryStart (id : Nat) (s : State) : State :=
  match cmdOf s id with
  | none => s
  | some c =>
    if cmdReady s c then runOp c (startedCmd id s)
    else match c.wait with
      | .runnable => onCmd id (fun x => { x with wait := if ringTurn s c then .core else .fenced }) s
      | _ => s

/-- Commands that wait go on where they can, in order of acceptance; a completion may let others go on.
(DEDUCED: log entry 63.) -/
def startReady : Nat → State → State
  | 0, s => s
  | n + 1, s =>
    let l := sortBy (fun c => c.order) (s.cmds.filter (cmdReady s))
    if l.isEmpty then s else startReady n (each (l.map (fun c => c.id)) (fun id s => tryStart id s) s)

/-- What the block holds goes on where it can: imports, forks, parks, closes, ATTENDs, publications, ATTESTs, messages,
placements, snoops, tiers, leases, register reads and stalls. (DEDUCED: log entry 63.) -/
def goOn (s : State) : State :=
  let s := attendsGoOn (closesGoOn (parksGoOn (forksGoOn (importsDone (membersGoOn (selectsDone s))))))
  let s := heldGoOn (abandonDead (attestsGoOn (publishesGoOn s)))
  leaveQuiet (scheduleAll (readsGoOn <| resultsFollow (pedlar (recodesFollow (tidy (ledgerSnoops s))))))

/-- The block holds something that could go on: commands, sequences, crates, leases, packets, tracked lines. -/
def holdsWork (s : State) : Bool :=
  !(s.cmds.isEmpty && s.seqs.isEmpty && s.crates.isEmpty && s.attends.isEmpty && s.ctxs.isEmpty && s.unplaced.isEmpty
    && s.pubs.isEmpty && s.publishes.isEmpty && s.homes.isEmpty && s.deviceCat.isEmpty && s.catalogue.isEmpty
    && s.leases.isEmpty && s.reads.isEmpty && s.conns.isEmpty && s.cxlLines.isEmpty && s.readsHeld.isEmpty && s.releases.isEmpty
    && s.attestWait.isEmpty && s.power.move == .none)

/-- What the block does between two commands (R17, R18, R429): waiting commands start, and what is held goes on.
(DEDUCED: log entry 63.) -/
def settle (s : State) : State :=
  if running s && holdsWork s then
    let s := goOn (if awake s then startReady (s.cmds.length + 1) s else s)
    if awake s then startReady (s.cmds.length + 1) s else s
  else s

/-- A command's effect while the device runs, and what follows from it. (DEDUCED: log entry 9.) -/
def work (ok : Bool) (s : State) (f : State → State) : Out State := due ok s (fun s => settle (f s))

/-- As work, for what also happens outside the running phase. -/
def workAlways (ok : Bool) (s : State) (f : State → State) : Out State := always ok s (fun s => settle (f s))

/- Fetching (R427, R432, R439). -/

/-- A ring's engine fetches now: the ring runs, its function is not wedged and its DMA does not wait, the pitch does not
replay its catalogue (R263), the device is awake. -/
def mayFetch (s : State) (r : Nat) : Bool :=
  ringRunning s r && awake s && (match ringFn s r with
    | some fn => !(on s .pciFnStatusWedged fn) && (on s .pciRingCfgSubLoc r || !(dmaStopped s fn))
      && (fn == 0 || !(s.replaying.contains (fn - 1)))
    | none => false)

/-- An entry with its OPCODE byte. (DEDUCED: log entry 8.) -/
def withOpcode (code : Nat) (e : Entry) : Entry := BitVec.ofNat 512 (e.toNat - e.toNat % 256 + code)

/-- An entry of a BAD_OPCODE_ENTRY: an OPCODE that is in the table is taken as 0x00, which is not. (DEDUCED: log entry 8.) -/
def badOpcode (e : Entry) : Entry := if (Opcode.ofCode (fieldOf e 0 1)).isSome then withOpcode 0 e else e

/-- The entry lies in the slot: in a ring in the hall the hall says so; host memory holds what the fetch returns.
(DEDUCED: log entry 8.) (DESIGN CHOICE: log entry 7.) -/
def entryThere (s : State) (r slot : Nat) (e : Entry) : Bool :=
  !(on s .pciRingCfgSubLoc r)
    || Memory.readN s.hall (ringAreaBase s r + rd s .pciRingAddrSubAddr r + 64 * slot) 64 == entryBytes e

/-- The pitch of a ring is not bound (R439, R466). -/
def notBound (s : State) (fn : Nat) : Bool := fn != 0 && !(pitchState s (fn - 1) == 1 || pitchState s (fn - 1) == 2)

/-- The checks of R439 in order, then R466: a pitch that is AWAITING takes ATTEST only. (DEDUCED: log entry 62.) -/
def headerCheck (s : State) (op : Option Opcode) (fn : Nat) (e : Entry) : Option Status :=
  let chit := fieldOf e 4 4
  match op with
  | none => some .badOpcode
  | some o =>
    if !(if fn = 0 then o.onPf0 else o.onPitch) then some .access
    else if notBound s fn then some .closing
    else if chit ≠ noChit ∧ chitOwned s fn chit = false then some .access
    else if bits (fieldOf e 1 1) 2 6 ≠ 0 ∨ !(zeroAt e 0x0C 4) ∨ (fieldOf e 8 4 ≠ 0 ∧ bit (fieldOf e 1 1) flagChained = false) then
      some .badParam
    else if fn ≠ 0 ∧ pitchState s (fn - 1) = 1 ∧ o ≠ .attest then some .badState
    else none

/-- The result word of a command that fails is open where R437 names a word that it then has not: the others give 0.
(DESIGN CHOICE: log entry 61.) -/
def openWord (op : Option Opcode) : Bool :=
  match op with
  | none => true
  | some o => [Opcode.seqOpen, .seqFork, .accept, .prefixLookup, .winOpen, .chitSet, .chitAdd].contains o

/-- A command fails with its result word. (DESIGN CHOICE: log entry 61.) -/
def failCmd (op : Option Opcode) (id : Nat) (st : Status) (s : State) : State :=
  if openWord op then failWord id st s else complete id st 0 s

/-- The chit that the completion of an entry updates: none for a chit that its owner does not own (R439, R440), nor for an
entry accepted before the release of its pitch started (R483). (DEDUCED: log entry 60.) -/
def entryChit (s : State) (fn : Nat) (a : Accepted) (e : Entry) : Nat :=
  let chit := fieldOf e 4 4
  let stopped := fn != 0 && s.releases.any (fun x => x.pitch == fn - 1 && decide (a.order < x.startOrder))
  if stopped || !(chitOwned s fn chit) then noChit else chit

/-- The time of a release that has come since a chained entry was accepted (R445). -/
def releasedAt (s : State) (fn : Nat) (a : Accepted) (e : Entry) : Option Nat :=
  if bit (fieldOf e 1 1) flagChained = false then none else
  (s.released.find? (fun x => x.1 == fn && x.2.1 == fieldOf e 8 4 && decide (a.order < x.2.2.1))).map (fun x => x.2.2.2)

/-- A command is held by CHAINED (R435), unless a release has come since it was accepted (R445). -/
def isHeld (s : State) (fn : Nat) (a : Accepted) (e : Entry) : Bool :=
  bit (fieldOf e 1 1) flagChained && (releasedAt s fn a e).isNone

/-- A fetched entry becomes a command. -/
def cmdOfEntry (s : State) (op : Option Opcode) (r fn : Nat) (a : Accepted) (e : Entry) : Cmd :=
  { id := a.order, ring := r, ringGen := (ringOf s r).gen, order := a.order, slot := a.slot, op := op.getD .chitSet,
    tag := fieldOf e 2 2, chit := entryChit s fn a e, chain := fieldOf e 8 4, entry := e, at_ := (releasedAt s fn a e).getD a.at_, stageD := a.stageD,
    wait := if isHeld s fn a e then .chained else .runnable, inputs := [], badIn := [], members := [], peers := [], outcome := none,
    uses := none, room := none }

/-- The next accepted entry of a ring is fetched (R427), checked (R439), and starts, waits, or is held. Nothing happens
while the ring's engine does not fetch or the ring has accepted nothing more. (DEDUCED: log entry 8.) -/
def fetchEntry (op : Option Opcode) (r : Nat) (e : Entry) (s : State) : State :=
  match ringFn s r, (ringOf s r).accepted with
  | some fn, a :: rest =>
    if !(mayFetch s r) || !(entryThere s r a.slot e) then s else
    let c := cmdOfEntry s op r fn a e
    let s := onRing r (fun x => { x with accepted := rest }) { s with cmds := s.cmds ++ [c] }
    match headerCheck s op fn e with
    | some st => failCmd op c.id st (onCmd c.id (fun x => { x with wait := .started }) s)
    | none => tryStart c.id s
  | _, _ => s

/-- A row of the table that submits a command: the entry's OPCODE is the row's. (DEDUCED: log entry 8.) -/
def submit (op : Opcode) (r : Nat) (e : Entry) (s : State) : Out State :=
  work (ringOk r) s (fetchEntry (some op) r (withOpcode op.code e))

/- Commands of a stripe's lead (R76, R124). -/

/-- The commands that a lead forwards (R76, R124, R239). (DEDUCED: log entry 32.) -/
def forwardedOps : List Opcode := [.seqOpen, .seqFork, .seqPark, .seqClose, .accept, .hintStep, .attend]

/-- STRIPE_FORWARD_RECEIVE: a member runs the forwarded command on its own part of the sequence. (DEDUCED: log entry 32.) -/
def forwardArrives (q : Nat) (f : Forward) (s : State) : State :=
  let code := fieldOf f.entry 0 1
  if notBound s (f.pitch + 1) || (connBetween s f.pitch q).isNone then
    tell q (.memberDone { member := 0, status := Status.closing.code, narrow := false, layerLen := 0 }) s
  else match (Opcode.ofCode code).filter (fun o => forwardedOps.contains o) with
  | none => tell q (.memberDone { member := 0, status := Status.badOpcode.code, narrow := false, layerLen := 0 }) s
  | some op =>
    let at_ := if op = .seqFork then 0x18 else 0x10
    let own := if op = .seqOpen then fieldOf f.entry 0x26 1
      else ((seqById s f.pitch (if op = .attend then leAt f.seqEntry 0 4 else fieldOf f.entry at_ 4)).map (fun x => x.ownIndex)).getD 0
    let c : Cmd :=
      { id := s.order, ring := forwardRing q f.pitch, ringGen := 0, order := s.order, slot := 0, op := op, tag := fieldOf f.entry 2 2,
        chit := noChit, chain := 0, entry := f.entry, at_ := s.localTime, stageD := stageOn s 4, wait := .runnable, inputs := [],
        badIn := [], members := [], peers := [(own, q)], outcome := none, uses := none, room := none }
    let s := ordered { s with cmds := s.cmds ++ [c] }
    tryStart c.id (if op = .attend then { s with forwards := s.forwards ++ [(c.id, f)] } else s)

end Sys2Proof.Machine
end

