-- ==== Sys2Proof/Machine/Commands.lean ====
section
/-! DEFINITION. The commands of the rings (R437): each row is the fetch of the next accepted entry of its ring. -/
namespace Sys2Proof.Machine

/-- SEQ_OPEN (R77): a sequence is created, with or without an import. -/
def execSeqOpen (ring : Nat) (entry : Entry) (s : State) : Out State := submit .seqOpen ring entry s

/-- SEQ_CLOSE (R85): a sequence goes to CLOSING and is freed once nothing uses it. -/
def execSeqClose (ring : Nat) (entry : Entry) (s : State) : Out State := submit .seqClose ring entry s

/-- SEQ_PARK (R84): a sequence is parked once earlier ATTENDs and seals are over. -/
def execSeqPark (ring : Nat) (entry : Entry) (s : State) : Out State := submit .seqPark ring entry s

/-- SEQ_FORK (R80): a child sequence shares the pages of a parent or of a prefix result. -/
def execSeqFork (ring : Nat) (entry : Entry) (s : State) : Out State := submit .seqFork ring entry s

/-- ATTEND (R98): new k and v are appended and one layer of attention computed. -/
def execAttend (ring : Nat) (entry : Entry) (s : State) : Out State := submit .attend ring entry s

/-- ACCEPT (R68): tentative tokens are committed or discarded. -/
def execAccept (ring : Nat) (entry : Entry) (s : State) : Out State := submit .accept ring entry s

/-- HINT_STEP (R239): a sequence's next use is announced or withdrawn. -/
def execHintStep (ring : Nat) (entry : Entry) (s : State) : Out State := submit .hintStep ring entry s

/-- PREFIX_LOOKUP (R202): a chain of keys is looked up and its result written. -/
def execPrefixLookup (ring : Nat) (entry : Entry) (s : State) : Out State := submit .prefixLookup ring entry s

/-- PREFIX_PUBLISH (R214): pages of a sequence are published under their keys. -/
def execPrefixPublish (ring : Nat) (entry : Entry) (s : State) : Out State := submit .prefixPublish ring entry s

/-- PREFIX_DROP (R220): copies are removed by key, or a result slot is released. -/
def execPrefixDrop (ring : Nat) (entry : Entry) (s : State) : Out State := submit .prefixDrop ring entry s

/-- WIN_OPEN (R338): an Etlos window is opened. -/
def execWinOpen (ring : Nat) (entry : Entry) (s : State) : Out State := submit .winOpen ring entry s

/-- WIN_REVOKE (R342): a window is marked REVOKING. -/
def execWinRevoke (ring : Nat) (entry : Entry) (s : State) : Out State := submit .winRevoke ring entry s

/-- CHIT_SET (R442): a chit takes a value. -/
def execChitSet (ring : Nat) (entry : Entry) (s : State) : Out State := submit .chitSet ring entry s

/-- CHIT_ADD (R442): a value is added to a chit. -/
def execChitAdd (ring : Nat) (entry : Entry) (s : State) : Out State := submit .chitAdd ring entry s

/-- CHIT_WAIT (R444): a trigger is armed. -/
def execChitWait (ring : Nat) (entry : Entry) (s : State) : Out State := submit .chitWait ring entry s

/-- PITCH_BIND (R469): a CLEAN pitch is bound to a tenant. -/
def execPitchBind (ring : Nat) (entry : Entry) (s : State) : Out State := submit .pitchBind ring entry s

/-- PITCH_RELEASE (R483): the release of a pitch starts. -/
def execPitchRelease (ring : Nat) (entry : Entry) (s : State) : Out State := submit .pitchRelease ring entry s

/-- TIMETABLE_SELECT (R160): a timetable is chosen for the next cycle boundary. -/
def execTimetableSelect (ring : Nat) (entry : Entry) (s : State) : Out State := submit .timetableSelect ring entry s

/-- SHAPER_SET (R393): an egress queue's shaper is set. -/
def execShaperSet (ring : Nat) (entry : Entry) (s : State) : Out State := submit .shaperSet ring entry s

/-- ATTEST (R490): a certificate is asked for, or a provisioning message given. -/
def execAttest (ring : Nat) (entry : Entry) (s : State) : Out State := submit .attest ring entry s

/-- FULL_RESET (R551): a full reset starts. -/
def execFullReset (ring : Nat) (entry : Entry) (s : State) : Out State := submit .fullReset ring entry s

/-- BAD_OPCODE_ENTRY (R439): an entry whose OPCODE is not in the opcode table. -/
def execBadOpcodeEntry (ring : Nat) (entry : Entry) (s : State) : Out State :=
  work (ringOk ring) s (fetchEntry none ring (badOpcode entry))

end Sys2Proof.Machine
end

