-- ==== Sys2Proof/Machine/Etlos.lean ====
section
/-! DEFINITION. The fabric: received packets, transport timers, associations and ports (R326 to R416). -/
namespace Sys2Proof.Machine

/-- RX_WRITE (R344). A frame whose opcode is none of R329 also comes here. -/
def execRxWrite (frame : Frame) (s : State) : Out State := work frame.wf s (arrives (asWrite frame))

/-- RX_READ_REQ (R347). -/
def execRxReadReq (frame : Frame) (s : State) : Out State := work frame.wf s (arrives (asPacket opReadReq 0 frame))

/-- RX_READ_RESP (R347). -/
def execRxReadResp (frame : Frame) (s : State) : Out State := work frame.wf s (arrives (asPacket opReadResp 0 frame))

/-- RX_ACK (R355). -/
def execRxAck (frame : Frame) (s : State) : Out State := work frame.wf s (arrives (asPacket opAck 0 frame))

/-- RX_NAK (R348). -/
def execRxNak (frame : Frame) (s : State) : Out State := work frame.wf s (arrives (asPacket opNak 0 frame))

/-- RX_PROBE (R358). -/
def execRxProbe (frame : Frame) (s : State) : Out State := work frame.wf s (arrives (asPacket opCtrl 1 frame))

/-- RX_PROBE_REPLY (R360). -/
def execRxProbeReply (frame : Frame) (s : State) : Out State := work frame.wf s (arrives (asPacket opCtrl 2 frame))

/-- RX_RESYNC (R358). -/
def execRxResync (frame : Frame) (s : State) : Out State := work frame.wf s (arrives (asPacket opCtrl 3 frame))

/-- RX_RESYNC_ACK (R358). -/
def execRxResyncAck (frame : Frame) (s : State) : Out State := work frame.wf s (arrives (asPacket opCtrl 4 frame))

/-- MAC_CONTROL_FRAME (R386): a PAUSE or PFC frame is discarded and counted. -/
def execMacControlFrame (port : Nat) (s : State) : Out State := due (portOk port) s (bump .fabPortStatusMacCtrl port 1)

/-- RTO_EXPIRY (R357). -/
def execRtoExpiry (conn psn : Nat) (s : State) : Out State := work (connOk conn) s (rtoExpires conn psn)

/-- DELAYED_ACK (R356). -/
def execDelayedAck (conn : Nat) (s : State) : Out State := due (connOk conn) s (delayedAck conn)

/-- SILENCE_PROBE (R359). -/
def execSilenceProbe (peer : Nat) (s : State) : Out State := due (peerOk peer) s (silenceProbe peer)

/-- PEER_UNREACHABLE (R359). -/
def execPeerUnreachable (peer : Nat) (s : State) : Out State := work (peerOk peer) s (probeUnanswered peer)

/-- UNREACHABLE_PROBE (R360). -/
def execUnreachableProbe (peer : Nat) (s : State) : Out State := due (peerOk peer) s (unreachableProbe peer)

/-- AVOID_HOLD_EXPIRY (R385). -/
def execAvoidHoldExpiry (conn path : Nat) (s : State) : Out State := due (connOk conn) s (avoidEnds conn path)

/-- BASE_RTT_INTERVAL (R381). -/
def execBaseRttInterval (s : State) : Out State := due true s baseInterval

/-- EGRESS_FRAME_START (R388). -/
def execEgressFrameStart (port : Nat) (s : State) : Out State := due (portOk port) s (frameStart port)

/-- REKEY_START (R399 step 1). -/
def execRekeyStart (peer : Nat) (s : State) : Out State := due (peerOk peer) s (rekeyStart peer)

/-- REKEY_EXCHANGE_DONE (R399 steps 2, 3). -/
def execRekeyExchangeDone (peer : Nat) (s : State) : Out State := due (peerOk peer) s (rekeyExchanged peer)

/-- RX_INSTALLED (R399 step 4). -/
def execRxInstalled (peer : Nat) (s : State) : Out State := due (peerOk peer) s (installed peer)

/-- OLD_KEY_RETIRE (R399 steps 5, 6). -/
def execOldKeyRetire (peer : Nat) (s : State) : Out State := due (peerOk peer) s (retireOldKey peer)

/-- REKEY_TIMEOUT (R400): the exchange failed, or has passed 50 ms. -/
def execRekeyTimeout (x : RekeyEnd) (s : State) : Out State := due (peerOk x.peer) s (rekeyFails x.peer x.failed)

/-- REKEY_RETRY (R400). -/
def execRekeyRetry (peer : Nat) (s : State) : Out State := due (peerOk peer) s (rekeyRetry peer)

/-- PEER_ATTESTATION (R487). -/
def execPeerAttestation (peer : Nat) (outcome : AttestOutcome) (s : State) : Out State :=
  work (peerOk peer) s (peerAttested peer outcome)

/-- PORT_LINK_UP (R403). -/
def execPortLinkUp (port speed : Nat) (s : State) : Out State := work (portOk port) s (portUp port speed)

/-- PORT_LANE_FAIL (R404). -/
def execPortLaneFail (port lane : Nat) (s : State) : Out State :=
  work (portOk port && decide (lane < 4)) s (laneFails port lane)

/-- PORT_LINK_RETRY (R405). -/
def execPortLinkRetry (port : Nat) (s : State) : Out State := due (portOk port) s (portRetry port)

/-- PORT_RESET (R405): PF0 writes RESET of FAB_PORT_CTRL. -/
def execPortReset (fn port : Nat) (s : State) : Out State :=
  work (fnOk fn && portOk port) s (fun s => if fn = 0 then portReset port s else s)

/-- SERDES_EQ_SETTLED (R403). -/
def execSerdesEqSettled (port : Nat) (s : State) : Out State := due (portOk port) s (eqSettled port)

end Sys2Proof.Machine
end

