-- ==== Sys2Proof/Machine/Writes.lean ====
section
/-! DEFINITION. Register writes, the till snapshot, event rings, the log, captures and telemetry (R173, R569 to R592, R616,
R618). -/
namespace Sys2Proof.Machine

/- The till (R173, R183). -/

/-- A function may write PITCH_TILL_CTRL of a pitch (R618): the pitch's own, or PF0 outside confidential mode. -/
def tillAllowed (s : State) (fn p : Nat) : Bool :=
  laidOut s p && ((fn == p + 1 && writable s fn) || (fn == 0 && !(on s .secModeConf 0)))

/-- The live counters of a class go to the snapshot. -/
def snapClass (p c : Nat) (s : State) : State :=
  let t := (s.tills.find? (fun t => t.pitch == p && t.cls == c)).getD (Till.fresh p c)
  let i := 16 * p + c
  let s := wr .pitchTillWaitWaitSum i t.waitSum (wr .pitchTillWaitWaitMax i (min t.waitMax 4294967295) (wr .pitchTillWaitParts i t.parts s))
  let s := wr .pitchTillPreemptPreempts i t.preempts (wr .pitchTillPreemptBlockedSwaps i t.swaps (wr .pitchTillPreemptSaveTime i t.saveTime s))
  each (List.range 16) (fun k => wr .pitchTillHistCount (16 * i + k) (min ((t.hist[k]?).getD 0) 4294967295)) s

/-- SNAP and CLEAR, in this order. -/
def tillDo (snap clear : Bool) (p : Nat) (s : State) : State :=
  let s := if snap then each (List.range 15) (snapClass p) s else s
  if clear then { s with tills := drop (fun t => t.pitch == p) s.tills } else s

/-- A write of PITCH_TILL_CTRL. -/
def tillWrite (fn p : Nat) (snap clear : Bool) (s : State) : State :=
  if tillAllowed s fn p then tillDo snap clear p s else s

/- Event rings (R574, R589, R590, R625). -/

/-- ENABLE is set: HEAD and TAIL 0, PHASE 1. -/
def evtStart (fn : Nat) (s : State) : State :=
  let s := wr .errEvtStateHead fn 0 (wr .errEvtStateTail fn 0 (wr .errEvtStatePhase fn 1 s))
  { s with crier := { s.crier with evtUnread := setN s.crier.evtUnread fn 0 } }

/-- A write of HEAD: the entries before it are consumed. A value past what is unread consumes nothing.
(DEDUCED: log entry 19.) -/
def evtHead (fn v : Nat) (s : State) : State :=
  let size := 2 ^ rd s .errEvtCfgSizeLog2 fn
  let unread := lookupN s.crier.evtUnread fn
  let left := (rd s .errEvtStateTail fn + size - v % size) % size
  let left := if left = 0 ∧ v = rd s .errEvtStateHead fn then unread else left
  let s := wr .errEvtStateHead fn v s
  if unread < left then s else { s with crier := { s.crier with evtUnread := setN s.crier.evtUnread fn left } }

/- Captures, alarms and the log (R567, R569, R572, R583). -/

/-- The always-on domain takes a write of PF0 or of the sideband. -/
def alwaysOnWrite (who : Requester) : Bool := operator who

/-- CAPTURE_CLEAR (R569, R584): the record of a source is cleared. (DEDUCED: log entry 68.) -/
def captureClear (who : Requester) (n : Nat) (s : State) : State :=
  if alwaysOnWrite who = false ∨ sourceNamed n = false then s else
  [Fld.errCaptureValid, .errCaptureSeverity, .errCaptureOverwrote, .errCaptureCode, .errCapturePitch, .errCapturePitchValid,
   .errCaptureMore, .errCaptureBoot, .errCaptureTime, .errCaptureDetail0, .errCaptureDetail1].foldl (fun s f => wr f n 0 s) s

/-- ALERT_CLEAR (R567): not while a boot is stopped. -/
def alertClear (who : Requester) (s : State) : State :=
  if alwaysOnWrite who = false ∨ s.phase = .stopped then s else wr .errAlarmAlert 0 0 s

/-- LOG_READ_ADVANCE (R572, R583): past WRITE it is ignored and logged. (DEDUCED: log entry 19.) -/
def logReadTo (who : Requester) (v : Nat) (s : State) : State :=
  if alwaysOnWrite who = false then s
  else if logUnread s < (v % 2048 + 2048 - rd s .errLogPtrRead 0) % 2048 then report srcReset .refusedAccess sevContained none s
  else wr .errLogPtrRead 0 (v % 2048) s

/-- LOG_BUDGET_WINDOW (R573): a window of one second, aligned to whole seconds of local time, ends. (DEDUCED: log entry 68.) -/
def budgetWindow (s : State) : State :=
  let s := reach ((s.localTime / 1000000000 + 1) * 1000000000) s
  { s with crier := { s.crier with budgets := [] } }

/- Telemetry (R578, R580, R581). -/

/-- The level in effect (R535): under stage A at most 1. -/
def telemLevel (s : State) : Nat :=
  let l := rd s .errTelemCtrlLevel 0
  if on s .errTelemCtrlShed 0 then min l 1 else l

/-- The level at which a register joins the snapshots; 0 for one that does not. -/
def regLevel (r : Reg) : Nat :=
  match r with
  | .pwrSupply | .pwrPower | .pwrStage | .hallRate | .hallSealStat | .flashHealth | .flashBudget | .errSourceStat => 1
  | .fabRxStat | .fabOrderStat | .fabReliability | .hallUnpackStat | .stallPasses | .stallCtxStat => 2
  | .pitchLedger | .pitchLedgerDamaged | .pitchAttendStat | .pitchAttendFault | .pitchSaveUse | .pitchPrefixStat
  | .pitchPrefixPub | .pitchTierUse | .pitchTierPool | .pitchHawkStat | .pitchPackStat | .pitchDeltaStat | .pitchTillWait
  | .pitchTillPreempt | .pitchTillHist => 3
  | _ => 0

/-- The bytes of a row's registers, in index order. (DEDUCED: log entry 18.) -/
def rowBytes (s : State) (x : RegRow) : Bytes :=
  (List.range x.outer).flatMap (fun i => (List.range x.inner).flatMap (fun j =>
    let n := i * x.mul + j
    let off := x.base + i * x.ostride + j * x.istride
    leBytes (regBytes x.reg) (if instanceUsed s x.reg off n then regValue s (.fn 0) x.reg n else 0)))

/-- The registers of a snapshot, in the order of the address index. In confidential mode LEVEL 3 adds nothing (R582).
(DEDUCED: log entry 18.) -/
def snapshotBytes (s : State) (level : Nat) : Bytes :=
  let top := if on s .secModeConf 0 then min level 2 else level
  let rows := (deviceRows1 ++ (deviceRows2 ++ (deviceRows3 ++ pitchRows))).filter (fun x => 1 ≤ regLevel x.reg && regLevel x.reg ≤ top)
  rows.flatMap (rowBytes s)

/-- Write bytes of PF0 circularly into a buffer of a size from a position. -/
def writeCircular (addr size pos : Nat) (bs : Bytes) (s : State) : State :=
  let head := bs.take (size - pos)
  let s := hostWrite 0 (addr + pos) head s
  if bs.length ≤ size - pos then s else hostWrite 0 addr ((bs.drop (size - pos)).take size) s

/-- TELEMETRY_SNAPSHOT: the interval of LEVEL ends (R578, R580, R581). The header's 64 bytes hold the time, the level, the
number and the length; their places are not given. (DESIGN CHOICE: log entry 12.) -/
def telemetrySnapshot (begun : Bool) (s : State) : State :=
  let level := telemLevel s
  let addr := rd s .errTelemAddrTelemAddr 0
  if level = 0 ∨ !(telemRuns s) then s
  else if begun = false then bump .errTelemCtrlMissed 0 1 s
  else
    let s := { s with crier := { s.crier with snapshots := (s.crier.snapshots + 1) % 4294967296 } }
    if addr = 0 then s else
    let bs := (List.range 64).map (fun i => Config.byte s.fresh i) ++ snapshotBytes s level
    let size := 2 ^ (16 + rd s .errTelemCtrlTelemSizeLog2 0)
    let pos := s.crier.telemPos % size
    let s := writeCircular addr size pos bs (freshen (freshen (freshen s)))
    { s with crier := { s.crier with telemPos := (pos + bs.length) % size } }

/- Register writes (R612 to R618). -/

/-- Store the bits of a write that fall in a field: the write covers `n` bits from bit `lo` of the register (R616). -/
def storeBits (f : Fld) (i lo n v : Nat) (s : State) : State :=
  let d := f.desc
  let a := max lo d.lo
  let b := min (lo + n) (d.lo + d.w)
  if b ≤ a then s else
  let old := rd s f i
  let sh := a - d.lo
  wr f i (old - bits old sh (b - a) * 2 ^ sh + bits v (a - lo) (b - a) * 2 ^ sh) s

/-- Store a write into every RW field that it covers. -/
def storeFields (r : Reg) (i lo n v : Nat) (s : State) : State :=
  r.flds.foldl (fun s f => if f.desc.acc == .rw then storeBits f i lo n v s else s) s

/-- A write covers bit 0 of a register, and its value there. -/
def bit0 (lo v : Nat) : Option Bool := if lo = 0 then some (bit v 0) else none

/-- A write of PCI_RING_CFG (R424, R616). -/
def ringCfgBits (fn r lo n v : Nat) (s : State) : State :=
  let store := storeFields .pciRingCfg r lo n v
  if on s .pciRingCfgEnable r then (if bit0 lo v = some false then disableRing r (store s) else s)
  else if bit0 lo v = some true then enableRing r fn (store s)
  else store s

/-- A write of ERR_EVT_CFG (R589, R616, R625). -/
def evtCfgBits (fn lo n v : Nat) (s : State) : State :=
  let store := storeFields .errEvtCfg fn lo n v
  if on s .errEvtCfgEnable fn then (if bit0 lo v = some false then store s else s)
  else if bit0 lo v = some true then evtStart fn (store s)
  else store s

/-- An ATTEST of PF0 names a buffer (R501). -/
def certBusy (s : State) (i : Nat) : Bool :=
  s.cmds.any (fun c => c.op == .attest && (ringPitch s c.ring).isNone
    && (fieldOf c.entry 0x14 4 == i || (fieldOf c.entry 0x10 1 == 1 && fieldOf c.entry 0x20 4 == i)))

/-- A write that a function may make takes effect (R618): the fields with behaviour of their own act, the others are
stored. -/
def writeReg (fn : Nat) (r : Reg) (i lo n v : Nat) (s : State) : State :=
  match r with
  | .pciRingCfg => ringCfgBits fn i lo n v s
  | .pciRingAddr => if on s .pciRingCfgEnable i then s else storeFields r i lo n v s
  | .errEvtCfg => evtCfgBits fn lo n v s
  | .errEvtState => if lo = 0 then evtHead fn (bits v 0 14) s else s
  | .pitchTillCtrl => tillWrite fn i (bit v 0) (bit v 1) s
  | .secFwCtrl =>
    let s := if bit v 1 then fwConfirm fn s else s
    if bit v 0 then liveActivate fn s else s
  | .secCertBuf => if certBusy s i then s else storeFields r i lo n v s
  | .pwrCtrl => pwrCtrlWrite fn v s
  | .fabPortCtrl => if bit v 0 then portReset i s else s
  | .errLogPtr => if lo = 0 then logReadTo (.fn fn) (bits v 16 11) s else s
  | .errAlarm => if bit v 0 then alertClear (.fn fn) s else s
  | .errCapture => if bit0 lo v = some true then captureClear (.fn fn) i s else s
  | _ => storeFields r i lo n v s

/-- A function may write a register (R618, R626). (DEDUCED: log entry 16.) -/
def mayWrite (s : State) (fn : Nat) (r : Reg) (off i : Nat) : Bool :=
  match r with
  | .pciRingCfg | .pciRingAddr => ringFn s i == some fn && writable s fn
  | .errEvtCfg | .errEvtState => i == fn && writable s fn
  | .pitchTillCtrl => tillAllowed s fn i
  | .pciHwin => fn != 0 && i / 256 == fn - 1 && writable s fn
  | _ => fn == 0 && decide (off < 0x2000000)

/-- A write to BAR0 (R613 to R618). (DEDUCED: log entry 16.) -/
def writeBar0 (fn off size v : Nat) (s : State) : State :=
  match regAt s off with
  | none => s
  | some (r, i, b) =>
    if formOk r b size = false then refuseAccess (.fn fn) s
    else if mayWrite s fn r off i = false then s
    else writeReg fn r i (8 * b) (8 * size) (v % 2 ^ (8 * size)) s

/-- A write to BAR2 (R426, R446, R621). (DEDUCED: log entry 17.) -/
def writeBar2 (fn off size v : Nat) (s : State) : State :=
  if off < 0x400000 then
    (if size ≠ 4 then s
     else if off % 0x1000 = 0 then subTail fn (off / 0x1000) v s
     else if off % 0x1000 = 8 then compHeadTo fn (off / 0x1000) v s
     else s)
  else if off < 0x420000 then chitPageWrite fn off size v s
  else if 0x8000000 ≤ off ∧ 0 < fn ∧ laidOut s (fn - 1) then
    let a := off - 0x8000000
    let n := min size (ringArea s (fn - 1) - a)
    { s with hall := Memory.writeN s.hall ((pitchPlan s (fn - 1)).hallBase + a) (leBytes n v) }
  else s

/-- REGISTER_WRITE (R616). -/
def registerWrite (fn off size v : Nat) (s : State) : State :=
  if hostAnswers s = false then s
  else
    let n := min size accessMax
    if bar2 ≤ off then writeBar2 fn (off - bar2) n v s else writeBar0 fn off n v (wakeFor off s)

end Sys2Proof.Machine
end

