-- ==== Sys2Proof/Machine/Access.lean ====
section
/-! DEFINITION. What the rows of the host's and the supply's events share. -/
namespace Sys2Proof.Machine

/-- As work, while the device runs or is in its FATAL hold: its registers answer and its supply is watched (R520, R538). -/
def inHold (ok : Bool) (s : State) (f : State → State) : Out State :=
  always ok s (fun s => if hostAnswers s then settle (f s) else s)

/-- A written word with its bit 0 as the row has it: ENABLE. -/
def withBit0 (b v : Nat) : Nat := v / 2 * 2 + b

/-- A write of word 0 of ERR_EVT_CFG by its function (R589, R625). -/
def evtCfgWrite (fn v : Nat) (s : State) : State :=
  if hostAnswers s && writable s fn then evtCfgBits fn 0 64 v s else s

/-- Bus Master Enable of a function is written (R454): held writes go on when it is set. Until the device leaves
boot, configuration requests are retried (R418). (DEDUCED: log entry 59.) -/
def busMaster (fn : Nat) (enable : Bool) (s : State) : State :=
  if hostAnswers s = false then s else
  let s := wr .pciFnStatusBmeOff fn (b2n (!enable)) s
  if enable then dmaFlush s else s

end Sys2Proof.Machine
end

