-- ==== Sys2Proof/Machine/HostPort.lean ====
section
/-! DEFINITION. The host port: doorbells, rings, DMA, links, CXL, and the registers that functions access (R417 to R457, R612 to R628). -/
namespace Sys2Proof.Machine

/-- SUB_TAIL_WRITE (R427). -/
def execSubTailWrite (fn ring value : Nat) (s : State) : Out State :=
  work (fnOk fn && ringOk ring) s (subTail fn ring value)

/-- COMP_HEAD_WRITE (R430). -/
def execCompHeadWrite (fn ring value : Nat) (s : State) : Out State :=
  work (fnOk fn && ringOk ring) s (compHeadTo fn ring value)

/-- RING_ENABLE (R424): a write of word 0 of PCI_RING_CFG with ENABLE 1. -/
def execRingEnable (fn ring value : Nat) (s : State) : Out State :=
  work (fnOk fn && ringOk ring) s (ringCfgWrite fn ring (withBit0 1 value))

/-- RING_DISABLE (R424): a write of word 0 of PCI_RING_CFG with ENABLE 0. -/
def execRingDisable (fn ring value : Nat) (s : State) : Out State :=
  work (fnOk fn && ringOk ring) s (ringCfgWrite fn ring (withBit0 0 value))

/-- RING_FETCH_ERROR (R432). -/
def execRingFetchError (ring : Nat) (s : State) : Out State := work (ringOk ring) s (fetchError ring)

/-- DMA_TIMEOUT (R421). -/
def execDmaTimeout (fn : Nat) (s : State) : Out State := due (fnOk fn) s (dmaTimesOut fn)

/-- DMA_COMPLETER_ABORT (R421). -/
def execDmaCompleterAbort (fn : Nat) (s : State) : Out State := due (fnOk fn) s (dmaAborts fn)

/-- COAL_TIMER (R431). -/
def execCoalTimer (ring : Nat) (s : State) : Out State := due (ringOk ring) s (coalEnd ring)

/-- CHIT_HOST_WRITE (R446). -/
def execChitHostWrite (fn offset size value : Nat) (s : State) : Out State :=
  work (fnOk fn) s (chitPageWrite fn offset size value)

/-- PCIE_LINK_UP (R417): links train once PERST_N is deasserted (R530). -/
def execPcieLinkUp (half rate width cxl : Nat) (s : State) : Out State :=
  workAlways (halfOk half) s (fun s => if s.power.tileOn && !s.power.perst then linkUp half rate width cxl s else s)

/-- PCIE_SURPRISE_DOWN (R422). -/
def execPcieSurpriseDown (half : Nat) (s : State) : Out State := workAlways (halfOk half) s (surpriseDown half)

/-- PCIE_HOT_RESET (R422). -/
def execPcieHotReset (half : Nat) (s : State) : Out State := always (halfOk half) s (hotReset half)

/-- CXL_MEM_ACCESS (R448). -/
def execCxlMemAccess (access : CxlAccess) (s : State) : Out State := work (halfOk access.half) s (cxlAccess access)

/-- CXL_SNOOP_TIMEOUT (R449). -/
def execCxlSnoopTimeout (half line : Nat) (s : State) : Out State := work (halfOk half) s (snoopTimeout half line)

/-- CXL_VIRAL (R450). -/
def execCxlViral (half : Nat) (s : State) : Out State := work (halfOk half) s (viral half)

/-- CXL_BISNP_RESPONSE (R449). -/
def execCxlBisnpResponse (half line : Nat) (data : Option Bytes) (s : State) : Out State :=
  work (halfOk half) s (snoopAnswered half line data)

/-- BUS_MASTER_ENABLE_WRITE (R454). -/
def execBusMasterEnableWrite (fn : Nat) (on_ : Bool) (s : State) : Out State := workAlways (fnOk fn) s (busMaster fn on_)

/-- EVT_RING_ENABLE (R589). -/
def execEvtRingEnable (fn value : Nat) (s : State) : Out State := always (fnOk fn) s (evtCfgWrite fn (withBit0 1 value))

/-- EVT_RING_DISABLE (R625). -/
def execEvtRingDisable (fn value : Nat) (s : State) : Out State := always (fnOk fn) s (evtCfgWrite fn (withBit0 0 value))

/-- TILL_SNAP (R173). -/
def execTillSnap (fn pitch : Nat) (s : State) : Out State :=
  inHold (fnOk fn && pitchOk pitch) s (tillWrite fn pitch true false)

/-- TILL_CLEAR (R173). -/
def execTillClear (fn pitch : Nat) (snapFirst : Bool) (s : State) : Out State :=
  inHold (fnOk fn && pitchOk pitch) s (tillWrite fn pitch snapFirst true)

/-- REGISTER_WRITE (R616). -/
def execRegisterWrite (fn offset size value : Nat) (s : State) : Out State :=
  workAlways (fnOk fn) s (registerWrite fn offset size value)

/-- REGISTER_READ (R615). -/
def execRegisterRead (by_ : Requester) (offset size : Nat) (s : State) : Out State :=
  always by_.wf s (registerRead by_ offset size)

/-- SIDEBAND_REGISTER_READ (R628). -/
def execSidebandRegisterRead (offset length : Nat) (s : State) : Out State := always true s (sidebandRead offset length)

/-- CAPTURE_CLEAR (R569). -/
def execCaptureClear (by_ : Requester) (source : Nat) (s : State) : Out State :=
  always (by_.wf && sourceOk source) s (captureClear by_ source)

/-- ALERT_CLEAR (R567). -/
def execAlertClear (by_ : Requester) (s : State) : Out State := always by_.wf s (alertClear by_)

/-- LOG_READ_ADVANCE (R572). -/
def execLogReadAdvance (by_ : Requester) (read : Nat) (s : State) : Out State := always by_.wf s (logReadTo by_ read)

/-- LOG_BUDGET_WINDOW (R573). -/
def execLogBudgetWindow (s : State) : Out State := always true s budgetWindow

/-- TELEMETRY_SNAPSHOT (R578). -/
def execTelemetrySnapshot (begun : Bool) (s : State) : Out State := inHold true s (telemetrySnapshot begun)

/-- PLDM_BASE_REQUEST (R452). -/
def execPldmBaseRequest (_command : Nat) (s : State) : Out State := always true s pldmAnswer

/-- PLDM_PLATFORM_REQUEST (R452). -/
def execPldmPlatformRequest (sensor : Nat) (s : State) : Out State := always true s (platformRequest sensor)

/-- PLDM_FRU_REQUEST (R452). -/
def execPldmFruRequest (_command : Nat) (s : State) : Out State := always true s pldmAnswer

end Sys2Proof.Machine
end

