-- ==== Sys2Proof/Machine/Market.lean ====
section
/-! DEFINITION. Messages between devices: leases, the stock book, holds, code tables, stripes (R76, R194 to R224, R265 to R273, R317). -/
namespace Sys2Proof.Machine

/-- LEASE_ASK (R266): a lender receives a request of a borrower's pitch. -/
def execLeaseAsk (peer peerPitch pitch : Nat) (s : State) : Out State :=
  work (peerOk peer && pitchOk peerPitch && pitchOk pitch) s (leaseAsk peer pitch)

/-- LEASE_GRANT (R267). -/
def execLeaseGrant (peer pitch window : Nat) (s : State) : Out State :=
  work (peerOk peer && pitchOk pitch) s (leaseGranted peer pitch window)

/-- LEASE_REFUSE (R267). -/
def execLeaseRefuse (peer pitch : Nat) (s : State) : Out State :=
  work (peerOk peer && pitchOk pitch) s (leaseRefused peer pitch)

/-- LEASE_RECALL (R267 step 4). -/
def execLeaseRecall (peer window : Nat) (s : State) : Out State := work (peerOk peer) s (leaseRecalled peer window)

/-- LEASE_RELEASE (R267 step 7): a lender receives RELEASE. -/
def execLeaseRelease (lease : Nat) (s : State) : Out State := work true s (endLent lease)

/-- LEASE_RECALL_DEADLINE (R273). -/
def execLeaseRecallDeadline (lease : Nat) (s : State) : Out State := work true s (leaseDeadline lease)

/-- LEASE_RETURN (R269). -/
def execLeaseReturn (lease : Nat) (s : State) : Out State := work true s (leaseReturned lease)

/-- LEASE_BORROWER_ORPHAN (R273). -/
def execLeaseBorrowerOrphan (peer : Nat) (s : State) : Out State := work (peerOk peer) s (borrowerOrphan peer)

/-- RECALL_DROP (R485): a lender receives it. -/
def execRecallDrop (lease : Nat) (s : State) : Out State := work true s (recallDrop lease)

/-- RECALL_DROP_CONFIRM (R483 step 6). -/
def execRecallDropConfirm (lease : Nat) (s : State) : Out State := work true s (recallDropConfirmed lease)

/-- RECALL_DROP_TIMEOUT (R485). -/
def execRecallDropTimeout (lease : Nat) (s : State) : Out State := work true s (recallDropTimeout lease)

/-- STOCK_PROBE (R194). -/
def execStockProbe (peer epoch scope : Nat) (key : Bytes) (s : State) : Out State :=
  due (peerOk peer) s (stockProbe peer epoch scope key)

/-- STOCK_PROBE_ANSWER (R202). -/
def execStockProbeAnswer (cmd page : Nat) (entry : Option StockEntry) (s : State) : Out State :=
  work true s (probeAnswered cmd page entry)

/-- STOCK_INSERT (R215). -/
def execStockInsert (peer epoch : Nat) (entry : StockEntry) (copy : Copy) (s : State) : Out State :=
  work (peerOk peer) s (stockInsert peer epoch entry copy)

/-- STOCK_INSERT_ANSWER (R214). -/
def execStockInsertAnswer (record : Nat) (answer : InsertAnswer) (s : State) : Out State :=
  work true s (stockInsertAnswer record answer)

/-- STOCK_DROP (R220). -/
def execStockDrop (peer epoch scope : Nat) (key : Bytes) (h : Holder) (s : State) : Out State :=
  work (peerOk peer && pitchOk h.pitch) s (stockDrop peer epoch scope key h.device h.pitch)

/-- STOCK_DROP_ANSWER (R220). -/
def execStockDropAnswer (cmd index : Nat) (busy : Bool) (s : State) : Out State :=
  work true s (dropAnswered cmd index busy)

/-- STOCK_DURABLE_MARK (R214). -/
def execStockDurableMark (scope : Nat) (key : Bytes) (device pitch : Nat) (s : State) : Out State :=
  work (pitchOk pitch) s (durableMarked scope key device pitch)

/-- REPLICA_PUSH (R199). -/
def execReplicaPush (entry : StockEntry) (s : State) : Out State := due true s (replicaPushed entry)

/-- REPLICA_HIT_REPORT (R200): this device's report is due, or a report is received. -/
def execReplicaHitReport (received : Option (List (Nat × Bytes × Nat))) (s : State) : Out State :=
  due true s (hitReport received)

/-- POP_HALVING (R200). -/
def execPopHalving (s : State) : Out State := due true s popHalving

/-- INSERT_RETRY (R195). -/
def execInsertRetry (record : Nat) (s : State) : Out State := work true s (insertRetry record)

/-- ORPHAN_RELEASE (R210). -/
def execOrphanRelease (peer : Nat) (s : State) : Out State := work (peerOk peer) s (orphanRelease peer)

/-- HOLD_REQUEST (R203). -/
def execHoldRequest (peer pitch record : Nat) (s : State) : Out State :=
  work (peerOk peer && pitchOk pitch) s (holdRequested peer pitch record)

/-- HOLD_ANSWER (R203). -/
def execHoldAnswer (cmd page : Nat) (handles : Option (List Nat)) (s : State) : Out State :=
  work true s (holdAnswered cmd page handles)

/-- TABLE_FETCH_REQUEST (R317). -/
def execTableFetchRequest (peer fingerprint : Nat) (s : State) : Out State :=
  due (peerOk peer) s (tableRequested peer fingerprint)

/-- TABLE_FETCH_ANSWER (R317). -/
def execTableFetchAnswer (crate fingerprint : Nat) (lengths : Option (List Nat)) (s : State) : Out State :=
  work true s (tableAnswered crate fingerprint lengths)

/-- STRIPE_FORWARD_RECEIVE (R124, R76). -/
def execStripeForwardReceive (peer : Nat) (fwd : Forward) (s : State) : Out State :=
  work (peerOk peer) s (forwardArrives peer fwd)

/-- STRIPE_PARTIAL_RECEIVE (R127). -/
def execStripePartialReceive (cmd part member : Nat) (rows : List PartialRow) (narrow : Bool) (s : State) : Out State :=
  work true s (stripePartial cmd part member rows narrow)

/-- STRIPE_MEMBER_COMPLETE (R76). -/
def execStripeMemberComplete (cmd part : Nat) (done : MemberDone) (s : State) : Out State :=
  work true s (stripeMember cmd part done)

/-- REMOTE_HOLD_RELEASE (R209). -/
def execRemoteHoldRelease (peer pitch record : Nat) (s : State) : Out State :=
  work (peerOk peer && pitchOk pitch) s (holdReleased peer pitch record)

/-- REPLICA_WITHDRAW (R199). -/
def execReplicaWithdraw (scope : Nat) (key : Bytes) (s : State) : Out State := due true s (replicaWithdrawn scope key)

end Sys2Proof.Machine
end

