-- ==== Sys2Proof/Machine/Progress.lean ====
section
/-! DEFINITION. What a command or an engine of the block comes to (R71, R126, R152, R342, R444, R483, R240 to R310). -/
namespace Sys2Proof.Machine

/-- WIN_REVOKE_DONE (R342): what had passed its check before the mark has drained. -/
def execWinRevokeDone (index : Nat) (s : State) : Out State := work (windowOk index) s (winRevokeDone index)

/-- CHIT_DEADLINE (R444): DEADLINE_US of an armed CHIT_WAIT has passed. -/
def execChitDeadline (cmd : Nat) (s : State) : Out State := work true s (chitDeadline cmd)

/-- RELEASE_DRAIN_DONE (R483 step 2). -/
def execReleaseDrainDone (pitch : Nat) (s : State) : Out State := work (pitchOk pitch) s (releaseDrained pitch)

/-- PITCH_SCRUB_DONE (R484). -/
def execPitchScrubDone (pitch : Nat) (s : State) : Out State := work (pitchOk pitch) s (scrubDone pitch)

/-- PITCH_CLEAN (R483 step 7). -/
def execPitchClean (pitch : Nat) (s : State) : Out State := work (pitchOk pitch) s (pitchCleaned pitch)

/-- SEAL_CRATE_WRITTEN (R71 steps 2 to 5, R74). -/
def execSealCrateWritten (d : DoneRead) (s : State) : Out State :=
  work d.read.wf s (sealCrateWritten d.id d.read)

/-- SEAL_SWAP (R71 step 6). -/
def execSealSwap (sealId : Nat) (s : State) : Out State := work true s (sealSwap sealId)

/-- TILE_BOUNDARY (R152): a pass over one KV head of a tile ends. -/
def execTileBoundary (stall : Nat) (obs : TileObs) (s : State) : Out State :=
  work (stallOk stall && obs.read.wf) s (tileBoundary stall obs)

/-- RUN_COMPLETE (R126). -/
def execRunComplete (stall : Nat) (s : State) : Out State := work (stallOk stall) s (runComplete stall)

/-- ATTEND_RESULT (R100). -/
def execAttendResult (cmd : Nat) (s : State) : Out State := work true s (attendResult cmd)

/-- CONTEXT_SAVE_DONE (R163). -/
def execContextSaveDone (ctx : Nat) (s : State) : Out State := work true s (contextSaved ctx)

/-- CONTEXT_RESTORE_DONE (R165). -/
def execContextRestoreDone (ctx : Nat) (readable : Bool) (s : State) : Out State :=
  work true s (contextRestored ctx readable)

/-- SLOT_BOUNDARY (R157). -/
def execSlotBoundary (s : State) : Out State := work true s slotBoundary

/-- GRACE_EXPIRY (R157). -/
def execGraceExpiry (stall : Nat) (s : State) : Out State := work (stallOk stall) s (graceExpiry stall)

/-- STALL_FAIL (R169). -/
def execStallFail (stall : Nat) (s : State) : Out State := work (stallOk stall) s (stallFail stall)

/-- FETCH_SCHEDULE_START (R240). -/
def execFetchScheduleStart (seq : Nat) (s : State) : Out State := work true s (scheduleFetches seq)

/-- FETCH_DONE (R245). -/
def execFetchDone (crate : Nat) (read : ReadResult) (s : State) : Out State := work read.wf s (fetchDone crate read)

/-- EVICTION_COPY_DONE (R254). -/
def execEvictionCopyDone (crate : Nat) (read : ReadResult) (s : State) : Out State :=
  work read.wf s (evictionCopyDone crate read)

/-- PROMOTION_DONE (R237). -/
def execPromotionDone (d : DoneRead) (s : State) : Out State := work d.read.wf s (promotionDone d.id d.read)

/-- RECODE_DONE (R308). -/
def execRecodeDone (d : RecodeRead) (s : State) : Out State :=
  work (d.read.wf && d.base.wf) s (recodeDone d.crate d.read d.base)

/-- REBASE_DONE (R310). -/
def execRebaseDone (d : DoneRead) (s : State) : Out State := work d.read.wf s (rebaseDone d.id d.read)

/-- FLASH_COPY_WRITTEN (R255). -/
def execFlashCopyWritten (crate : Nat) (read : ReadResult) (s : State) : Out State :=
  work read.wf s (flashCopyWritten crate read)

/-- GC_ZONE_DONE (R259). -/
def execGcZoneDone (pitch zone : Nat) (lost : List Nat) (s : State) : Out State :=
  work (pitchOk pitch) s (gcZoneDone pitch zone lost)

/-- CATALOGUE_REPLAY_DONE (R264). -/
def execCatalogueReplayDone (pitch ms : Nat) (failed : List (Nat × Nat × Nat)) (s : State) : Out State :=
  work (pitchOk pitch) s (replayDone pitch ms failed)

end Sys2Proof.Machine
end

