-- ==== Sys2Proof/Machine/Service.lean ====
section
/-! DEFINITION. Attestation timers, boot, stallholders, firmware, supply, power states and clocks (R490 to R562, R599, R606). -/
namespace Sys2Proof.Machine

/-- SESSION_KEY_EXPIRY (R491). -/
def execSessionKeyExpiry (scope : Nat) (s : State) : Out State := due true s (sessionExpires scope)

/-- ATTEST_BUSY_TIMEOUT (R494). -/
def execAttestBusyTimeout (cmd : Nat) (s : State) : Out State := work true s (attestBusy cmd)

/-- BOOT (R511). -/
def execBoot (env : BootEnv) (s : State) : Out State := workAlways true s (boot env)

/-- CORE_WATCHDOG (R517). -/
def execCoreWatchdog (core : Nat) (s : State) : Out State := work (coreOk core) s (coreFails core 1)

/-- CORE_EXCEPTION (R517). -/
def execCoreException (core : Nat) (s : State) : Out State := work (coreOk core) s (coreFails core 2)

/-- CORE_SRAM_ERROR (R517). -/
def execCoreSramError (core : Nat) (s : State) : Out State := work (coreOk core) s (coreFails core 3)

/-- CORE_READY (R517 step 4). -/
def execCoreReady (core : Nat) (s : State) : Out State := work (coreOk core) s (coreReady core)

/-- CORE_READY_TIMEOUT (R520). -/
def execCoreReadyTimeout (core : Nat) (s : State) : Out State := work (coreOk core) s (coreLate core)

/-- FATAL_HOLD_EXPIRY (R520). -/
def execFatalHoldExpiry (s : State) : Out State := always true s holdExpires

/-- TRIAL_CONFIRM_TIMER (R522). -/
def execTrialConfirmTimer (s : State) : Out State := due true s trialTimer

/-- FW_CONFIRM (R522). -/
def execFwConfirm (fn : Nat) (s : State) : Out State := due (fnOk fn) s (fwConfirm fn)

/-- LIVE_ACTIVATE (R523). -/
def execLiveActivate (fn : Nat) (s : State) : Out State := due (fnOk fn) s (liveActivate fn)

/-- LIVE_COPY_DONE (R523). -/
def execLiveCopyDone (verified : Bool) (s : State) : Out State := work true s (liveCopied verified)

/-- LIVE_ACTIVATION_TIMEOUT (R523). -/
def execLiveActivationTimeout (core : Nat) (s : State) : Out State := work (coreOk core) s (activationLate core)

/-- ABTOSER_FAULT (R520). -/
def execAbtoserFault (s : State) : Out State := due true s abtoserFails

/-- PLDM_FW_COMPONENT (R522). -/
def execPldmFwComponent (image : Image) (s : State) : Out State := always true s (fwComponent image)

/-- PLDM_ACTIVATE_FIRMWARE (R550). -/
def execPldmActivateFirmware (selfContained : Bool) (s : State) : Out State :=
  always true s (activateFirmware selfContained)

/-- POWER_ON (R530). -/
def execPowerOn (s : State) : Out State := always true s powerOn

/-- TILE_START (R530). -/
def execTileStart (s : State) : Out State := always true s tileStart

/-- VAUX_FAIL (R531). -/
def execVauxFail (s : State) : Out State := always true s vauxFail

/-- PERST_ASSERT (R550). -/
def execPerstAssert (s : State) : Out State := always true s perstAssert

/-- PERST_DEASSERT (R530). -/
def execPerstDeassert (straps : Nat) (s : State) : Out State := always true s (perstDeassert straps)

/-- SUPPLY_STAGE_ENTER (R534). -/
def execSupplyStageEnter (stage vinMv : Nat) (s : State) : Out State := inHold (stageOk stage) s (stageEnter stage vinMv)

/-- SUPPLY_STAGE_END (R536). -/
def execSupplyStageEnd (stage vinMv : Nat) (s : State) : Out State := inHold (stageOk stage) s (fun s => resumePushes (endStage stage vinMv s))

/-- SUPPLY_RESET (R537). -/
def execSupplyReset (high : Bool) (s : State) : Out State := always true s (supplyReset high)

/-- POWER_CAP_ACTION (R540). -/
def execPowerCapAction (measure : PowerMeasure) (input100us input1s stall : Nat) (s : State) : Out State :=
  inHold true s (powerCap measure input100us input1s stall)

/-- POWER_CAP_RELEASE (R540). -/
def execPowerCapRelease (s : State) : Out State := inHold true s capRelease

/-- THERMAL_STEP (R24). -/
def execThermalStep (tj : Nat) (s : State) : Out State := inHold true s (thermalStep tj)

/-- THERMAL_RECOVER (R541). -/
def execThermalRecover (tj : Nat) (s : State) : Out State := inHold true s (thermalRecover tj)

/-- THERMAL_TRIP (R541). -/
def execThermalTrip (tj : Nat) (s : State) : Out State := always true s (thermalTrip tj)

/-- THERMAL_TRIP_RELEASE (R541). -/
def execThermalTripRelease (s : State) : Out State := always true s tripRelease

/-- DEVICE_QUIET (R546). -/
def execDeviceQuiet (s : State) : Out State := due true s deviceQuiet

/-- QUIET_IDLE_TIMER (R546). -/
def execQuietIdleTimer (s : State) : Out State := due true s quietTimer

/-- POWER_STATE_ENTRY_DONE (R542). -/
def execPowerStateEntryDone (s : State) : Out State := due true s entryDone

/-- KNOWN_EVENT_WAKE (R546). -/
def execKnownEventWake (s : State) : Out State := due true s eventWake

/-- P3_POLL_WAKE (R547). -/
def execP3PollWake (s : State) : Out State := due true s pollWake

/-- P3_POLL_HOLD_END (R547). -/
def execP3PollHoldEnd (s : State) : Out State := due true s pollHoldEnds

/-- WAKE_ARRIVAL (R548). -/
def execWakeArrival (arrival : Arrival) (s : State) : Out State := work arrival.wf s (wakeArrival arrival)

/-- WAKE_DONE (R548). -/
def execWakeDone (s : State) : Out State := work true s wakeDone

/-- PWR_CTRL_WRITE (R559). -/
def execPwrCtrlWrite (fn value : Nat) (s : State) : Out State := inHold (fnOk fn) s (pwrCtrlWrite fn value)

/-- SREFCLK_LOSS (R606). -/
def execSrefclkLoss (s : State) : Out State := work true s srefLost

/-- AUXCLK_LOSS (R606). -/
def execAuxclkLoss (s : State) : Out State := inHold true s auxLost

/-- HREFCLK_LOSS (R606). -/
def execHrefclkLoss (half : Nat) (s : State) : Out State := workAlways (halfOk half) s (hrefLost half)

/-- ONFI_VCCQ_OVERCURRENT (R599). -/
def execOnfiVccqOvercurrent (s : State) : Out State := inHold true s onfiOvercurrent

end Sys2Proof.Machine
end

