-- ==== Sys2Proof/Machine/Dispatch.lean ====
section
/-! DEFINITION. What each command does: one arm per row of spec/opcode_table.json. -/
namespace Sys2Proof.Machine

def exec (i : Instr) (s : State) : Host.Outcome State Fault Refusal :=
  match i with
  | .seqOpen ring entry => Sys2Proof.Machine.execSeqOpen ring entry s
  | .seqClose ring entry => Sys2Proof.Machine.execSeqClose ring entry s
  | .seqPark ring entry => Sys2Proof.Machine.execSeqPark ring entry s
  | .seqFork ring entry => Sys2Proof.Machine.execSeqFork ring entry s
  | .attend ring entry => Sys2Proof.Machine.execAttend ring entry s
  | .accept ring entry => Sys2Proof.Machine.execAccept ring entry s
  | .hintStep ring entry => Sys2Proof.Machine.execHintStep ring entry s
  | .prefixLookup ring entry => Sys2Proof.Machine.execPrefixLookup ring entry s
  | .prefixPublish ring entry => Sys2Proof.Machine.execPrefixPublish ring entry s
  | .prefixDrop ring entry => Sys2Proof.Machine.execPrefixDrop ring entry s
  | .winOpen ring entry => Sys2Proof.Machine.execWinOpen ring entry s
  | .winRevoke ring entry => Sys2Proof.Machine.execWinRevoke ring entry s
  | .winRevokeDone index => Sys2Proof.Machine.execWinRevokeDone index s
  | .chitSet ring entry => Sys2Proof.Machine.execChitSet ring entry s
  | .chitAdd ring entry => Sys2Proof.Machine.execChitAdd ring entry s
  | .chitWait ring entry => Sys2Proof.Machine.execChitWait ring entry s
  | .chitDeadline cmd => Sys2Proof.Machine.execChitDeadline cmd s
  | .pitchBind ring entry => Sys2Proof.Machine.execPitchBind ring entry s
  | .pitchRelease ring entry => Sys2Proof.Machine.execPitchRelease ring entry s
  | .releaseDrainDone pitch => Sys2Proof.Machine.execReleaseDrainDone pitch s
  | .pitchScrubDone pitch => Sys2Proof.Machine.execPitchScrubDone pitch s
  | .pitchClean pitch => Sys2Proof.Machine.execPitchClean pitch s
  | .timetableSelect ring entry => Sys2Proof.Machine.execTimetableSelect ring entry s
  | .shaperSet ring entry => Sys2Proof.Machine.execShaperSet ring entry s
  | .attest ring entry => Sys2Proof.Machine.execAttest ring entry s
  | .fullReset ring entry => Sys2Proof.Machine.execFullReset ring entry s
  | .badOpcodeEntry ring entry => Sys2Proof.Machine.execBadOpcodeEntry ring entry s
  | .sealCrateWritten done => Sys2Proof.Machine.execSealCrateWritten done s
  | .sealSwap sealId => Sys2Proof.Machine.execSealSwap sealId s
  | .tileBoundary stall obs => Sys2Proof.Machine.execTileBoundary stall obs s
  | .runComplete stall => Sys2Proof.Machine.execRunComplete stall s
  | .attendResult cmd => Sys2Proof.Machine.execAttendResult cmd s
  | .contextSaveDone ctx => Sys2Proof.Machine.execContextSaveDone ctx s
  | .contextRestoreDone ctx readable => Sys2Proof.Machine.execContextRestoreDone ctx readable s
  | .slotBoundary => Sys2Proof.Machine.execSlotBoundary s
  | .graceExpiry stall => Sys2Proof.Machine.execGraceExpiry stall s
  | .stallFail stall => Sys2Proof.Machine.execStallFail stall s
  | .fetchScheduleStart seq => Sys2Proof.Machine.execFetchScheduleStart seq s
  | .fetchDone crate read => Sys2Proof.Machine.execFetchDone crate read s
  | .evictionCopyDone crate read => Sys2Proof.Machine.execEvictionCopyDone crate read s
  | .promotionDone done => Sys2Proof.Machine.execPromotionDone done s
  | .recodeDone done => Sys2Proof.Machine.execRecodeDone done s
  | .rebaseDone done => Sys2Proof.Machine.execRebaseDone done s
  | .flashCopyWritten crate read => Sys2Proof.Machine.execFlashCopyWritten crate read s
  | .gcZoneDone pitch zone lost => Sys2Proof.Machine.execGcZoneDone pitch zone lost s
  | .catalogueReplayDone pitch ms failed => Sys2Proof.Machine.execCatalogueReplayDone pitch ms failed s
  | .leaseAsk peer peerPitch pitch => Sys2Proof.Machine.execLeaseAsk peer peerPitch pitch s
  | .leaseGrant peer pitch window => Sys2Proof.Machine.execLeaseGrant peer pitch window s
  | .leaseRefuse peer pitch => Sys2Proof.Machine.execLeaseRefuse peer pitch s
  | .leaseRecall peer window => Sys2Proof.Machine.execLeaseRecall peer window s
  | .leaseRelease lease => Sys2Proof.Machine.execLeaseRelease lease s
  | .leaseRecallDeadline lease => Sys2Proof.Machine.execLeaseRecallDeadline lease s
  | .leaseReturn lease => Sys2Proof.Machine.execLeaseReturn lease s
  | .leaseBorrowerOrphan peer => Sys2Proof.Machine.execLeaseBorrowerOrphan peer s
  | .recallDrop lease => Sys2Proof.Machine.execRecallDrop lease s
  | .recallDropConfirm lease => Sys2Proof.Machine.execRecallDropConfirm lease s
  | .recallDropTimeout lease => Sys2Proof.Machine.execRecallDropTimeout lease s
  | .stockProbe peer epoch scope key => Sys2Proof.Machine.execStockProbe peer epoch scope key s
  | .stockProbeAnswer cmd page entry => Sys2Proof.Machine.execStockProbeAnswer cmd page entry s
  | .stockInsert peer epoch entry copy => Sys2Proof.Machine.execStockInsert peer epoch entry copy s
  | .stockInsertAnswer record answer => Sys2Proof.Machine.execStockInsertAnswer record answer s
  | .stockDrop peer epoch scope key holder => Sys2Proof.Machine.execStockDrop peer epoch scope key holder s
  | .stockDropAnswer cmd index busy => Sys2Proof.Machine.execStockDropAnswer cmd index busy s
  | .stockDurableMark scope key device pitch => Sys2Proof.Machine.execStockDurableMark scope key device pitch s
  | .replicaPush entry => Sys2Proof.Machine.execReplicaPush entry s
  | .replicaHitReport received => Sys2Proof.Machine.execReplicaHitReport received s
  | .popHalving => Sys2Proof.Machine.execPopHalving s
  | .insertRetry record => Sys2Proof.Machine.execInsertRetry record s
  | .orphanRelease peer => Sys2Proof.Machine.execOrphanRelease peer s
  | .holdRequest peer pitch record => Sys2Proof.Machine.execHoldRequest peer pitch record s
  | .holdAnswer cmd page handles => Sys2Proof.Machine.execHoldAnswer cmd page handles s
  | .tableFetchRequest peer fingerprint => Sys2Proof.Machine.execTableFetchRequest peer fingerprint s
  | .tableFetchAnswer crate fingerprint lengths => Sys2Proof.Machine.execTableFetchAnswer crate fingerprint lengths s
  | .stripeForwardReceive peer fwd => Sys2Proof.Machine.execStripeForwardReceive peer fwd s
  | .stripePartialReceive cmd part member rows narrow => Sys2Proof.Machine.execStripePartialReceive cmd part member rows narrow s
  | .stripeMemberComplete cmd part done => Sys2Proof.Machine.execStripeMemberComplete cmd part done s
  | .rxWrite f => Sys2Proof.Machine.execRxWrite f s
  | .rxReadReq f => Sys2Proof.Machine.execRxReadReq f s
  | .rxReadResp f => Sys2Proof.Machine.execRxReadResp f s
  | .rxAck f => Sys2Proof.Machine.execRxAck f s
  | .rxNak f => Sys2Proof.Machine.execRxNak f s
  | .rxProbe f => Sys2Proof.Machine.execRxProbe f s
  | .rxProbeReply f => Sys2Proof.Machine.execRxProbeReply f s
  | .rxResync f => Sys2Proof.Machine.execRxResync f s
  | .rxResyncAck f => Sys2Proof.Machine.execRxResyncAck f s
  | .macControlFrame port => Sys2Proof.Machine.execMacControlFrame port s
  | .rtoExpiry conn psn => Sys2Proof.Machine.execRtoExpiry conn psn s
  | .delayedAck conn => Sys2Proof.Machine.execDelayedAck conn s
  | .silenceProbe peer => Sys2Proof.Machine.execSilenceProbe peer s
  | .peerUnreachable peer => Sys2Proof.Machine.execPeerUnreachable peer s
  | .unreachableProbe peer => Sys2Proof.Machine.execUnreachableProbe peer s
  | .avoidHoldExpiry conn path => Sys2Proof.Machine.execAvoidHoldExpiry conn path s
  | .baseRttInterval => Sys2Proof.Machine.execBaseRttInterval s
  | .egressFrameStart port => Sys2Proof.Machine.execEgressFrameStart port s
  | .rekeyStart peer => Sys2Proof.Machine.execRekeyStart peer s
  | .rekeyExchangeDone peer => Sys2Proof.Machine.execRekeyExchangeDone peer s
  | .rxInstalled peer => Sys2Proof.Machine.execRxInstalled peer s
  | .oldKeyRetire peer => Sys2Proof.Machine.execOldKeyRetire peer s
  | .rekeyTimeout outcome => Sys2Proof.Machine.execRekeyTimeout outcome s
  | .rekeyRetry peer => Sys2Proof.Machine.execRekeyRetry peer s
  | .peerAttestation peer outcome => Sys2Proof.Machine.execPeerAttestation peer outcome s
  | .portLinkUp port speed => Sys2Proof.Machine.execPortLinkUp port speed s
  | .portLaneFail port lane => Sys2Proof.Machine.execPortLaneFail port lane s
  | .portLinkRetry port => Sys2Proof.Machine.execPortLinkRetry port s
  | .portReset fn port => Sys2Proof.Machine.execPortReset fn port s
  | .subTailWrite fn ring value => Sys2Proof.Machine.execSubTailWrite fn ring value s
  | .compHeadWrite fn ring value => Sys2Proof.Machine.execCompHeadWrite fn ring value s
  | .ringEnable fn ring value => Sys2Proof.Machine.execRingEnable fn ring value s
  | .ringDisable fn ring value => Sys2Proof.Machine.execRingDisable fn ring value s
  | .ringFetchError ring => Sys2Proof.Machine.execRingFetchError ring s
  | .dmaTimeout fn => Sys2Proof.Machine.execDmaTimeout fn s
  | .dmaCompleterAbort fn => Sys2Proof.Machine.execDmaCompleterAbort fn s
  | .coalTimer ring => Sys2Proof.Machine.execCoalTimer ring s
  | .chitHostWrite fn offset size value => Sys2Proof.Machine.execChitHostWrite fn offset size value s
  | .pcieLinkUp half rate width cxl => Sys2Proof.Machine.execPcieLinkUp half rate width cxl s
  | .pcieSurpriseDown half => Sys2Proof.Machine.execPcieSurpriseDown half s
  | .pcieHotReset half => Sys2Proof.Machine.execPcieHotReset half s
  | .perstAssert => Sys2Proof.Machine.execPerstAssert s
  | .perstDeassert straps => Sys2Proof.Machine.execPerstDeassert straps s
  | .cxlMemAccess access => Sys2Proof.Machine.execCxlMemAccess access s
  | .cxlSnoopTimeout half line => Sys2Proof.Machine.execCxlSnoopTimeout half line s
  | .cxlViral half => Sys2Proof.Machine.execCxlViral half s
  | .sessionKeyExpiry scope => Sys2Proof.Machine.execSessionKeyExpiry scope s
  | .attestBusyTimeout cmd => Sys2Proof.Machine.execAttestBusyTimeout cmd s
  | .boot env => Sys2Proof.Machine.execBoot env s
  | .coreWatchdog core => Sys2Proof.Machine.execCoreWatchdog core s
  | .coreException core => Sys2Proof.Machine.execCoreException core s
  | .coreSramError core => Sys2Proof.Machine.execCoreSramError core s
  | .coreReady core => Sys2Proof.Machine.execCoreReady core s
  | .coreReadyTimeout core => Sys2Proof.Machine.execCoreReadyTimeout core s
  | .fatalHoldExpiry => Sys2Proof.Machine.execFatalHoldExpiry s
  | .trialConfirmTimer => Sys2Proof.Machine.execTrialConfirmTimer s
  | .fwConfirm fn => Sys2Proof.Machine.execFwConfirm fn s
  | .liveActivate fn => Sys2Proof.Machine.execLiveActivate fn s
  | .liveCopyDone verified => Sys2Proof.Machine.execLiveCopyDone verified s
  | .pldmFwComponent image => Sys2Proof.Machine.execPldmFwComponent image s
  | .pldmActivateFirmware selfContained => Sys2Proof.Machine.execPldmActivateFirmware selfContained s
  | .pldmBaseRequest command => Sys2Proof.Machine.execPldmBaseRequest command s
  | .pldmPlatformRequest sensor => Sys2Proof.Machine.execPldmPlatformRequest sensor s
  | .pldmFruRequest command => Sys2Proof.Machine.execPldmFruRequest command s
  | .sidebandRegisterRead offset length => Sys2Proof.Machine.execSidebandRegisterRead offset length s
  | .powerOn => Sys2Proof.Machine.execPowerOn s
  | .tileStart => Sys2Proof.Machine.execTileStart s
  | .vauxFail => Sys2Proof.Machine.execVauxFail s
  | .supplyStageEnter stage vinMv => Sys2Proof.Machine.execSupplyStageEnter stage vinMv s
  | .supplyStageEnd stage vinMv => Sys2Proof.Machine.execSupplyStageEnd stage vinMv s
  | .supplyReset high => Sys2Proof.Machine.execSupplyReset high s
  | .powerCapAction measure input100us input1s stall => Sys2Proof.Machine.execPowerCapAction measure input100us input1s stall s
  | .powerCapRelease => Sys2Proof.Machine.execPowerCapRelease s
  | .thermalStep tj => Sys2Proof.Machine.execThermalStep tj s
  | .thermalRecover tj => Sys2Proof.Machine.execThermalRecover tj s
  | .thermalTrip tj => Sys2Proof.Machine.execThermalTrip tj s
  | .thermalTripRelease => Sys2Proof.Machine.execThermalTripRelease s
  | .deviceQuiet => Sys2Proof.Machine.execDeviceQuiet s
  | .quietIdleTimer => Sys2Proof.Machine.execQuietIdleTimer s
  | .powerStateEntryDone => Sys2Proof.Machine.execPowerStateEntryDone s
  | .knownEventWake => Sys2Proof.Machine.execKnownEventWake s
  | .p3PollWake => Sys2Proof.Machine.execP3PollWake s
  | .p3PollHoldEnd => Sys2Proof.Machine.execP3PollHoldEnd s
  | .wakeArrival arrival => Sys2Proof.Machine.execWakeArrival arrival s
  | .wakeDone => Sys2Proof.Machine.execWakeDone s
  | .pwrCtrlWrite fn value => Sys2Proof.Machine.execPwrCtrlWrite fn value s
  | .srefclkLoss => Sys2Proof.Machine.execSrefclkLoss s
  | .auxclkLoss => Sys2Proof.Machine.execAuxclkLoss s
  | .hrefclkLoss half => Sys2Proof.Machine.execHrefclkLoss half s
  | .logBudgetWindow => Sys2Proof.Machine.execLogBudgetWindow s
  | .telemetrySnapshot begun => Sys2Proof.Machine.execTelemetrySnapshot begun s
  | .captureClear by_ source => Sys2Proof.Machine.execCaptureClear by_ source s
  | .alertClear by_ => Sys2Proof.Machine.execAlertClear by_ s
  | .logReadAdvance by_ read => Sys2Proof.Machine.execLogReadAdvance by_ read s
  | .evtRingEnable fn value => Sys2Proof.Machine.execEvtRingEnable fn value s
  | .evtRingDisable fn value => Sys2Proof.Machine.execEvtRingDisable fn value s
  | .tillSnap fn pitch => Sys2Proof.Machine.execTillSnap fn pitch s
  | .tillClear fn pitch snapFirst => Sys2Proof.Machine.execTillClear fn pitch snapFirst s
  | .registerWrite fn offset size value => Sys2Proof.Machine.execRegisterWrite fn offset size value s
  | .abtoserFault => Sys2Proof.Machine.execAbtoserFault s
  | .liveActivationTimeout core => Sys2Proof.Machine.execLiveActivationTimeout core s
  | .onfiVccqOvercurrent => Sys2Proof.Machine.execOnfiVccqOvercurrent s
  | .remoteHoldRelease peer pitch record => Sys2Proof.Machine.execRemoteHoldRelease peer pitch record s
  | .replicaWithdraw scope key => Sys2Proof.Machine.execReplicaWithdraw scope key s
  | .busMasterEnableWrite fn on => Sys2Proof.Machine.execBusMasterEnableWrite fn on s
  | .cxlBisnpResponse half line data => Sys2Proof.Machine.execCxlBisnpResponse half line data s
  | .serdesEqSettled port => Sys2Proof.Machine.execSerdesEqSettled port s
  | .registerRead by_ offset size => Sys2Proof.Machine.execRegisterRead by_ offset size s

end Sys2Proof.Machine
end

