-- ==== Sys2Proof/Machine/Step.lean ====
section
/-! DEFINITION. One step of the block: the command at the front of the queue, or, on an empty queue, its own idle step. -/
namespace Sys2Proof.Machine

/-- One step: exec of the command at the front, on the state with the rest of the queue; with nothing queued the block
idles. (DEDUCED: log entry 69.) (DESIGN CHOICE: log entry 2.) -/
def step (s : State) : Host.Outcome State Fault Refusal :=
  match s.pending with
  | [] => .next s
  | c :: rest => exec c { s with pending := rest }

/-- The state with the command that a table word spells at the front of its queue. (DESIGN CHOICE: log entry 4.) -/
def State.withFetchWord (s : State) (nbits w : Nat) : State :=
  match decodeTableWord nbits w with
  | none => s
  | some c => { s with pending := c :: s.pending }

end Sys2Proof.Machine
end

