-- ==== Sys2Proof/Safety.lean ====
section
/-! DEFINITION. What counts as a safe run of the block: waiting commands that name parts the device has, and steps that
answer. -/
namespace Sys2Proof

open Sys2Proof.Machine

/-- Every waiting command names parts that the device has. -/
def QueueOk (s : State) : Prop := ∀ c ∈ s.pending, c.wf = true

/-- The next step answers a state: it neither faults nor refuses. -/
def Answers (s : State) : Prop := ∃ t, step s = .next t

/-- The state after n steps, where each of them answers. -/
def runSteps : Nat → State → Option State
  | 0, s => some s
  | n + 1, s => match step s with
    | .next t => runSteps n t
    | _ => none

/-- A run of n steps without a stop. -/
def SafeRun (n : Nat) (s : State) : Prop := (runSteps n s).isSome = true

end Sys2Proof
end

