-- ==== Sys2Proof/Certificates/Slice0/Obligations.lean ====
section
/-! DEFINITION. The statements for the provers: what each command of the block comes to, and what holds of every step. -/
namespace Sys2Proof.Claims

open Sys2Proof Sys2Proof.Machine

/-- exec answers u, with the queue as the command found it. -/
def Gives (c : Instr) (s u : State) : Prop := exec c s = .next (keepQueue s u)

/-- exec answers what the block settles into from u between two commands (R17, R18, R429), with the queue as the command
found it. -/
def Works (c : Instr) (s u : State) : Prop := exec c s = .next (keepQueue s (settle u))

/-- The device has left boot and is in no reset and no FATAL hold. -/
def Up (s : State) : Prop := running s = true

/-- The row of the table that submits a command. -/
def submitRow (op : Opcode) (r : Nat) (e : Entry) : Instr :=
  match op with
  | .seqOpen => .seqOpen r e
  | .seqClose => .seqClose r e
  | .seqPark => .seqPark r e
  | .seqFork => .seqFork r e
  | .attend => .attend r e
  | .accept => .accept r e
  | .hintStep => .hintStep r e
  | .prefixLookup => .prefixLookup r e
  | .prefixPublish => .prefixPublish r e
  | .prefixDrop => .prefixDrop r e
  | .winOpen => .winOpen r e
  | .winRevoke => .winRevoke r e
  | .chitSet => .chitSet r e
  | .chitAdd => .chitAdd r e
  | .chitWait => .chitWait r e
  | .pitchBind => .pitchBind r e
  | .pitchRelease => .pitchRelease r e
  | .timetableSelect => .timetableSelect r e
  | .shaperSet => .shaperSet r e
  | .attest => .attest r e
  | .fullReset => .fullReset r e

/-- The ring's next accepted entry, fetched and checked, may start at once (R427, R429, R439): the command, and the state
in which its operation runs. None where it may not. -/
def started (op : Opcode) (r : Nat) (e : Entry) (s : State) : Option (Cmd × State) :=
  match ringFn s r, (ringOf s r).accepted with
  | some fn, a :: rest =>
    let e := withOpcode op.code e
    let c := cmdOfEntry s (some op) r fn a e
    let t := onRing r (fun x => { x with accepted := rest }) { s with cmds := s.cmds ++ [c] }
    if running s && ringOk r && mayFetch s r && entryThere s r a.slot e && (headerCheck t (some op) fn e).isNone
        && !(s.cmds.any (fun x => x.id == a.order)) && cmdReady t c then some (c, startedCmd c.id t) else none
  | _, _ => none

/-- The tokens that a SEQ_OPEN imports (R77). -/
def openTokens (e : Entry) : Nat := if bit (fieldOf e 0x16 1) 6 then bits (fieldOf e 0x2C 4) 0 22 else 0

/-- The fields of a SEQ_OPEN are in range, with and without import and stripe (R77, R86). -/
def openFields (c : Cmd) (s : State) (p : Nat) : Bool :=
  let e := c.entry
  let flags := fieldOf e 0x16 1
  let m := fieldOf e 0x25 1 + 1
  decide (c.ring < 1024) && cmdPitch s c == some p && (seqById s p (fieldOf e 0x10 4)).isNone && !(bit flags 7)
    && shapeOk (shapeOf e) && (bit flags 5 || m == 1) && decide (m ≤ 64) && fieldOf e 0x26 1 == 0 && zeroAt e 0x27 1
    && bits (fieldOf e 0x2C 4) 22 10 == 0 && zeroAt e 0x36 2 && zeroAt e 0x3E 2 && decide (bits (fieldOf e 0x2C 4) 0 22 ≤ 2097152)
    && (clientClass s p (fieldOf e 0x14 2)).isSome
    && !(bit (fieldOf e 0x28 4) 31 && fabricRing s c.ring && (bit flags 6 || bit flags 5))

/-- What a SEQ_OPEN reads, where it is at hand: the devices of its members, and of each layer the tokens that fill no page
(R76 to R78, R333). -/
def openInputs (c : Cmd) (s : State) (p : Nat) : Option (List Nat × List Bytes) :=
  let e := c.entry
  let h := shapeOf e
  let flags := fieldOf e 0x16 1
  let m := fieldOf e 0x25 1 + 1
  let tokens := openTokens e
  let win := fieldOf e 0x28 4
  let off := fieldOf e 0x30 6
  let stride := importStride h tokens
  let probe := newSeq 0 p 0 0 0 0 0 0 h (List.replicate m 0) 0 (bit flags 5)
  let tail := if ownsPos probe (tokens - 1) ∧ 0 < tokens then tokens % 256 else 0
  let whole := if bit flags 6 then (match locate s c.ring win off (h.layers * stride) false with
    | .ok _ => true
    | .error _ => false) else true
  let table := if bit flags 5 then readOperand s c win (fieldOf e 0x38 6) 128 else Got.val []
  let tails := readLayers s c win (tail * tokBytes h) (fun j => off + j * stride + (tokens - tail) * tokBytes h)
    (if tail = 0 then 0 else h.layers)
  match table, tails with
  | .val t, .val l =>
    let devices := (List.range m).map (fun i => leAt t (2 * i) 2)
    let linked := !(bit flags 5) || ((memberPeers s devices).all (fun x => match x.2 with
      | some q => (connBetween s p q).isSome
      | none => false) && devices.head? == some (deviceId s))
    if whole && linked then some (devices, l) else none
  | _, _ => none

/-- The sequence that a command names in bytes 0x10 to 0x13 of its entry. -/
def namedSeq (c : Cmd) (s : State) : Option Seq := (cmdPitch s c).bind (fun p => seqById s p (fieldOf c.entry 0x10 4))

/-- A SEQ_FORK whose client is a row of the pitch, whose SEQ_ID is free and whose reserved bits are zero, with the ledger
slot it gets (R79, R86). -/
def forkable (c : Cmd) (s : State) (p slot : Nat) : Bool :=
  let e := c.entry
  cmdPitch s c == some p && (seqById s p (fieldOf e 0x10 4)).isNone && bits (fieldOf e 0x16 1) 5 3 == 0 && zeroAt e 0x17 1
    && bits (fieldOf e 0x1C 4) 22 10 == 0 && zeroAt e 0x28 24 && (clientClass s p (fieldOf e 0x14 2)).isSome
    && ledgerSlot s p == some slot && !c.stageD

/-- The child that a SEQ_FORK of a parent makes (R79 to R82): OPEN over the parent's prefix of n tokens; the tail that no page
holds is copied now, unless its page is full in the parent. -/
def forkChild (c : Cmd) (s : State) (p slot : Nat) (par : Seq) : Seq :=
  let n := bits (fieldOf c.entry 0x1C 4) 0 22
  let base := newSeq s.order p slot (fieldOf c.entry 0x10 4) (bits (fieldOf c.entry 0x16 1) 0 4) (fieldOf c.entry 0x14 2) par.modelFp par.adapter
    par.shape par.members par.ownIndex par.striped
  let owns := ownsPos par (n - 1) && decide (n % 256 ≠ 0)
  let cut := fun (l : Layer) =>
    let k := { Layer.fresh with pages := List.replicate (ownCount par n / 256) none, len := n, sealed := ownCount par n / 256 }
    if owns then
      (if 256 * (n / 256 + 1) ≤ l.len then putSlot 0 { BSlot.empty with alloc := true } k
       else putSlot 0 { BSlot.empty with alloc := true, toks := tailToks par l n } k)
    else k
  { base with forkFrom := some par.uid, layers := par.layers.map cut, keys := par.keys.take (n / 256), sharedPages := n / 256,
              fork := some c.id, forkLen := n }

/-- The child that a SEQ_FORK of a prefix result makes over its first n tokens, and the state with it (R80, R209). -/
def forkResult (c : Cmd) (s : State) (p slot : Nat) (res : Option Result) : State :=
  let n := bits (fieldOf c.entry 0x1C 4) 0 22
  let hd := slotHead s (fieldOf c.entry 0x20 8) res
  let q := newSeq s.order p slot (fieldOf c.entry 0x10 4) (bits (fieldOf c.entry 0x16 1) 0 4) (fieldOf c.entry 0x14 2) hd.1 hd.2.1 hd.2.2 [] 0 false
  let take := ((res.map (fun r => r.pages)).getD []).take (n / 256)
  let made := startedCmd c.id { ordered s with seqs := s.seqs ++ [{ q with fork := some c.id, forkLen := n }] }
  let r := (List.range hd.2.2.layers).foldl (fun (acc : List Layer × State) j =>
    let x := resultPages q j take acc.2
    (acc.1 ++ [{ Layer.fresh with pages := x.1, len := n, sealed := n / 256 }], x.2)) ([], made)
  onSeq s.order (fun q => { q with layers := r.1, keys := take.map (fun x => x.key), sharedPages := n / 256 }) r.2

/-- What an operand of a command holds, where it is at hand (R78, R336). -/
def bodyRead (c : Cmd) (s : State) (n win off : Nat) : Option Bytes :=
  match locate s c.ring win off n false, readOperand s c win off n with
  | .ok _, .val bs => some bs
  | _, _ => none

/-- An output window is left out (handle 0), or takes n bytes (R336). -/
def outputOk (c : Cmd) (s : State) (n win off : Nat) : Bool :=
  win == 0 || (match locate s c.ring win off n true with
    | .ok _ => true
    | .error _ => false)

/-- The parts of an ATTEND that passes the checks of R99 and whose data is at hand. -/
def attendTakes (c : Cmd) (s : State) (p : Nat) : Option (List PartIn) :=
  let e := c.entry
  let n := fieldOf e 0x11 1 + 1
  let bw := fieldOf e 0x1C 4
  let bo := fieldOf e 0x28 6
  let ow := fieldOf e 0x30 4
  let oo := fieldOf e 0x34 6
  match bodyRead c s (32 * n) bw bo with
  | none => none
  | some t =>
    let es := (chunks 32 n t).map (fun b => ((seqById s p (leAt b 0 4)).map (fun q => q.shape), b))
    let pieces := es.flatMap (fun x => entryPieces e x.1 x.2)
    let outs := pieces.filter (fun x => x.1)
    let ok := fun (x : Bool × Nat × Nat) => match locate s c.ring (if x.1 then ow else bw) ((if x.1 then oo else bo) + x.2.1) x.2.2 x.1 with
      | .ok _ => true
      | .error _ => false
    if cmdPitch s c == some p && !c.stageD && ok (true, 0, 16 * n) && pieces.all ok
        && entryOk e && es.all (fun x => seqEntryOk x.2)
        && !(overlaps ((0, 16 * n) :: outs.map (fun x => (x.2.1, x.2.1 + x.2.2)))) then
      (match readParts s c es with
        | .val ins => some ins
        | _ => none)
    else none

/-- The fields of a PREFIX_DROP that both its kinds check (R219). -/
def dropFieldsOk (e : Entry) : Bool := zeroAt e 0x11 1 && zeroAt e 0x1C 4 && zeroAt e 0x26 26

/-- What a PREFIX_PUBLISH reads, where it is at hand: none without TOKEN_WIN, else its token ids (R211). -/
def publishInput (c : Cmd) (s : State) : Option (Option Bytes) :=
  let tw := fieldOf c.entry 0x1C 4
  if tw = 0 then some none else (bodyRead c s (1024 * fieldOf c.entry 0x16 2) tw (fieldOf c.entry 0x20 6)).map some

/-- Where on a peer an operand of a command on a fabric ring lies: the ring's connection, the window and the offset (R346). -/
def operandOnPeer (c : Cmd) (s : State) (n win off : Nat) : Option (Nat × Nat × Nat) :=
  match locate s c.ring win off n false, readOperand s c win off n, ringConn s c.ring with
  | .ok _, .remote w o _, some conn => some (conn, w, o)
  | _, _, _ => none

/-- A command asks a peer for an operand, and waits for the read (R346). -/
def asksPeer (c : Cmd) (conn w off len : Nat) (s : State) : State :=
  let r := askRead conn (w % 2147483648) off len (.operand c.id w off) (freeBits s 32, freeBits (freshen s) 48) (freshen (freshen s))
  onCmd c.id (fun x => { x with wait := .reading r.1 }) r.2

/-- The fields of a WIN_OPEN are in range, for each of its four kinds (R338). -/
def winFieldsOk (s : State) (e : Entry) : Bool :=
  let kind := fieldOf e 0x10 1
  let base := fieldOf e 0x18 6
  let len := fieldOf e 0x20 6
  decide (kind ≤ 3) && decide (fieldOf e 0x11 1 ≤ 15) && zeroAt e 0x1E 2 && zeroAt e 0x26 2 && zeroAt e 0x28 24
    && len % 64 == 0 && decide (64 ≤ len)
    && (if kind = 0 ∨ kind = 1 then base % 64 == 0
      else if kind = 2 then decide (base < 1024) && fieldOf e 0x12 2 != 0xFFFF && !(bit (fieldOf e 0x11 1) permRemoteRead)
        && len == 64 * ringSize s base && fieldOf e 0x14 4 == noChit
      else decide (base + len / 8 ≤ 16384) && fieldOf e 0x14 4 == noChit)

/-- A pitch whose release is over: CLEAN, the next epoch, no tenant, its registers and rings at their reset (R12, R482, R483). -/
def cleanPitch (p : Nat) (x : Release) (s : State) : State :=
  let epoch := (rd s .secPitchStateEpoch p + 1) % 4294967296
  let u := wr .secPitchStateReleaseMs p (min 65535 ((s.localTime - x.startAt) / 1000000)) (wr .secPitchStateStep p 0
    (wr .secPitchStateEpoch p epoch (wr .secPitchStateVolatile p 0 (wr .secPitchTenantTenantId p 0 s))))
  enterPitchState p 0 { pitchReset p u with
    rings := drop (fun x => ringPitch u x.num == some p) u.rings,
    crier := { u.crier with evtUnread := drop (fun x => x.1 == p + 1) u.crier.evtUnread, lostFns := u.crier.lostFns.erase (p + 1) },
    releases := drop (fun x => x.pitch == p) u.releases }

/-- The answer to a crate read of another device came, and not a refusal (R244, R318). -/
def cameBack (r : ReadResult) : Bool :=
  match r with
  | .lost | .lostFrame _ _ _ | .lostBlock _ | .undecodable _ => false
  | _ => true

/-- The command that a member makes of a forward (R76, R124). -/
def forwardedCmd (s : State) (q : Nat) (op : Opcode) (own : Nat) (f : Forward) : Cmd :=
  { id := s.order, ring := forwardRing q f.pitch, ringGen := 0, order := s.order, slot := 0, op := op, tag := fieldOf f.entry 2 2,
    chit := noChit, chain := 0, entry := f.entry, at_ := s.localTime, stageD := stageOn s 4, wait := .runnable, inputs := [],
    badIn := [], members := [], peers := [(own, q)], outcome := none, uses := none, room := none }

/-- What a frame that a port receives comes to (R329, R395 to R398, R548): nothing where the port is down or the device in P3; in
P2 a packet of data waits in its port's FIFO and wakes the device; else its association takes it as its opcode says, or
drops and counts it, and work that then waits ends a power state. -/
def packetEffect (g : Frame) (s : State) : State :=
  if portUsable s g.port = false ∨ rd s .pwrStateState 0 = 3 then s
  else if rd s .pwrStateState 0 = 2 ∧ g.opcode ≠ opAck ∧ g.opcode ≠ opCtrl then queueIngress g (startWake s)
  else
    let u := match admission g s with
      | .error u => u
      | .ok (q, t) => if counterLast g.counter then trustLapses q 2 (admitted q g t) else admitted q g t
    if workWaits u then startWake u else u

/-- The frames of each row are the packets of its opcode (R329). -/
def asCtrl (kind : Nat) : Frame → Frame := asPacket opCtrl kind

/-- One run goes before another in a stall's queue, or the two are equal in all of R145. -/
def runBefore (a b : Work) : Prop :=
  b.prio < a.prio ∨ (a.prio = b.prio ∧ (a.order < b.order ∨ (a.order = b.order ∧ (a.entry < b.entry ∨
    (a.entry = b.entry ∧ a.first ≤ b.first)))))

/-- Rows that act on a device that does not run: the always-on domain, its reporting, links, resets, and what a FATAL hold
leaves (R520, R530, R538, R550, R626). -/
def actsAtRest (c : Instr) : Bool :=
  match c with
  | .pcieLinkUp _ _ _ _ | .pcieSurpriseDown _ | .pcieHotReset _ | .busMasterEnableWrite _ _ | .evtRingEnable _ _ | .evtRingDisable _ _
  | .tillSnap _ _ | .tillClear _ _ _ | .registerWrite _ _ _ _ | .registerRead _ _ _ | .sidebandRegisterRead _ _ | .captureClear _ _
  | .alertClear _ | .logReadAdvance _ _ | .logBudgetWindow | .telemetrySnapshot _ | .pldmBaseRequest _ | .pldmPlatformRequest _
  | .pldmFruRequest _ | .boot _ | .fatalHoldExpiry | .pldmFwComponent _ | .pldmActivateFirmware _ | .powerOn | .tileStart | .vauxFail
  | .perstAssert | .perstDeassert _ | .supplyStageEnter _ _ | .supplyStageEnd _ _ | .supplyReset _ | .powerCapAction _ _ _ _
  | .powerCapRelease | .thermalStep _ | .thermalRecover _ | .thermalTrip _ | .thermalTripRelease | .pwrCtrlWrite _ _ | .auxclkLoss
  | .hrefclkLoss _ | .onfiVccqOvercurrent => true
  | _ => false

/-- Rows of the operator that only read, clear or advance what the always-on domain reports. -/
def operatorRows : List Instr :=
  [Requester.fn 0, .sideband].flatMap (fun w => (List.range 64).map (fun n => Instr.captureClear w n) ++ [.alertClear w])
    ++ [.logBudgetWindow] ++ (List.range 8).map (fun n => .pldmPlatformRequest n) ++ [.pldmBaseRequest 0, .pldmFruRequest 0]

/-- The checks of every entry in their order (R439): the condition and its status. -/
def headerFailures (s : State) (op : Opcode) (fn : Nat) (e : Entry) : List (Bool × Status) :=
  [(!(if fn = 0 then op.onPf0 else op.onPitch), .access),
   (decide (fn ≠ 0) && !(pitchState s (fn - 1) == 1 || pitchState s (fn - 1) == 2), .closing),
   (decide (fieldOf e 4 4 ≠ 0xFFFFFFFF) && !(chitOwned s fn (fieldOf e 4 4)), .access),
   (decide (bits (fieldOf e 1 1) 2 6 ≠ 0) || !(zeroAt e 0x0C 4) || (decide (fieldOf e 8 4 ≠ 0) && !(bit (fieldOf e 1 1) flagChained)), .badParam)]

end Sys2Proof.Claims

open Sys2Proof Sys2Proof.Machine Sys2Proof.Claims

/-! The queue and the step. -/

/-- A step of the block is exec of the command at the front, on the state with the queue's rest; on an empty queue the block
idles (the latter is the model's choice: log entry 2). -/
def Obligations.StepRunsFront : Prop :=
  (∀ (s : State) (c : Instr) (rest : List Instr), s.pending = c :: rest → step s = exec c { s with pending := rest })
  ∧ (∀ s : State, s.pending = [] → step s = .next s)

/-- A command whose operands name parts that the device has answers a next state, and leaves the queue as it finds it; any
other command is a fault (the model's choice: log entry 3). -/
def Obligations.EveryCommandAnswers : Prop :=
  ∀ (c : Instr) (s : State),
    (c.wf = true → ∃ t, exec c s = .next t ∧ t.pending = s.pending) ∧ (c.wf = false → exec c s = .fault .noSuchUnit)

/-- From a state whose waiting commands are well-formed every step answers, consumes at most the front of the queue, and
leaves such a state. -/
def Obligations.QueueInvariantKept : Prop :=
  ∀ s : State, QueueOk s → ∃ t, step s = .next t ∧ t.pending = s.pending.tail ∧ QueueOk t

/-- Reset meets the invariant of QueueInvariantKept, and nothing waits. -/
def Obligations.ResetQueueOk : Prop := QueueOk State.reset ∧ State.reset.pending = []

/-- From a state whose waiting commands are well-formed the block works off its whole queue: as many steps as commands wait
all answer, and leave the queue empty. -/
def Obligations.QueueDrains : Prop :=
  ∀ s : State, QueueOk s → ∃ t, runSteps s.pending.length s = some t ∧ t.pending = []

/-! Commands of the rings (R437). -/

/-- A row that submits a command fetches the ring's next accepted entry and, when nothing holds it, runs the operation of its
opcode (R427, R429, R437, R439). -/
def Obligations.RingCommandRuns : Prop :=
  ∀ (op : Opcode) (r : Nat) (e : Entry) (s t : State) (c : Cmd),
    started op r e s = some (c, t) → Works (submitRow op r e) s (runOp c t)

/-- CHIT_SET and CHIT_ADD complete (R442): a chit of the owner takes the value, or the value modulo 2^64 that adding gives, and
the completion carries it. -/
def Sys2Proof.Claims.ChitValuesSet : Prop :=
  (∀ r e s c t, started .chitSet r e s = some (c, t) → chitOwned t (cmdOwner t c) (fieldOf c.entry 0x10 4) = true →
    zeroAt c.entry 0x14 4 = true → zeroAt c.entry 0x20 32 = true →
    Works (.chitSet r e) s (complete c.id .ok (fieldOf c.entry 0x18 8)
      (updateChit (.set (fieldOf c.entry 0x10 4) (fieldOf c.entry 0x18 8)) t)))
  ∧ (∀ r e s c t, started .chitAdd r e s = some (c, t) → chitOwned t (cmdOwner t c) (fieldOf c.entry 0x10 4) = true →
    zeroAt c.entry 0x14 4 = true → zeroAt c.entry 0x20 32 = true →
    Works (.chitAdd r e) s (complete c.id .ok ((chitVal t (fieldOf c.entry 0x10 4) + fieldOf c.entry 0x18 8) % 2 ^ 64)
      (updateChit (.add (fieldOf c.entry 0x10 4) (fieldOf c.entry 0x18 8)) t)))

/-- A CHIT_WAIT whose threshold is not reached is armed (R443 to R445). -/
def Sys2Proof.Claims.ChitWaitArms : Prop :=
  ∀ r e s c t, started .chitWait r e s = some (c, t) →
    let g := triggerOf c (cmdOwner t c) t.localTime
    chitOwned t g.owner g.index = true → g.action ≤ 3 → zeroAt c.entry 0x15 1 = true → zeroAt c.entry 0x26 2 = true →
    zeroAt c.entry 0x36 2 = true → fieldOf c.entry 0x20 4 ≤ 60000000 → actionOk t g.owner g (fieldOf c.entry 0x28 4) = true →
    countBy (fun (x : Trigger) => x.owner == g.owner) t.triggers < rd t .pciChitRangeTrigQuota g.owner →
    chitVal t g.index < g.threshold →
    Works (.chitWait r e) s (startedCmd c.id { t with triggers := t.triggers ++ [g] })

/-- ACCEPT commits in every layer the tokens its mask keeps, starts the seals of the pages that became full, and answers LENGTH;
a stripe's lead forwards it (R68, R70, R76, R437). -/
def Sys2Proof.Claims.AcceptRuns : Prop :=
  ∀ r e s c t q, started .accept r e s = some (c, t) → namedSeq c t = some q → zeroAt c.entry 0x14 4 = true →
    zeroAt c.entry 0x20 32 = true → q.layers.all (fun l => l.tent == seqTent q) = true →
    fieldOf c.entry 0x18 8 < 2 ^ seqTent q → q.st = .active →
    let u := each (List.range q.layers.length) (startSeals q.uid)
      (onSeq q.uid (fun q => { q with layers := q.layers.map (acceptLayer q (fieldOf c.entry 0x18 8)) })
        (if leads c q then forwardCmd c q.members t else t))
    Works (.accept r e) s (seqDone c.id .ok (((seqOf u q.uid).map seqLength).getD 0) u)

/-- SEQ_OPEN creates its sequence, with its import and its stripe where it has them; SEQ_CLOSE takes it to CLOSING; SEQ_PARK
waits for what uses it, then parks it and with FLUSH writes its crates to flash; HINT_STEP sets its next use to the
acceptance plus the delay, or cancels it; ACCEPT commits the tokens its mask keeps and starts the seals. The lead of a
stripe forwards them (R41, R68, R70, R76 to R78, R84, R85, R239). -/
def Sys2Proof.Claims.SequenceCommandsRun : Prop :=
  (∀ r e s c t p devices tails slot, started .seqOpen r e s = some (c, t) → openFields c t p = true →
    let tokens := openTokens c.entry
    let h := shapeOf c.entry
    let striped := bit (fieldOf c.entry 0x16 1) 5
    let probe := newSeq 0 p 0 0 0 0 0 0 h (List.replicate (fieldOf c.entry 0x25 1 + 1) 0) 0 striped
    let u := holdRoom c p (if bit (fieldOf c.entry 0x16 1) 6 then startPool h (ownCount probe tokens) else 0) t
    let v := useRoom c.id (if striped then forwardCmd c devices u else u)
    openInputs c u p = some (devices, tails) → hasRoom u c.id = true → ledgerSlot v p = some slot → c.stageD = false →
    Works (.seqOpen r e) s (createSeq c p slot tokens h devices 0 striped tails v))
  ∧ (∀ r e s c t q, started .seqClose r e s = some (c, t) → namedSeq c t = some q → zeroAt c.entry 0x14 44 = true →
    q.st ≠ .open_ → q.st ≠ .closing →
    Works (.seqClose r e) s (startedCmd c.id (onSeq q.uid (fun q => { q with st := .closing, closer := some c.id, closedFrom := q.st })
      (if leads c q then forwardCmd c q.members t else t))))
  ∧ (∀ r e s c t q, started .seqPark r e s = some (c, t) → namedSeq c t = some q → fieldOf c.entry 0x14 1 ≤ 1 →
    zeroAt c.entry 0x15 43 = true →
    let u := if leads c q then forwardCmd c q.members t else t
    (attendBefore u q c.order = true ∨ seqSealing u q.uid = true →
      Works (.seqPark r e) s (onCmd c.id (fun x => { x with wait := .park }) u))
    ∧ (attendBefore u q c.order = false → seqSealing u q.uid = false → q.layers.all (fun l => l.tent == 0) = true → seqTent q = 0 →
      (q.st = .active ∨ q.st = .parked) →
      let v := onSeq q.uid (fun q => { q with st := .parked }) (startedCmd c.id u)
      Works (.seqPark r e) s (seqDone c.id .ok 0
        (if bit (fieldOf c.entry 0x14 1) 0 then each (seqCrates q) (wantFlash 2) v else v))))
  ∧ Claims.AcceptRuns
  ∧ (∀ r e s c t q, started .hintStep r e s = some (c, t) → namedSeq c t = some q → fieldOf c.entry 0x14 4 ≤ 60000000 →
    fieldOf c.entry 0x1C 1 ≤ 1 → zeroAt c.entry 0x1D 35 = true → (q.st = .active ∨ q.st = .parked) →
    let next := c.at_ + fieldOf c.entry 0x14 4 * 1000
    let u := onSeq q.uid (fun q =>
      if bit (fieldOf c.entry 0x1C 1) 0 then { q with nextHint := 0, hint := none, planned := false }
      else { q with nextHint := next, hint := some { next := next, gap := fieldOf c.entry 0x18 4 }, planned := false }) t
    Works (.hintStep r e) s (complete c.id .ok 0
      (if leads c q then each (memberPeers u q.members) (fun m s => match m.2 with
        | some peer => tell peer (.forwardCmd c.op c.entry) s
        | none => s) u else u)))
  ∧ (∀ r e s c t q, started .hintStep r e s = some (c, t) → namedSeq c t = some q → fieldOf c.entry 0x14 4 ≤ 60000000 →
    fieldOf c.entry 0x1C 1 ≤ 1 → zeroAt c.entry 0x1D 35 = true → q.st = .damaged → Works (.hintStep r e) s (complete c.id .ok 0 t))

/-- SEQ_FORK of a parent makes a child in state OPEN over the parent's prefix, which a stripe's lead forwards; of a prefix
result, or of a slot that holds none, an ACTIVE child over the result's pages, whose completion carries its ledger slot (R76,
R79 to R82, R209). -/
def Sys2Proof.Claims.ForkCompletes : Prop :=
  (∀ r e s c t p par k, started .seqFork r e s = some (c, t) → forkable c t p k = true →
    bit (fieldOf c.entry 0x16 1) 4 = false → seqById t p (fieldOf c.entry 0x18 4) = some par →
    (par.st = .active ∨ par.st = .parked) → unlinked t c par = false →
    let n := bits (fieldOf c.entry 0x1C 4) 0 22
    n ≤ seqLength par → poolRoomFor t p (startPool par.shape (ownCount par n)) = true →
    let u := if leads c par then forwardCmd c par.members t else t
    let q := forkChild c t p k par
    Works (.seqFork r e) s (startedCmd c.id { ordered u with seqs := u.seqs ++ [q] })
      ∧ q.uid = t.order ∧ q.pitch = p ∧ q.slot = k ∧ q.id = fieldOf c.entry 0x10 4 ∧ q.st = .open_
      ∧ q.fork = some c.id ∧ q.forkFrom = some par.uid ∧ q.forkLen = n ∧ q.shape = par.shape
      ∧ q.keys = par.keys.take (n / 256) ∧ q.sharedPages = n / 256 ∧ q.layers.length = par.layers.length
      ∧ q.layers.all (fun l => l.len == n) = true)
  ∧ (∀ r e s c t p k slot, started .seqFork r e s = some (c, t) → forkable c t p k = true →
    bit (fieldOf c.entry 0x16 1) 4 = true → slotAt t p (fieldOf c.entry 0x20 8) = some slot →
    let n := bits (fieldOf c.entry 0x1C 4) 0 22
    let res := resultIn t p slot
    n % 256 = 0 → n ≤ 256 * ((res.map (fun x => x.pages.length)).getD 0) →
    poolRoomFor t p (startPool (slotHead t (fieldOf c.entry 0x20 8) res).2.2 n) = true →
    Works (.seqFork r e) s (seqDone c.id .ok k (forkResult c t p k res)))

/-- SEQ_OPEN, SEQ_CLOSE, SEQ_PARK, ACCEPT, HINT_STEP and SEQ_FORK complete (R68, R76 to R86, R209, R239). -/
def Obligations.SequenceCommandsComplete : Prop := Claims.SequenceCommandsRun ∧ Claims.ForkCompletes

/-- An ATTEND whose windows, fields and data pass its checks is listed as an attention of its pitch, with one part for each
sequence entry in the entry's order, and clears NEXT_HINT of the sequences it names where it is of layer 0 (R90, R91, R98,
R99, R239). -/
def Sys2Proof.Claims.AttendStarts : Prop :=
  ∀ r e s c t p ins, started .attend r e s = some (c, t) → attendTakes c t p = some ins →
    Works (.attend r e) s (startAttend c p ins t)
    ∧ ∃ a, (startAttend c p ins t).attends = insertBy (fun b => b.cmd) a t.attends
      ∧ a.cmd = c.id ∧ a.pitch = p ∧ a.layer = fieldOf c.entry 0x10 1 ∧ a.qgroup = fieldOf c.entry 0x12 1
      ∧ a.listed = false ∧ a.outWin = fieldOf c.entry 0x30 4 ∧ a.outOffset = fieldOf c.entry 0x34 6
      ∧ a.parts.length = ins.length

/-- PREFIX_LOOKUP releases its result slot and starts down its chain of keys; PREFIX_PUBLISH takes its pages up, with the keys
and base keys that its token ids give where it brings them; PREFIX_DROP releases a result slot, or removes the copies of its
keys. Where the operand lies on a peer, the command asks for it and waits (R201, R202, R207, R212, R214, R220, R305, R346). -/
def Obligations.PrefixCommandsComplete : Prop :=
  (∀ r e s c t p bs, started .prefixLookup r e s = some (c, t) → ringPitch t c.ring = some p → lookupOf t c.id = none →
    scopeOf t p ≠ 0 → lookupOk t p c.entry = true →
    let n := fieldOf c.entry 0x1C 4
    bodyRead c t (4 * n) (fieldOf c.entry 0x20 4) (fieldOf c.entry 0x28 6) = some bs →
    outputOk c t 64 (fieldOf c.entry 0x30 4) (fieldOf c.entry 0x34 6) = true →
    let keys := keysFrom (fieldOf c.entry 0x10 8) (fieldOf c.entry 0x18 2) zeroKey 0 (chunks 1024 (n / 256) (bs.take (1024 * (n / 256))))
    let u := releaseSlot p (fieldOf c.entry 0x24 2) t
    let l : Lookup :=
      { cmd := c.id, keys := keys, pages := [], past := 0, shape := none, shardLost := false, tryEntry := none, tryCopies := [],
        ended := false }
    Works (.prefixLookup r e) s (lookupOn c.id (startedCmd c.id { u with lookups := u.lookups ++ [l] })))
  ∧ (∀ r e s c t p q toks keys, started .prefixPublish r e s = some (c, t) → ringPitch t c.ring = some p → scopeOf t p ≠ 0 →
    publishOk c.entry = true → seqById t p (fieldOf c.entry 0x10 4) = some q → publishInput c t = some toks →
    outputOk c t (16 * fieldOf c.entry 0x16 2) (fieldOf c.entry 0x28 4) (fieldOf c.entry 0x30 6) = true →
    let first := bits (fieldOf c.entry 0x14 2) 0 13
    let n := fieldOf c.entry 0x16 2
    publishKeys q first n toks = some keys →
    (q.st = .active ∨ q.st = .parked) → (q.striped = true → bit (fieldOf c.entry 0x18 1) 0 = true) →
    Works (.prefixPublish r e) s (startPublish c p q keys (recordBaseKeys p q first n toks t)))
  ∧ (∀ r e s c t p, started .prefixDrop r e s = some (c, t) → ringPitch t c.ring = some p → scopeOf t p ≠ 0 →
    fieldOf c.entry 0x10 1 = 1 → dropFieldsOk c.entry = true → fieldOf c.entry 0x12 2 < rd t .pitchPrefixCfgResultSlots p →
    Works (.prefixDrop r e) s (complete c.id .ok 0 (releaseSlot p (fieldOf c.entry 0x12 2) t)))
  ∧ (∀ r e s c t p bs, started .prefixDrop r e s = some (c, t) → ringPitch t c.ring = some p → scopeOf t p ≠ 0 →
    fieldOf c.entry 0x10 1 = 0 → dropFieldsOk c.entry = true →
    let n := fieldOf c.entry 0x14 4
    1 ≤ n → n ≤ 8192 → fieldOf c.entry 0x20 6 % 16 = 0 →
    bodyRead c t (16 * n) (fieldOf c.entry 0x18 4) (fieldOf c.entry 0x20 6) = some bs →
    Works (.prefixDrop r e) s (dropEnd c.id (sweepAll (each ((chunks 16 n bs).zipIdx) (fun x => dropKey c.id p x.2 x.1)
      (startedCmd c.id { t with drops := t.drops ++ [{ cmd := c.id, waiting := [], status := .ok }] })))))
  ∧ (∀ r e s c t p conn w off, started .prefixLookup r e s = some (c, t) → ringPitch t c.ring = some p → lookupOf t c.id = none →
    scopeOf t p ≠ 0 → lookupOk t p c.entry = true →
    outputOk c t 64 (fieldOf c.entry 0x30 4) (fieldOf c.entry 0x34 6) = true →
    operandOnPeer c t (4 * fieldOf c.entry 0x1C 4) (fieldOf c.entry 0x20 4) (fieldOf c.entry 0x28 6) = some (conn, w, off) →
    Works (.prefixLookup r e) s (asksPeer c conn w off (4 * fieldOf c.entry 0x1C 4) t))
  ∧ (∀ r e s c t p q conn w off, started .prefixPublish r e s = some (c, t) → ringPitch t c.ring = some p → scopeOf t p ≠ 0 →
    publishOk c.entry = true → seqById t p (fieldOf c.entry 0x10 4) = some q → fieldOf c.entry 0x1C 4 ≠ 0 →
    outputOk c t (16 * fieldOf c.entry 0x16 2) (fieldOf c.entry 0x28 4) (fieldOf c.entry 0x30 6) = true →
    operandOnPeer c t (1024 * fieldOf c.entry 0x16 2) (fieldOf c.entry 0x1C 4) (fieldOf c.entry 0x20 6) = some (conn, w, off) →
    Works (.prefixPublish r e) s (asksPeer c conn w off (1024 * fieldOf c.entry 0x16 2) t))
  ∧ (∀ r e s c t p conn w off, started .prefixDrop r e s = some (c, t) → ringPitch t c.ring = some p → scopeOf t p ≠ 0 →
    fieldOf c.entry 0x10 1 = 0 → dropFieldsOk c.entry = true →
    let n := fieldOf c.entry 0x14 4
    1 ≤ n → n ≤ 8192 → fieldOf c.entry 0x20 6 % 16 = 0 →
    operandOnPeer c t (16 * n) (fieldOf c.entry 0x18 4) (fieldOf c.entry 0x20 6) = some (conn, w, off) →
    Works (.prefixDrop r e) s (asksPeer c conn w off (16 * n) t))

/-- WIN_OPEN opens a window of DRAM, of the hall, of a submission ring or of chits and answers its handle; WIN_REVOKE marks its
window REVOKING and waits; when what had passed its check has drained, WIN_REVOKE_DONE closes it and its revokes complete
(R336 to R338, R341, R342). -/
def Obligations.WindowCommandsComplete : Prop :=
  (∀ r e s c t p h u, started .winOpen r e s = some (c, t) → ringPitch t c.ring = some p → winFieldsOk t c.entry = true →
    let kind := fieldOf c.entry 0x10 1
    let conn := fieldOf c.entry 0x12 2
    let chit := fieldOf c.entry 0x14 4
    regionOk t p kind conn (fieldOf c.entry 0x18 6) (fieldOf c.entry 0x20 6) = true →
    (conn = 0xFFFF ∨ connOfPitch t conn p = true) → (chit = noChit ∨ chitOwned t (p + 1) chit = true) →
    windowsOf t p < rd t .fabWinUseQuota p →
    openWindow (newWindow p kind (fieldOf c.entry 0x11 1) conn chit (fieldOf c.entry 0x18 6) (fieldOf c.entry 0x20 6)) t = some (h, u) →
    Works (.winOpen r e) s (complete c.id .ok h u))
  ∧ (∀ r e s c t p w, started .winRevoke r e s = some (c, t) → ringPitch t c.ring = some p →
    let h := fieldOf c.entry 0x10 4
    windowAt t (bits h 0 18) = some w → zeroAt c.entry 0x14 44 = true → bit h 31 = false → w.gen = bits h 18 13 → w.pitch = p →
    let mark := fun (x : Window) => { x with revoking := true, waiters := x.waiters ++ [c.id] }
    Works (.winRevoke r e) s (startedCmd c.id { t with windows := upd (fun x => x.index == w.index) mark t.windows }))
  ∧ (∀ i s w, Up s → windowOk i = true → windowAt s i = some w → w.revoking = true →
    Works (.winRevokeDone i) s (each w.waiters (fun id s => complete id .ok 0 s)
      (bump .fabWinUseRevokes w.pitch w.waiters.length (closeWindow i s))))

/-- A CHIT_WAIT whose deadline passes completes with TIMEOUT at the deadline, its trigger gone (R444). -/
def Sys2Proof.Claims.ChitDeadlinePasses : Prop :=
  ∀ id s g d, Up s → s.triggers.find? (fun t => t.cmd == id) = some g → g.deadline = some d →
    Works (.chitDeadline id) s (complete id .timeout 0 (reach d { s with triggers := drop (fun x => x.cmd == id) s.triggers }))

/-- TIMETABLE_SELECT leaves its table pending for the cycle boundary; SHAPER_SET sets the shaper of its ports; ATTEST is
served, or held while its scope's release runs; FULL_RESET with its magic resets the device (R160, R393, R490, R494,
R551). -/
def Sys2Proof.Claims.DeviceCommandsRun : Prop :=
  (∀ r e s c t, started .timetableSelect r e s = some (c, t) → fieldOf c.entry 0x10 1 ≤ 1 → zeroAt c.entry 0x11 47 = true →
    Works (.timetableSelect r e) s (startedCmd c.id (wr .hallTtStatusPending 0 1
      (wr .hallTtStatusPendingTable 0 (fieldOf c.entry 0x10 1)
        { t with ttWaiters := t.ttWaiters ++ [(c.id, t.localTime, fieldOf c.entry 0x10 1)] }))))
  ∧ (∀ r e s c t, started .shaperSet r e s = some (c, t) →
    let ports := portsOf (fieldOf c.entry 0x10 1)
    let q := fieldOf c.entry 0x11 1
    let rate := fieldOf c.entry 0x14 4
    let burst := fieldOf c.entry 0x18 4
    ports ≠ [] → q ≤ 31 → zeroAt c.entry 0x12 2 = true → zeroAt c.entry 0x1C 36 = true →
    (∀ p ∈ ports, rd t .fabPortCfgSpeed p ≠ 0 ∧ rate ≤ speedMbps (rd t .fabPortCfgSpeed p)) → rate ≤ 4294967296 →
    (rate = 0 ∨ (9216 ≤ burst ∧ burst ≤ 16777216)) →
    Works (.shaperSet r e) s (complete c.id .ok 0 (each ports (setShaper q rate burst) t)))
  ∧ (∀ r e s c t, started .attest r e s = some (c, t) → attestOk t c = true →
    (ringPitch t c.ring = none ∨ ringPitch t c.ring = some (fieldOf c.entry 0x11 1)) →
    let u := { t with attestWait := t.attestWait.erase c.id }
    (attestHeld t c = false → fieldOf c.entry 0x10 1 = 0 → ∀ pl, attestOut u c = .val pl → Works (.attest r e) s (quote c pl u))
    ∧ (attestHeld t c = false → fieldOf c.entry 0x10 1 = 1 → ∀ pl m, attestOut u c = .val pl → attestIn u c = .val m →
      Works (.attest r e) s (provision c (fieldOf c.entry 0x11 1) pl m u))
    ∧ (attestHeld t c = false → fieldOf c.entry 0x10 1 = 2 → ∀ pl, attestOut u c = .val pl → Works (.attest r e) s (chain c pl u))
    ∧ (attestHeld t c = true →
      Works (.attest r e) s (startedCmd c.id
        { t with attestWait := if t.attestWait.contains c.id then t.attestWait else t.attestWait ++ [c.id] })))
  ∧ (∀ r e s c t, started .fullReset r e s = some (c, t) → fieldOf c.entry 0x10 4 = 0x4C595253 → zeroAt c.entry 0x14 44 = true →
    Works (.fullReset r e) s (fullReset causeCommand t))

/-- ATTEST_BUSY_TIMEOUT ends an ATTEST that a live activation or an earlier ATTEST has held with BUSY, 50 ms after its acceptance; a session key is
destroyed 60 s after the QUOTE that made it (R491, R494). -/
def Sys2Proof.Claims.AttestTimeoutCompletes : Prop :=
  (∀ id s c, Up s → cmdOf s id = some c → s.attestWait.contains id = true →
    ((s.live.active = true ∧ s.live.copied = true) ∨ attestBehind s c = true) →
    Works (.attestBusyTimeout id) s
      (complete id .busy 0 (reach (c.at_ + 50000000) { s with attestWait := s.attestWait.erase id })))
  ∧ (∀ scope s k, Up s → s.sessions.find? (fun k => k.scope == scope) = some k →
    Gives (.sessionKeyExpiry scope) s
      (reach (k.bornAt + 60000000000) { s with sessions := drop (fun x => x.scope == scope) s.sessions }))

/-- An entry whose OPCODE the opcode table does not list is consumed and completes with BAD_OPCODE (R427, R439). -/
def Sys2Proof.Claims.BadOpcodeCompletes : Prop :=
  ∀ r e s fn a rest, Up s → ringOk r = true → ringFn s r = some fn → (ringOf s r).accepted = a :: rest → mayFetch s r = true →
    let e' := badOpcode e
    entryThere s r a.slot e' = true →
    let c := cmdOfEntry s none r fn a e'
    Works (.badOpcodeEntry r e) s (failWord c.id .badOpcode (startedCmd c.id
      (onRing r (fun x => { x with accepted := rest }) { s with cmds := s.cmds ++ [c] })))

/-- TIMETABLE_SELECT, SHAPER_SET, ATTEST with its timeout, FULL_RESET and an entry of no opcode complete (R160, R393, R439,
R490, R494, R551). -/
def Obligations.DeviceCommandsComplete : Prop :=
  Claims.DeviceCommandsRun ∧ Claims.AttestTimeoutCompletes ∧ Claims.BadOpcodeCompletes

/-- PITCH_BIND takes a CLEAN pitch to AWAITING with its tenant and the next epoch; PITCH_RELEASE starts a release, or joins
the one that runs (R468, R469, R481, R483). -/
def Sys2Proof.Claims.PitchCommandsRun : Prop :=
  (∀ r e s c t, started .pitchBind r e s = some (c, t) →
    let p := fieldOf c.entry 0x10 1
    p ≤ 15 → laidOut t p = true → zeroAt c.entry 0x11 7 = true → zeroAt c.entry 0x38 8 = true → pitchState t p = 0 →
    Works (.pitchBind r e) s (complete c.id .ok 0 (enterPitchState p 1 (wr .secPitchTenantTenantId p (fieldOf c.entry 0x18 32)
      (wr .secPitchStateEpoch p (rd t .secPitchStateEpoch p + 1) t)))))
  ∧ (∀ r e s c t, started .pitchRelease r e s = some (c, t) →
    let p := fieldOf c.entry 0x10 1
    p ≤ 15 → laidOut t p = true → zeroAt c.entry 0x11 47 = true → pitchState t p ≠ 0 → releaseOf t p = none →
    let x : Release :=
      { pitch := p, startAt := t.localTime, startOrder := t.order, drained := false, scrubbed := false, waiters := [c.id] }
    Works (.pitchRelease r e) s (recallPitch p (cancelFlash p (closePitch p (wr .secPitchStateUntrusted p 0
      { startedCmd c.id t with releases := t.releases ++ [x] })))))
  ∧ (∀ r e s c t x, started .pitchRelease r e s = some (c, t) →
    let p := fieldOf c.entry 0x10 1
    p ≤ 15 → laidOut t p = true → zeroAt c.entry 0x11 47 = true → pitchState t p ≠ 0 → releaseOf t p = some x →
    let join := fun (y : Release) => { y with waiters := y.waiters ++ [c.id] }
    Works (.pitchRelease r e) s { startedCmd c.id t with releases := upd (fun y => y.pitch == p) join t.releases })

/-- The steps of a release follow one another: drained, its held packets are refused, its revoked windows closed, its key and
with it its flash copies erased, and it is SCRUBBING; scrubbed, step 6 waits for leases; with no lease left the pitch is
CLEAN, an event says so, and the releases complete (R477, R483, R484). -/
def Sys2Proof.Claims.ReleaseStepsFollow : Prop :=
  (∀ p s x, Up s → pitchOk p = true → releaseOf s p = some x → x.drained = false →
    let u := each (pitchConns s p) refuseHeld s
    let v := each ((u.windows.filter (fun w => w.pitch == p && w.revoking)).map (fun w => w.index)) closeWindow u
    let w := wr .secPitchStateStep p 5 (enterPitchState p 4 (cryptoErase p
      { v with releases := upd (fun r => r.pitch == p) (fun r => { r with drained := true }) v.releases }))
    Works (.releaseDrainDone p) s w ∧ rd w .secPitchStateState p = 4 ∧ rd w .secPitchStateStep p = 5
      ∧ w.flashKeys.any (fun k => k.1 == p) = false ∧ w.crates.any (fun c => c.pitch == p && c.flash.isSome) = false)
  ∧ (∀ p s x, Up s → pitchOk p = true → releaseOf s p = some x → x.drained = true → x.scrubbed = false →
    let u := wr .secPitchStateStep p 6 (scrub p
      { s with releases := upd (fun r => r.pitch == p) (fun r => { r with scrubbed := true }) s.releases })
    Works (.pitchScrubDone p) s u ∧ rd u .secPitchStateStep p = 6 ∧ u.crates.any (fun c => c.pitch == p) = false
      ∧ u.seqs.any (fun q => q.pitch == p) = false ∧ u.tables.any (fun t => t.pitch == p) = false)
  ∧ (∀ p s x, Up s → pitchOk p = true → releaseOf s p = some x → x.scrubbed = true → coreThere s 0 = true →
    s.leases.any (fun l => l.pitch == p) = false →
    let epoch := (rd s .secPitchStateEpoch p + 1) % 4294967296
    let u := cleanPitch p x s
    Works (.pitchClean p) s (each x.waiters (fun id s => complete id .ok 0 s)
        (postEvent 0 0x0040 (srcCore 0) (leBytes 1 p ++ leBytes 3 0 ++ leBytes 4 epoch) u))
      ∧ rd u .secPitchStateState p = 0 ∧ rd u .secPitchStateEpoch p = epoch ∧ rd u .secPitchTenantTenantId p = 0
      ∧ rd u .secPitchStateVolatile p = 0 ∧ releaseOf u p = none)

/-- PITCH_BIND, PITCH_RELEASE and the steps of a release complete (R467 to R469, R477, R481, R483, R484). -/
def Obligations.PitchesBoundAndReleased : Prop := Claims.PitchCommandsRun ∧ Claims.ReleaseStepsFollow

/-! What the block's engines come to. -/

/-- SEAL_CRATE_WRITTEN gives the seal of a full barrow slot its crate, where the page reads and the pitch has space on the
page's stack: the page quantised, its tables chosen, its blocks coded; without space the seal waits; a page that does not
read abandons the seal and the sequence is DAMAGED. Of an import, the pages before it and its own are taken first, and its
page sealed once its data is there. SEAL_SWAP puts the crate of the next page into the page table and counts it sealed; under
policy 0 the crate is wanted in flash (R71, R72, R74, R78, R255). -/
def Obligations.SealStepsComplete : Prop :=
  (∀ id r s x q v, Up s → r.wf = true → s.seals.find? (fun y => y.id == id) = some x → seqOf s x.seq = some q → x.crate = none →
    x.fromSlot = true →
    (structFinding r s = (true, v) → Works (.sealCrateWritten ⟨id, r⟩) s (sealPage x q x.toks v))
    ∧ (structFinding r s = (false, v) → Works (.sealCrateWritten ⟨id, r⟩) s (damage q.uid
        (abandonSeals (fun y => y.seq == q.uid && y.layer == x.layer && y.fromSlot && y.crate.isNone) v))))
  ∧ (∀ id r s x q, Up s → r.wf = true → s.seals.find? (fun y => y.id == id) = some x → seqOf s x.seq = some q → x.crate = none →
    x.fromSlot = false →
    let u := each (importBefore s x) takeImportPage s
    (∀ y, u.seals.find? (fun z => z.id == id) = some y → y.toks ≠ [] →
      Works (.sealCrateWritten ⟨id, r⟩) s (sealPage y q y.toks u))
    ∧ ((∀ y, u.seals.find? (fun z => z.id == id) = some y → y.toks = []) → Works (.sealCrateWritten ⟨id, r⟩) s u))
  ∧ (∀ x q toks s,
    let page := globalPage q x.page
    let stack := stackOf s q.pitch page
    let body := quantPage q.shape toks
    let k := newCrate q s.order x.layer page stack s.localTime body []
    let u := sealPage x q toks s
    (areaFree s q.pitch stack < charge k → u = s)
    ∧ (charge k ≤ areaFree s q.pitch stack → ∃ c, u.crates = s.crates ++ [c] ∧ c.id = s.order ∧ c.pitch = q.pitch
      ∧ c.layer = x.layer ∧ c.page = page ∧ c.stack = stack ∧ c.body = body ∧ c.dram.isSome = true
      ∧ c.dir = (codeBody q.pitch q.shape body s).1
      ∧ u.seals = upd (fun y => y.id == x.id) (fun y => { y with crate := some c.id, toks := [] }) s.seals))
  ∧ (∀ id s x q k l, Up s → s.seals.find? (fun y => y.id == id) = some x → x.crate = some k → seqOf s x.seq = some q →
    layerOf q x.layer = some l → l.sealed = x.page →
    let pages := if x.page < l.pages.length then setAt l.pages x.page (fun _ => some k)
      else l.pages ++ List.replicate (x.page - l.pages.length) none ++ [some k]
    let kept := { l with
      pages := pages, sealing := s.seals.any (fun y => y.id != id && y.seq == x.seq && y.layer == x.layer), sealed := l.sealed + 1 }
    let b := slotOf l l.cur
    let freed := { b with toks := [], stale := decide (0 < b.readers), alloc := decide (0 < b.readers) }
    let m := if x.fromSlot then { putSlot l.cur freed kept with cur := 1 - l.cur } else kept
    let u := onSeq x.seq (fun q => { q with
      layers := setAt q.layers x.layer (fun _ => m),
      import_ := if x.fromSlot then q.import_ else q.import_.map (fun i => { i with pagesLeft := i.pagesLeft - 1 }) })
      { s with seals := drop (fun y => y.id == id) s.seals }
    Works (.sealSwap id) s (if rd u .pitchTierCfgPolicy q.pitch = 0 then wantFlash 1 k u else u))

/-- At a TILE_BOUNDARY the pass of the context that runs has ended. Where its barrow slot or its crate read, the pass is
counted and the context goes on to the next; a barrow slot that did not read is lost to its ATTENDs, a crate's copy that did
not read is dropped and read again; the stall is free and its dispatcher chooses (R151, R152, R271, R313). -/
def Sys2Proof.Claims.TileBoundaryCompletes : Prop :=
  ∀ k o s v x w t, Up s → stallOk k = true → o.read.wf = true → (stallAt s k).running.bind (ctxOf s) = some x → x.work = some w →
    nextTile x = some t → x.done = false →
    let y := advanceCtx w x
    let free := fun (z : State) => schedule k (onStall k (fun a => { a with running := none }) z)
    let counted := fun (z : State) => onCtx x.id (fun _ => y) (countPass k x w t (firstTile w.cmd z))
    let go := fun (z : State) => free (if y.tile ≠ x.tile then reachTile x.id z else z)
    (∀ j b, t.src = .barrow j b →
      (structFinding o.read s = (true, v) → Works (.tileBoundary k o) s (go (counted v)))
      ∧ (structFinding o.read s = (false, v) → Works (.tileBoundary k o) s (free (barrowLost w v))))
    ∧ (∀ id h, t.src = .crate id h →
      let u := countStarve (((crateOf s id).map (fun c => c.stack)).getD 0) o s
      (readFinding id (tileTier u t) o.read u = (true, v) →
        Works (.tileBoundary k o) s (go (endReserve id (onCrate id (fun c => { c with lastUse := (counted v).localTime }) (counted v)))))
      ∧ (readFinding id (tileTier u t) o.read u = (false, v) → Works (.tileBoundary k o) s (free v)))
    ∧ (t.src = .awaitSwap → Works (.tileBoundary k o) s (free s))

/-- RUN_COMPLETE hands every run of the finished context to the weigher, and the stall goes on (R126, R149). -/
def Sys2Proof.Claims.RunCompletes : Prop :=
  ∀ k s x w, Up s → stallOk k = true → (residents s k).find? (fun x => x.done) = some x → x.work = some w →
    Works (.runComplete k) s (schedule k (nextRun k x (each w.runs (deliverRun w.cmd) s)))

/-- ATTEND_RESULT writes every output and the status records where no window refuses and no line is snooped, counts every
part, and completes with the first status that is not OK and the number of OK parts; with a line that a host half holds it
waits for the snoop; a window that refuses ends it with that status, its parts counted; at a stripe's member the part goes
to the lead (R95, R99, R100, R124, R132). -/
def Sys2Proof.Claims.AttendResultCompletes : Prop :=
  (∀ id s a c, Up s → s.attends.find? (fun a => a.cmd == id) = some a → cmdOf s id = some c → a.listed = true →
    a.parts.all partReady = true → a.lead = none →
    let ws := attendWrites s a
    let places := ws.map (fun w => locate s c.ring a.outWin (a.outOffset + w.1) w.2.length true)
    let counted := fun (z : State) => each a.parts (fun p s => countPart a (partShape s p) p s) z
    let gone := fun (z : State) => { z with attends := drop (fun b => b.cmd == id) z.attends }
    let held := (places.zip ws).filterMap (fun x => match x.1 with
      | .ok (.dram p o) => if mustSnoop s p o x.2.2.length true then some (p, o, x.2.2.length) else none
      | _ => none)
    let put := fun (x : Except Status Place × (Nat × Bytes)) (s : State) => match x.1 with
      | .ok pl => resultWrite id pl x.2.2 s
      | .error _ => s
    let u := counted (each (places.zip ws) put s)
    (worstCheck places = none → held = [] →
      Works (.attendResult id) s (writeTrace
        { pitch := a.pitch, ring := c.ring, tag := c.tag, accepted := c.at_, listed := a.listedAt,
          first := a.firstAt.getD a.listedAt, merged := a.mergedAt, done := u.localTime }
        (finish id (attendStatus a) (countBy (fun (p : Part) => p.status.isNone) a.parts) (gone u))))
    ∧ (worstCheck places = none → held ≠ [] →
      Works (.attendResult id) s (onCmd id (fun x => { x with wait := .snoop }) (each held (fun x => snoop x.1 x.2.1 x.2.2) s)))
    ∧ (∀ st, worstCheck places = some st → Works (.attendResult id) s (complete id st 0 (gone (counted s)))))
  ∧ (∀ id s a c, Up s → s.attends.find? (fun a => a.cmd == id) = some a → cmdOf s id = some c → a.listed = true →
    a.parts.all partReady = true → a.lead.isSome = true → Works (.attendResult id) s (memberResult a c s))

/-- ATTEND starts, and its result is written and completes it (R90, R91, R95, R98 to R100, R124, R132, R239). -/
def Obligations.AttendCommandsComplete : Prop := Claims.AttendStarts ∧ Claims.AttendResultCompletes

/-- A context whose save ends stands in its save slots, counted by its reason; one whose restore ends is resident again,
or, where its save record was unreadable, its runs start again (R163, R165, R169). -/
def Sys2Proof.Claims.ContextMovesComplete : Prop :=
  (∀ id s x k, Up s → ctxOf s id = some x → x.place = .saving k →
    let u := countSaveTime x (onCtx id (fun y => { y with place := .saved k, savedOrder := s.order }) (ordered s))
    (x.why = .preempt → Works (.contextSaveDone id) s (scheduleAll (onTill x.pitch x.cls
      (fun t => { t with preempts := (t.preempts + 1) % 2 ^ 32 }) (bump .stallCtxStatSavesPreempt k 1 u))))
    ∧ (x.why = .handover → Works (.contextSaveDone id) s (scheduleAll (onTill x.pitch x.cls
      (fun t => { t with preempts := (t.preempts + 1) % 2 ^ 32 }) (bump .stallCtxStatSavesHandover k 1 u))))
    ∧ (x.why = .blocked → Works (.contextSaveDone id) s (scheduleAll (onTill x.pitch x.cls
      (fun t => { t with swaps := (t.swaps + 1) % 2 ^ 32 }) (bump .stallCtxStatSavesBlocked k 1 u)))))
  ∧ (∀ id s x k, Up s → ctxOf s id = some x → x.place = .restoring k →
    let u := bump .stallCtxStatRestores k 1 (onCtx id (fun y => { y with place := .resident k }) (countSaveTime x s))
    Works (.contextRestoreDone id true) s (scheduleAll (if (stallAt u k).cls = x.cls then u else startSave k .handover id u))
    ∧ Works (.contextRestoreDone id false) s (scheduleAll (restartRuns x
        (report srcHall .saveRecord sevContained (some x.pitch) (countSaveTime x s)))))

/-- A SLOT_BOUNDARY comes at the end of the slot's duration: the next slot, or after the last one a new cycle from slot 0,
at whose boundary selections take effect (R155, R157, R160). -/
def Sys2Proof.Claims.SlotBoundaryCompletes : Prop :=
  ∀ s t, Up s →
    let k := rd s .hallTtStatusSlot 0
    let at_ := s.slotStart + 10000 * t.duration
    (ttTable s)[k]? = some t →
    let u := { reach at_ s with slotStart := at_ }
    Works .slotBoundary s (enterSlot (if k + 1 < (ttTable s).length then wr .hallTtStatusSlot 0 (k + 1) u
      else wr .hallTtStatusSlot 0 0 (endCycle at_ u)))

/-- At GRACE_EXPIRY a context of the old class that is still on its stall is stopped with cause handover; one that has ended
or left is not (R157). -/
def Sys2Proof.Claims.GraceExpiryCompletes : Prop :=
  ∀ k s id d, Up s → stallOk k = true → leastBy (fun g => g.2) (stallAt s k).grace = some (id, d) →
    let u := onStall k (fun x => { x with grace := drop (fun g => g.1 == id) x.grace }) (reach d s)
    (∀ x, ctxOf u id = some x → x.place = .resident k → x.done = false →
      Works (.graceExpiry k) s (schedule k (stopCtx k .handover id u)))
    ∧ ((∀ x, ctxOf u id = some x → x.place = .resident k → x.done = true) → Works (.graceExpiry k) s u)

/-- STALL_FAIL retires a stall: it reports DEGRADED, its runs and its queue go to other stalls, and classes left without a
stall are announced (R156, R169). -/
def Sys2Proof.Claims.StallFailCompletes : Prop :=
  ∀ k s, Up s → stallOk k = true → stallRetired s k = false →
    let s1 := report (srcStall k) .stallFailed sevDegraded (some (stallPitch s k)) s
    let s2 := wr .hallStallRetiredRetired 0 (rd s1 .hallStallRetiredRetired 0 ||| 2 ^ k) s1
    let s3 := onStall k (fun _ => Stall.idle) s2
    let s4 := each (s3.ctxs.filter (fun x => x.place == .resident k || x.place == .saving k)) restartRuns s3
    let s5 := { s4 with ctxs := s4.ctxs.map (fun x => if x.place = .restoring k then { x with place := .saved k } else x) }
    let s6 := each (stallAt s2 k).queue placeWork s5
    Works (.stallFail k) s (scheduleAll (sayStarved ((starvedClasses s6).filter (fun x => !((starvedClasses s).contains x))) s6))

/-- The events of the stalls complete: tile boundaries, runs, contexts, the timetable, a failing stall (R126, R149 to R157,
R160, R163 to R169, R271, R313). -/
def Obligations.StallEventsComplete : Prop :=
  Claims.TileBoundaryCompletes ∧ Claims.RunCompletes ∧ Claims.ContextMovesComplete ∧ Claims.SlotBoundaryCompletes ∧
    Claims.GraceExpiryCompletes ∧ Claims.StallFailCompletes

/-- FETCH_SCHEDULE_START queues the hinted fetches of every layer at the plan's start time; FETCH_DONE brings a readable copy
into tier 1, and an unreadable one fails its fetch; a copy of another device is unpacked with the tables that its blocks name,
and one that does not decode fails with a report (R240 to R246, R271, R317, R318). -/
def Obligations.FetchesComplete : Prop :=
  (∀ uid s q h, Up s → seqOf s uid = some q → q.hint = some h → q.planned = false → q.nextHint ≠ 0 →
    Works (.fetchScheduleStart uid) s (each (List.range q.layers.length) (fun j s =>
      each (layerBelow s q j) (fun c => queueFetch .hinted j (h.next + j * h.gap) c.id) s)
      (onSeq uid (fun q => { q with planned := true }) (reach (planStart s q h) s))))
  ∧ (∀ id o s t c f, Up s → o.wf = true → crateOf s id = some c → c.fetch = some f → f.started = true → f.tier ≠ 4 →
    readFinding id f.tier o s = (true, t) → Works (.fetchDone id o) s (placeFetched id t))
  ∧ (∀ id o s t c f, Up s → o.wf = true → crateOf s id = some c → c.fetch = some f → f.started = true → f.tier ≠ 4 →
    readFinding id f.tier o s = (false, t) →
    Works (.fetchDone id o) s (fetchFails id (onCrate id (fun c => { c with fetch := some f, reserve := true }) t)))
  ∧ (∀ id o s c f, Up s → o.wf = true → crateOf s id = some c → c.fetch = some f → f.started = true → f.tier = 4 →
    cameBack o = false → Works (.fetchDone id o) s (fetchFails id s))
  ∧ (∀ id o s c f x, Up s → o.wf = true → crateOf s id = some c → c.fetch = some f → f.started = true → f.tier = 4 →
    cameBack o = true → s.reads.find? (fun x => x.want == .crate id) = some x → x.done = true →
    s.pendingTables.any (fun t => t.1 == id && t.2.2.isNone) = false →
    let bs := readBytes x
    (packIndex c.shape bs = none → Works (.fetchDone id o) s (fetchFails id s))
    ∧ (∀ l refs, packIndex c.shape bs = some (l, refs) →
      let lens := fun (i g : Nat) => (refs.find? (fun r => r.1 == i && r.2.1 == g)).bind (fun r => fetchedLengths s c r.2.2)
      let m := mapTables c l refs s
      (∀ body, unpackBody c.shape bs lens = some body →
        let take := fun (c : Crate) => { c with body := body, dir := m.1, packDir := m.1, digest := (bs.drop 8).take 8 }
        Works (.fetchDone id o) s (placeFetched id (onCrate id take { m.2 with reads := drop (fun y => y.id == x.id) m.2.reads })))
      ∧ (unpackBody c.shape bs lens = none →
        Works (.fetchDone id o) s (fetchFails id (reportAt c.stack .decodeFailure sevContained (some c.pitch)
          (((List.range l.length).find? (fun i => (unpackBlock c.shape bs lens i).isNone)).getD 0) s)))))

/-- A placed fetch leaves its crate with a tier-1 copy, coded as its packed copy is and no dependant, and no fetch; it counts
against the reserve until the runs that named it have read it, and in FETCHES (R242, R245, R310, R316). -/
def Obligations.FetchedCrateIsInDram : Prop :=
  ∀ id s c, crateOf s id = some c →
    ∃ k, crateOf (placeFetched id s) id = some k ∧ k.dram.isSome = true ∧ k.fetch = none
      ∧ (c.fetch.map (fun f => f.kind) ≠ some .demand → k.reserve = true)
      ∧ k.body = c.body ∧ k.dir = c.packDir ∧ k.base = none ∧ k.rebasing = false ∧ k.arrived = s.localTime

/-- EVICTION_COPY_DONE gives a crate its handle on a lease or in flash, and its DRAM copy up unless it is pinned; a crate with a
lower copy only gives its DRAM copy up; a copy that does not read, whose lease is gone, or that finds no zone moves nothing
(R236, R250, R254, R267, R271, R273). -/
def Sys2Proof.Claims.EvictionCopiesComplete : Prop :=
  (∀ id o s c, Up s → o.wf = true → crateOf s id = some c → c.copying = .dropDram →
    Works (.evictionCopyDone id o) s (dropDram id (onCrate id (fun c => { c with copying := .none }) s)))
  ∧ (∀ id o s c l, Up s → o.wf = true → crateOf s id = some c → c.copying = .toLease l →
    let s1 := onCrate id (fun c => { c with copying := .none }) s
    (s.leases.find? (fun x => x.id == l && x.st == .live) = none → Works (.evictionCopyDone id o) s s1)
    ∧ (∀ x t, s.leases.find? (fun x => x.id == l && x.st == .live) = some x → readFinding id 1 o s1 = (false, t) →
      Works (.evictionCopyDone id o) s t)
    ∧ (∀ x t, s.leases.find? (fun x => x.id == l && x.st == .live) = some x → readFinding id 1 o s1 = (true, t) →
      let u := standalone id t
      let h : Handle := { newHandle u c 2 with device := ((peerPlan u x.peer).map (fun q => q.deviceId)).getD 0 }
      let v := onCrate id (fun c => { c with lease := some (h, l) }) (freshen u)
      Works (.evictionCopyDone id o) s (if c.pinned then v else dropDram id v)))
  ∧ (∀ id o s c, Up s → o.wf = true → crateOf s id = some c → c.copying = .toFlash → stageOn s 2 = false →
    (c.origin.isSome = true ∨ flashRoom s c = true) →
    let s1 := onCrate id (fun c => { c with copying := .none }) s
    let tier := if inDram c then 1 else 2
    let body := fun (t : State) => if tier = 1 then standalone id t else t
    (∀ t, readFinding id tier o s1 = (false, t) → Works (.evictionCopyDone id o) s t)
    ∧ (∀ t, readFinding id tier o s1 = (true, t) → programFlash id (body t) = none →
      Works (.evictionCopyDone id o) s (onCrate id (fun c => { c with copying := .toFlash }) t))
    ∧ (∀ t u, readFinding id tier o s1 = (true, t) → programFlash id (body t) = some u →
      let v := markDurable id (onCrate id Crate.noLease u)
      Works (.evictionCopyDone id o) s (if c.lease.isSome ∨ c.pinned then v else dropDram id v)))

/-- PROMOTION_DONE gives a crate of tier 1 its tier-0 copy; RECODE_DONE stores it as differences from its base where a block
gains; REBASE_DONE stores it standalone again and counts REBASED. A crate, or a base, that has left tier 1 or does not read
is left as it is (R237, R271, R308, R310, R319). -/
def Sys2Proof.Claims.CrateRecodingsComplete : Prop :=
  (∀ id o s c, Up s → o.wf = true → crateOf s id = some c → c.promoting = true →
    let s1 := onCrate id (fun c => { c with promoting := false }) s
    (inDram c = false → Works (.promotionDone ⟨id, o⟩) s s1)
    ∧ (∀ t, inDram c = true → readFinding id 1 o s1 = (false, t) → Works (.promotionDone ⟨id, o⟩) s t)
    ∧ (∀ t, inDram c = true → readFinding id 1 o s1 = (true, t) →
      Works (.promotionDone ⟨id, o⟩) s (onCrate id (fun k => { k with hall := if inDram k then some (newHandle t c 0) else none })
        (freshen t))))
  ∧ (∀ id o ob s c b, Up s → o.wf = true → ob.wf = true → crateOf s id = some c → c.recoding = some b → stageOn s 2 = false →
    let s1 := onCrate id (fun c => { c with recoding := none }) s
    (crateOf s1 b = none → Works (.recodeDone ⟨id, o, ob⟩) s s1)
    ∧ (∀ base, crateOf s1 b = some base →
      let fit := inDram c && inDram base && base.base.isNone && c.base.isNone && !(isBase s1 id) && c.copying == .none
      let x := readFinding b (if base.hall.isSome then 0 else 1) ob s1
      let y := readFinding id 1 o x.2
      (fit = false → Works (.recodeDone ⟨id, o, ob⟩) s s1)
      ∧ (fit = true → (x.1 && y.1) = false → Works (.recodeDone ⟨id, o, ob⟩) s y.2)
      ∧ (fit = true → x.1 = true → y.1 = true →
        let r := deltaBody c.pitch c.shape c.body base.body c.dir y.2
        let store := fun (k : Crate) =>
          { k with packDir := k.dir, dir := r.1, base := some b, dram := some (newHandle r.2 c 1), leaving := k.left k.dram.toList }
        Works (.recodeDone ⟨id, o, ob⟩) s (if r.1.any (fun d => d.mode == 2) then
          countBlocks c.pitch (r.1.filter (fun d => d.mode == 2)) (onCrate id store (freshen r.2)) else y.2))))
  ∧ (∀ id o s c t, Up s → o.wf = true → crateOf s id = some c → c.rebasing = true → c.base.isSome = true →
    (readFinding id 1 o s = (false, t) → Works (.rebaseDone ⟨id, o⟩) s t)
    ∧ (readFinding id 1 o s = (true, t) →
      let r := codeBody c.pitch c.shape c.body t
      let store := fun (k : Crate) =>
        { k with rebasing := false, base := none, dir := r.1, packDir := if lowerCopy k then k.packDir else r.1,
                 dram := some (newHandle r.2 c 1), leaving := k.left k.dram.toList }
      Works (.rebaseDone ⟨id, o⟩) s (bump .pitchDeltaStatRebased c.pitch 1 (countBlocks c.pitch r.1 (onCrate id store (freshen r.2))))))

/-- The copies and codings of crates complete: evictions, promotion, recoding, rebasing (R236, R237, R250, R254, R267, R271,
R273, R308, R310, R319). -/
def Obligations.CrateEventsComplete : Prop := Claims.EvictionCopiesComplete ∧ Claims.CrateRecodingsComplete

/-- FLASH_COPY_WRITTEN reads a waiting copy that the budget allows, from DRAM or from its lease, and programs it where a zone
takes it; GC_ZONE_DONE moves the live copies of its victim and erases it; CATALOGUE_REPLAY_DONE asks for the holds of the
catalogue again, brings the pitch's tables, sequences and records back and counts the time in REPLAY_MS (R255, R259, R264,
R271, R315). -/
def Obligations.FlashEventsComplete : Prop :=
  (∀ id o s c, Up s → o.wf = true → crateOf s id = some c → c.flashWanted ≠ 0 → c.flash = none →
    (inDram c = true ∨ c.lease.isSome = true) → flashAllowed s c = true → heldBehind s id = false →
    let tier := if inDram c then 1 else 2
    let body := fun (t : State) => if inDram c then standalone id t else t
    (∀ t, readFinding id tier o s = (false, t) → Works (.flashCopyWritten id o) s t)
    ∧ (∀ t, readFinding id tier o s = (true, t) → programFlash id (body t) = none → Works (.flashCopyWritten id o) s t)
    ∧ (∀ t u, readFinding id tier o s = (true, t) → programFlash id (body t) = some u →
      Works (.flashCopyWritten id o) s (markDurable id u)))
  ∧ (∀ p z lost s x, Up s → pitchOk p = true → s.zones.find? (fun y => y.pitch == p && y.id == z) = some x → isVictim s x = true →
    gcRuns s p = true →
    let move := fun (acc : Bool × State) (id : Nat) =>
      if lost.contains id then (acc.1, dropCopyOf id 3 (bump .flashHealthUncorrectable 0 1 acc.2)) else
      match crateOf acc.2 id with
      | none => acc
      | some c => match appendZone 2 p (placeOf acc.2 c (newHandle acc.2 c 3)) acc.2 with
        | none => (false, acc.2)
        | some u => (acc.1, spendFlash (packSize c.shape c.packDir)
          (onCrate id (fun k => { k with flash := some (newHandle acc.2 c 3) }) (freshen u)))
    let r := (liveIn s x).foldl move (true, s)
    (r.1 = true → Works (.gcZoneDone p z lost) s (bump .flashWearGcZones p 1 (putZone
      { x with state := 0, crates := [], places := [], units := 0, erases := x.erases + 1, marked := false,
               blocks := x.blocks.map (fun b => (b.1, b.2.1, 0)), old := false } r.2)))
    ∧ (r.1 = false → Works (.gcZoneDone p z lost) s s))
  ∧ (∀ p ms failed s, Up s → pitchOk p = true → s.replaying.contains p = true →
    let cat := ((s.catalogue.find? (fun x => x.1 == p)).map (fun x => x.2)).getD Catalogue.empty
    let ask := fun (h : MyHold) (s : State) => match peerOfDevice s h.device with
      | some q => tell q (.holdAsk h.pitch h.record) s
      | none => s
    let u := each cat.holds ask (reach (s.bootedAt + ms * 1000000) s)
    let granted := cat.holds.filter (fun h => !(failed.contains (h.device, h.pitch, h.record)))
    let back := fun (t : CodeTable) => { t with restored := true, risen := false, current := false }
    let v := each cat.records (replayRecord failed cat.holds) (each cat.seqs (replaySeq failed cat.holds)
      { u with myHolds := u.myHolds ++ granted, tables := u.tables ++ cat.tables.map back })
    let w := raiseTo .secBootReplayMs 0 (min ms 65535) { v with replaying := v.replaying.erase p }
    Works (.catalogueReplayDone p ms failed) s (if w.replaying.isEmpty then wr .secBootStage 0 8 w else w))

/-! Leases between devices. -/

/-- A lender grants the last granule that it may lend while LEND_GIB, its crate area and the stage allow it, and opens a window
over it; else it refuses (R266, R267). -/
def Sys2Proof.Claims.LeaseAskAnswered : Prop :=
  ∀ q p' p s, Up s → peerOk q = true → pitchOk p' = true → pitchOk p = true →
    let may := sameMarket s q && !(stageOn s 1) && rd s .secPitchStateState p == 2
      && decide (lentCount s p < rd s .pitchTierCfgLendGib p)
      && decide (dramUsed s p + gib * (lentCount s p + 2) < gib * rd s .pitchTierCapCrateGib p)
    let free := ((List.range (pitchPlan s p).granules.length).filter (mayLend s p)).getLast?
    let window := fun (g : Nat) =>
      newWindow p 0 3 (((connsOfPeer s q).find? (fun c => connOfPitch s c p)).getD 0xFFFF) noChit (g * gib) gib
    (∀ g h u, may = true → free = some g → openWindow (window g) s = some (h, u) →
      let l : Lease :=
        { id := u.order, lent := true, peer := q, pitch := p, window := h, granule := g, st := .live, deadline := 0 }
      Works (.leaseAsk q p' p) s (tell q (.leaseGrant h) { ordered u with leases := u.leases ++ [l] }))
    ∧ (∀ g, may = true → free = some g → openWindow (window g) s = none → Works (.leaseAsk q p' p) s (tell q .leaseRefuse s))
    ∧ ((may = false ∨ free = none) → Works (.leaseAsk q p' p) s (tell q .leaseRefuse s))

/-- LEASE_GRANT makes the asked lease live under the window granted; LEASE_REFUSE forgets it; a LEASE_RETURN starts giving a
live one back (R267, R269). -/
def Sys2Proof.Claims.BorrowedLeaseEvents : Prop :=
  (∀ q p w s, Up s → peerOk q = true → pitchOk p = true →
    let give := fun (l : Lease) => { l with st := .live, window := w }
    Works (.leaseGrant q p w) s
      { s with leases := upd (fun l => !l.lent && l.peer == q && l.pitch == p && l.st == .asked) give s.leases })
  ∧ (∀ q p s, Up s → peerOk q = true → pitchOk p = true →
    Works (.leaseRefuse q p) s
      { s with leases := drop (fun l => !l.lent && l.peer == q && l.pitch == p && l.st == .asked) s.leases })
  ∧ (∀ id s, Up s →
    let leave := fun (l : Lease) => { l with st := .returning }
    Works (.leaseReturn id) s { s with leases := upd (fun l => l.id == id && !l.lent && l.st == .live) leave s.leases })

/-- A recalled borrower has 50 ms; a released, dropped or overdue lent lease ends at the lender with its window closed and
its granule zeroed, and what an overdue borrower has not moved is lost (R267, R273, R485). -/
def Sys2Proof.Claims.LeaseEndsComplete : Prop :=
  (∀ q w s l, Up s → peerOk q = true → s.leases.find? (fun l => !l.lent && l.peer == q && l.window == w && l.st == .live) = some l →
    let d := s.localTime + 50000000
    let due := fun (x : Lease) => { x with st := .recalled, deadline := d }
    let u := bump .hallLeaseRecalls 0 1 { s with leases := upd (fun x => x.id == l.id) due s.leases }
    Works (.leaseRecall q w) s (postTo [0, l.pitch + 1] 0x0010 srcPedlar
      (leBytes 1 l.pitch ++ leBytes 1 0 ++ leBytes 2 (((peerPlan u q).map (fun r => r.deviceId)).getD 0) ++ leBytes 4 (d / 1000)) u))
  ∧ (∀ id s l, Up s → leaseOf s id = some l → l.lent = true →
    let u := zeroGranule l.pitch l.granule (closeWindow (bits l.window 0 18) { s with leases := drop (fun x => x.id == id) s.leases })
    Works (.leaseRelease id) s u ∧ Works (.recallDrop id) s (tell l.peer (.recallDropDone l.window) u))
  ∧ (∀ id s l, Up s → leaseOf s id = some l → l.st = .recalled →
    let u := bump .hallLeaseDeadlineMissed 0 1 (reach l.deadline s)
    Works (.leaseRecallDeadline id) s (if l.lent then endLent id u else loseLease id u))
  ∧ (∀ q s, Up s → peerOk q = true → (peerOf s q).reachable = false →
    let u := reach ((peerOf s q).unreachableSince + 1000000000 * rd s .hallStockCfgOrphan 0) s
    Works (.leaseBorrowerOrphan q) s (each ((u.leases.filter (fun l => l.lent && l.peer == q)).map (fun l => l.id)) endLent u))
  ∧ (∀ id s l, Up s → leaseOf s id = some l → l.st = .dropAsked →
    Works (.recallDropConfirm id) s { s with leases := drop (fun x => x.id == id) s.leases }
    ∧ Works (.recallDropTimeout id) s (trustLapses l.peer 1 (bump .secPitchStateUntrusted l.pitch 1
      (report (srcPort 0) .untrusted sevContained (some l.pitch)
        (reach l.deadline { s with leases := drop (fun x => x.id == id) s.leases })))))

/-- Leases are asked for, granted, refused, recalled, returned and ended (R266, R267, R269, R273, R485). -/
def Obligations.LeaseEventsComplete : Prop := Claims.LeaseAskAnswered ∧ Claims.BorrowedLeaseEvents ∧ Claims.LeaseEndsComplete

/-! The stock book, holds, tables and stripes. -/

/-- A STOCK_PROBE of this epoch is answered with the entry this device holds; a probe of another epoch with no entry, counted
in EPOCH_MISS (R194, R199, R202). -/
def Sys2Proof.Claims.StockProbeAnswered : Prop :=
  (∀ q scope key s e, Up s → peerOk q = true → localEntry s scope key = some e →
    Gives (.stockProbe q (rd s .hallStockCfgEpoch 0) scope key) s (tell q (.probeAnswer (some e)) s))
  ∧ (∀ q scope key s, Up s → peerOk q = true → localEntry s scope key = none →
    Gives (.stockProbe q (rd s .hallStockCfgEpoch 0) scope key) s (tell q (.probeAnswer none) s))
  ∧ (∀ q n scope key s, Up s → peerOk q = true → n ≠ rd s .hallStockCfgEpoch 0 →
    Gives (.stockProbe q n scope key) s (tell q (.probeAnswer none) (bump .hallStockStatEpochMiss 0 1 s)))

/-- The home decides an insert and answers it: BUSY for another epoch, a new entry while the store has room, and for a key it
has a further copy, the copy of the same pitch, or the entry that differs. It takes a drop of its epoch and answers a drop of
another as busy, and marks a copy durable (R195, R198, R215, R216, R220, R223). -/
def Sys2Proof.Claims.HomeEventsComplete : Prop :=
  (∀ q n e k s, Up s → peerOk q = true →
    let ends := fun (a : InsertAnswer) (u : State) => Works (.stockInsert q n e k) s (tell q (.insertAnswer a) u)
    let here := n = rd s .hallStockCfgEpoch 0 ∧ homeOf s e.key = some (deviceId s)
    (n ≠ rd s .hallStockCfgEpoch 0 → ends .busy s)
    ∧ (n = rd s .hallStockCfgEpoch 0 → homeOf s e.key ≠ some (deviceId s) → ends .peerLost s)
    ∧ (here → entryIn s.homes e.scope e.key = none → s.homes.length < s.plan.stockEntries →
      ends .copyAdded (putHome { e with copies := [some k, none, none, none], pop := 0, hot := decide (rd s .hallStockCfgHotPop 0 = 0) } s))
    ∧ (here → entryIn s.homes e.scope e.key = none → s.plan.stockEntries ≤ s.homes.length → ends .noSpace s)
    ∧ (here → ∀ x, entryIn s.homes e.scope e.key = some x → ends (decideInsert n e k s).1 (decideInsert n e k s).2))
  ∧ (∀ q scope key d p s, Up s → peerOk q = true → pitchOk p = true →
    Works (.stockDrop q (rd s .hallStockCfgEpoch 0) scope key ⟨d, p⟩) s (tell q (.dropAnswer false) (homeDrop scope key d p s)))
  ∧ (∀ q n scope key d p s, Up s → peerOk q = true → pitchOk p = true → n ≠ rd s .hallStockCfgEpoch 0 →
    Works (.stockDrop q n scope key ⟨d, p⟩) s (tell q (.dropAnswer true) s))
  ∧ (∀ scope key d p s, Up s → pitchOk p = true →
    (entryIn s.homes scope key = none → Works (.stockDurableMark scope key d p) s s)
    ∧ (∀ e, entryIn s.homes scope key = some e →
      let mark := fun (x : Copy) => if x.device = d ∧ x.pitch = p then { x with durable := true } else x
      Works (.stockDurableMark scope key d p) s (putHome { e with copies := e.copies.map (Option.map mark) } s)))

/-- Answers of a home reach what asked: a lookup uses the entry of its awaited page or ends, a record settles, a drop counts
the answer and ends with the last, a record whose insert met BUSY is sent again after 1 s or, after ORPHAN seconds, given up
(R195, R202, R214, R220). -/
def Sys2Proof.Claims.StockAnswersComplete : Prop :=
  (∀ id s l, Up s → lookupOf s id = some l → l.tryEntry = none → l.ended = false →
    Works (.stockProbeAnswer id l.at_ none) s (lookupEnd id s)
    ∧ (∀ e, some e.key ≠ l.keys[l.at_]? → Works (.stockProbeAnswer id l.at_ (some e)) s (lookupEnd id s))
    ∧ (∀ e, some e.key = l.keys[l.at_]? →
      Works (.stockProbeAnswer id l.at_ (some e)) s
        (if (useEntry id e s).1 then lookupOn id (useEntry id e s).2 else (useEntry id e s).2)))
  ∧ (∀ id a s, Up s → s.pubs.any (fun r => r.id == id && (r.st == .sent || r.st == .retry)) = true →
    Works (.stockInsertAnswer id a) s (insertAnswered id a s))
  ∧ (∀ id i busy s, Up s →
    let take := fun (d : Drop) => { d with waiting := drop (fun w => w.1 == i) d.waiting,
                                           status := worseDrop d.status (if busy then .busy else .ok) }
    Works (.stockDropAnswer id i busy) s (dropEnd id
      { s with drops := upd (fun d => d.cmd == id && d.waiting.any (fun w => w.1 == i)) take s.drops }))
  ∧ (∀ id s r, Up s → s.pubs.find? (fun r => r.id == id && r.st == .retry) = some r → coreThere s 2 = true →
    let u := reach r.retryAt s
    Works (.insertRetry id) s (if r.since + 1000000000 * rd u .hallStockCfgOrphan 0 ≤ u.localTime then forgetRecord id u
      else sendInsert id u))

/-- What an insert comes to at its publisher: the record stands and its page is ADDED; the page is
another copy's, or none is kept; or the page ends BUSY, NO_SPACE, DUPLICATE_DIFFERS or PEER_LOST; a record that a replay sent anew waits 1 s after BUSY
or PEER_LOST (R195, R198, R214 to R217, R229). -/
def Sys2Proof.Claims.InsertSettles : Prop :=
  ∀ id s r, s.pubs.find? (fun r => r.id == id) = some r →
    let ends := fun (st : Status) (added dedup : Bool) (w : Nat) (s : State) => pageDone r.cmd r.page st added dedup w s
    let count := fun (f : Fld) (s : State) => if r.cmd.isNone then s else bump f r.pitch 1 s
    insertAnswered id .copyAdded s =
      (let s1 := count .pitchPrefixPubPagesAdded
        { s with pubs := upd (fun x => x.id == id) (fun x => { x with st := .standing, cmd := none }) s.pubs }
      let s2 := if r.wantFlash then each r.crates (wantFlash 2) s1 else s1
      reportDurable { r with st := .standing } (markDurable ((r.crates.head?).getD 0) (ends .ok true false nullHandle s2)))
    ∧ (∀ h, insertAnswered id (.dedup h) s =
      (let s1 := match s.pubs.find? (fun x => x.id == h.record && x.pitch == h.pitch) with
        | some x => repoint r.seq r.page x.crates s
        | none => s
      forgetRecord id (count .pitchPrefixPubPagesAdded (ends .ok false true nullHandle s1))))
    ∧ insertAnswered id .okNoSlot s = forgetRecord id (ends .ok false false nullHandle s)
    ∧ insertAnswered id .noSpace s = forgetRecord id (ends .noSpace false false nullHandle s)
    ∧ (∀ k w, insertAnswered id (.differs k w) s =
      forgetRecord id (count .pitchPrefixPubDiffers (ends .duplicateDiffers false false (winnerHere s k w) s)))
    ∧ (r.cmd.isNone = true → insertAnswered id .busy s = retryLater id s ∧ insertAnswered id .peerLost s = retryLater id s)
    ∧ (r.cmd.isNone = false → insertAnswered id .busy s = forgetRecord id (ends .busy false false nullHandle s)
      ∧ insertAnswered id .peerLost s = forgetRecord id (bump .pitchPrefixPubPeerLost r.pitch 1 (ends .peerLost false false nullHandle s)))

/-- The messages of the stock book complete at the home and where it answers to (R194, R195, R198, R199, R202, R214 to R217,
R220, R223, R229). -/
def Obligations.StockEventsComplete : Prop :=
  Claims.StockProbeAnswered ∧ Claims.HomeEventsComplete ∧ Claims.StockAnswersComplete ∧ Claims.InsertSettles

/-- A pushed replica replaces the one of its key, or takes a free place, or displaces the one of lowest POP; a withdrawn one
goes; a report of hits raises POP, or, sent to the homes, clears the counts, and waits under stage A; halving halves every POP
and withdraws the replicas of an entry that is no longer HOT (R199, R200, R224). -/
def Obligations.ReplicaEventsComplete : Prop :=
  (∀ e s, Up s →
    let same := fun (x : StockEntry × Nat) => x.1.scope == e.scope && x.1.key == e.key
    (s.replicas.any same = true → Gives (.replicaPush e) s { s with replicas := upd same (fun x => (e, x.2)) s.replicas })
    ∧ (s.replicas.any same = false → s.replicas.length < s.plan.replicaEntries →
      Gives (.replicaPush e) s { s with replicas := s.replicas ++ [(e, 0)] })
    ∧ (∀ y, s.replicas.any same = false → s.plan.replicaEntries ≤ s.replicas.length →
      leastBy (fun (x : StockEntry × Nat) => x.1.pop) s.replicas = some y →
      Gives (.replicaPush e) s
        { s with replicas := drop (fun x => x.1.scope == y.1.scope && x.1.key == y.1.key) s.replicas ++ [(e, 0)] }))
  ∧ (∀ scope key s, Up s →
    Gives (.replicaWithdraw scope key) s { s with replicas := drop (fun x => x.1.scope == scope && x.1.key == key) s.replicas })
  ∧ (∀ l s, Up s → Gives (.replicaHitReport (some l)) s (each l (fun x => raisePop x.1 x.2.1 x.2.2) s))
  ∧ (∀ s, Up s → stageOn s 1 = true → Gives (.replicaHitReport none) s s)
  ∧ (∀ s, Up s → stageOn s 1 = false →
    let hits := (s.replicas.filter (fun x => decide (0 < x.2))).map (fun x => (x.1.scope, x.1.key, x.2)) ++ s.askedHits
    let home := fun (x : Nat × Bytes × Nat) => (homeOf s x.2.1).bind (servicePeer s)
    let u := each (distinct (hits.filterMap home)) (fun q s => tell q (.hits (hits.filter (fun x => home x == some q))) s) s
    Gives (.replicaHitReport none) s { u with replicas := u.replicas.map (fun x => (x.1, 0)), askedHits := [] })
  ∧ (∀ s, Up s →
    let period := 1000000000 * max 1 (rd s .hallStockCfgPopHalf 0)
    let halve := fun (e : StockEntry) (s : State) =>
      let cool := e.hot && decide (2 * (e.pop / 2) < rd s .hallStockCfgHotPop 0)
      let same := fun (x : StockEntry) => x.scope == e.scope && x.key == e.key
      let u := { s with homes := upd same (fun x => { x with pop := e.pop / 2, hot := e.hot && !cool }) s.homes }
      if cool then withdrawReplica e u else u
    let u := reach ((s.localTime / period + 1) * period) s
    Gives .popHalving s (each u.homes halve u))

/-- A holder grants a hold on a durable record whose crates all have flash copies, and answers their handles as tier 4; a
requester's release takes one hold away; after ORPHAN seconds an unreachable peer's holds go. A requester with its handles
takes the page into its chain; refused, the copy goes from its entry and the next is asked (R202, R203, R205, R209, R210,
R223). -/
def Sys2Proof.Claims.HoldEventsComplete : Prop :=
  (∀ q p id s, Up s → peerOk q = true → pitchOk p = true →
    let record := s.pubs.find? (fun r => r.id == id && r.pitch == p && r.durable)
    let handles := fun (r : PubRec) => r.crates.filterMap (fun id => (crateOf s id).bind (fun c => c.flash))
    (record = none → Works (.holdRequest q p id) s (tell q (.holdAnswer none) s))
    ∧ (∀ r, record = some r → (handles r).length ≠ r.crates.length → Works (.holdRequest q p id) s (tell q (.holdAnswer none) s))
    ∧ (∀ r, record = some r → (handles r).length = r.crates.length →
      Works (.holdRequest q p id) s (tell q (.holdAnswer (some ((handles r).map (fun h => { h with tier := 4 }))))
        { s with holds := s.holds ++ [{ peer := q, pitch := p, record := id, crates := r.crates }] })))
  ∧ (∀ q p id s h, Up s → peerOk q = true → pitchOk p = true →
    s.holds.find? (fun h => h.peer == q && h.pitch == p && h.record == id) = some h →
    Works (.remoteHoldRelease q p id) s (sweepAll { s with holds := s.holds.erase h }))
  ∧ (∀ q s, Up s → peerOk q = true → (peerOf s q).reachable = false →
    let u := reach ((peerOf s q).unreachableSince + 1000000000 * rd s .hallStockCfgOrphan 0) s
    let d := (peerPlan u q).map (fun r => r.deviceId)
    Works (.orphanRelease q) s (sweepAll { u with
      holds := drop (fun h => h.peer == q) u.holds,
      pubs := drop (fun r => homeOf u r.key == d && (r.st == .standing || r.st == .retry)) u.pubs }))
  ∧ (∀ id s l e k rest given, Up s → lookupOf s id = some l → l.tryEntry = some e → l.tryCopies = k :: rest →
    let got := ((given.getD []).filterMap handleOf).map (fun h => { h with tier := 4 })
    let hold : MyHold := { device := k.device, pitch := k.pitch, record := k.record, handles := got }
    let u := sendDrop e.scope e.key k.device k.pitch s
    (given.isSome = true → got.length = e.shape.layers →
      Works (.holdAnswer id l.at_ given) s (lookupOn id (addPage id e k.device (got.map Ref.remote)
        { s with myHolds := s.myHolds ++ [hold] })))
    ∧ ((given.isSome = false ∨ got.length ≠ e.shape.layers) →
      Works (.holdAnswer id l.at_ given) s (if rest.isEmpty
        then lookupEnd id (onLookup id (fun l => { l with tryEntry := none, tryCopies := [] }) u)
        else askHold id e rest u)))

/-- The sender of a copy answers a table by its fingerprint, from its store or its namespaces' catalogues; the lengths reach the fetch that asked, and without them the
fetch fails (R317). -/
def Sys2Proof.Claims.TableFetchesComplete : Prop :=
  (∀ q f s, Up s → peerOk q = true →
    let known := s.tables ++ s.catalogue.flatMap (fun x => x.2.tables)
    Gives (.tableFetchRequest q f) s
      (tell q (.tableAnswer ((known.find? (fun t => t.print == leBytes 8 f)).map (fun t => t.lengths))) s))
  ∧ (∀ id f s, Up s → s.pendingTables.any (fun x => x.1 == id && x.2.1 == leBytes 8 f && x.2.2.isNone) = true →
    Works (.tableFetchAnswer id f none) s (fetchFails id s)
    ∧ (∀ l, Works (.tableFetchAnswer id f (some l)) s { s with
        pendingTables := upd (fun x => x.1 == id && x.2.1 == leBytes 8 f) (fun x => (x.1, x.2.1, some l)) s.pendingTables }))

/-- Holds are granted, released and orphaned, and code tables fetched (R202, R203, R205, R209, R210, R223, R317). -/
def Obligations.HoldAndTableEventsComplete : Prop := Claims.HoldEventsComplete ∧ Claims.TableFetchesComplete

/-- A member takes a forward of a bound pitch as a command of its own; one of a pitch that is not bound or has no connection to
the lead is answered CLOSING, one of no forwarded opcode BAD_OPCODE; the first partial of a member counts and is merged; a
member's end counts as the end of its append or of its part, or answers the lead's command (R76, R124, R125, R127, R128). -/
def Obligations.StripeEventsComplete : Prop :=
  (∀ q f s, Up s → peerOk q = true →
    let linked := !(notBound s (f.pitch + 1)) && (connBetween s f.pitch q).isSome
    let answer := fun (st : Status) => tell q (.memberDone { member := 0, status := st.code, narrow := false, layerLen := 0 }) s
    let op := (Opcode.ofCode (fieldOf f.entry 0 1)).filter (fun o => forwardedOps.contains o)
    (linked = false → Works (.stripeForwardReceive q f) s (answer .closing))
    ∧ (linked = true → op = none → Works (.stripeForwardReceive q f) s (answer .badOpcode))
    ∧ (∀ o, linked = true → op = some o →
      let own := if o = .seqOpen then fieldOf f.entry 0x26 1
        else ((seqById s f.pitch (if o = .attend then leAt f.seqEntry 0 4
          else fieldOf f.entry (if o = .seqFork then 0x18 else 0x10) 4)).map (fun x => x.ownIndex)).getD 0
      let c := forwardedCmd s q o own f
      let u := ordered { s with cmds := s.cmds ++ [c] }
      Works (.stripeForwardReceive q f) s (tryStart c.id (if o = .attend then { u with forwards := u.forwards ++ [(c.id, f)] } else u))))
  ∧ (∀ id i m rows narrow s a p, Up s → partOf s id i = some (a, p) → p.mem.contains (m, 0xFF) = true →
    p.segs.head?.map (fun g => g.1) ≠ some m →
    let got := { p with narrow := p.narrow || narrow, stripe := p.stripe ++ [(m, rows)],
                        mem := p.mem.map (fun x => if x.1 = m then (m, 0) else x) }
    Works (.stripePartialReceive id i m rows narrow) s (stripeMerge a i got (onPart id i (fun _ => got) s)))
  ∧ (∀ id i d s a p, Up s → partOf s id i = some (a, p) → p.mem.contains (d.member, 0xFF) = true →
    (∀ x y toks rest, d.status = 0 → p.segs = (x, y, toks) :: rest → x = d.member →
      Works (.stripeMemberComplete id i d) s (noteLen id i (appendTokens p.seq a.layer toks.length [] p.tentative
        (onPart id i (fun p => { p with segs := rest, narrow := p.narrow || d.narrow }) s))))
    ∧ (d.status ≠ 0 → Works (.stripeMemberComplete id i d) s (onPart id i (fun p =>
        { p with segs := [], mem := p.mem.map (fun x => if x.1 = d.member then (d.member, d.status) else x) }) s)))
  ∧ (∀ id i d s, Up s → s.attends.any (fun a => a.cmd == id) = false →
    Works (.stripeMemberComplete id i d) s (memberAnswer id d.member d.status 0 s))

/-! The fabric. -/

/-- Every row of a received packet completes: a WRITE, a READ_REQ, a READ_RESP, an ACK, a NAK, and the CTRL packets PROBE,
PROBE_REPLY, RESYNC and RESYNC_ACK come to what R329 and R548 say of a frame of that opcode (R329, R395 to R398, R548). -/
def Sys2Proof.Claims.PacketsHandled : Prop :=
  (∀ f s, Up s → f.wf = true → Works (.rxWrite f) s (packetEffect (asWrite f) s))
  ∧ (∀ f s, Up s → f.wf = true → Works (.rxReadReq f) s (packetEffect (asPacket opReadReq 0 f) s))
  ∧ (∀ f s, Up s → f.wf = true → Works (.rxReadResp f) s (packetEffect (asPacket opReadResp 0 f) s))
  ∧ (∀ f s, Up s → f.wf = true → Works (.rxAck f) s (packetEffect (asPacket opAck 0 f) s))
  ∧ (∀ f s, Up s → f.wf = true → Works (.rxNak f) s (packetEffect (asPacket opNak 0 f) s))
  ∧ (∀ f s, Up s → f.wf = true → Works (.rxProbe f) s (packetEffect (asCtrl 1 f) s))
  ∧ (∀ f s, Up s → f.wf = true → Works (.rxProbeReply f) s (packetEffect (asCtrl 2 f) s))
  ∧ (∀ f s, Up s → f.wf = true → Works (.rxResync f) s (packetEffect (asCtrl 3 f) s))
  ∧ (∀ f s, Up s → f.wf = true → Works (.rxResyncAck f) s (packetEffect (asCtrl 4 f) s))

/-- An admitted frame of its peer's version, opcode and mode on a valid connection counts in FRAMES: a CTRL packet is answered as
its kind says, a packet of another epoch counts in EPOCH_DROPS, an ACK ends what it covers, any other packet takes its place in
the sequence; on another peer's connection it is refused with ACCESS, and else it is a stranger (R329, R358, R361, R370). -/
def Sys2Proof.Claims.AdmittedFrames : Prop :=
  ∀ q f s,
    let bad := f.ver ≠ versionFor s q ∨ f.opcode = 0 ∨ 6 < f.opcode
    let far := on s .fabConnCfgValid f.conn = false ∨ connPeer s f.conn ≠ q
    let u := touch f.conn (bump .fabRxStatFrames f.port 1 s)
    (bad → admitted q f s = stranger f.port s)
    ∧ (¬ bad → far → admitted q f s = (match (connsOfPeer s q).head? with
      | some k => sendNak k 3 f.window f.offset false false f (bump .fabRxStatFrames f.port 1 s)
      | none => s))
    ∧ (¬ bad → ¬ far → f.ordered ≠ on s .fabConnCfgMode f.conn → admitted q f s = stranger f.port s)
    ∧ (¬ bad → ¬ far → f.ordered = on s .fabConnCfgMode f.conn → f.opcode = opCtrl → admitted q f s = ctrlArrives f.conn f u)
    ∧ (¬ bad → ¬ far → f.ordered = on s .fabConnCfgMode f.conn → f.opcode ≠ opCtrl → rd u .fabConnStateState f.conn = 1 →
      f.epoch ≠ (connOf u f.conn).epoch → admitted q f s = bump .fabConnStateEpochDrops f.conn 1 u)
    ∧ (¬ bad → ¬ far → f.ordered = on s .fabConnCfgMode f.conn → f.opcode ≠ opCtrl → rd u .fabConnStateState f.conn = 1 →
      f.epoch = (connOf u f.conn).epoch → admitted q f s = if f.opcode = opAck then ackArrives f.conn f u else sequenced f.conn f u)

/-- In P2 a data packet waits in the ingress FIFO of its port, where it has room, and the device wakes (R548). -/
def Sys2Proof.Claims.DataWaitsInP2 : Prop :=
  ∀ f s, Up s → f.wf = true → f.port < s.ports.length → portUsable s f.port = true → rd s .pwrStateState 0 = 2 →
    sumBy (frameLen s) (portOf s f.port).ingress + frameLen s (asWrite f) ≤ 1048576 →
    (asWrite f).opcode ≠ opAck → (asWrite f).opcode ≠ opCtrl →
    let u := queueIngress (asWrite f) (startWake s)
    Works (.rxWrite f) s u ∧ u.power.move = .waking ∧ (portOf u f.port).ingress = (portOf s f.port).ingress ++ [asWrite f]

/-- Received packets of every kind are handled, or wait in P2 (R329, R358, R361, R370, R395 to R398, R548). -/
def Obligations.PacketsReceived : Prop := Claims.PacketsHandled ∧ Claims.AdmittedFrames ∧ Claims.DataWaitsInP2

/-- A PAUSE or PFC frame counts in MAC_CTRL of its port, which stops at its largest value, and does nothing else (R386). -/
def Sys2Proof.Claims.MacControlFrameCounted : Prop :=
  ∀ p s, Up s → portOk p = true → Gives (.macControlFrame p) s (bump .fabPortStatusMacCtrl p 1 s)

/-- A retransmission timer that ends doubles the RTO up to 10 ms, cuts the window to one packet, and sends again; below
RETRY_MAX the peer stays reachable (R357, R366, R384). -/
def Sys2Proof.Claims.RtoExpiryResends : Prop :=
  ∀ c psn s p, Up s → connOk c = true →
    let x := connOf s c
    x.unacked.find? (fun k => k.frame.psn == psn) = some p →
    let s1 := putConn { x with rto := min 10000000 (2 * x.rto), expiries := x.expiries + 1 } (reach (p.sentAt + x.rto) s)
    let s2 := wr .fabConnCcCwnd c (maxPayload s1) (showRto c s1)
    let again := fun (k : TxPkt) (s : State) => match ((connOf (resend c k s) c).unacked.find? (fun y => y.frame.psn == k.frame.psn)).bind (fun y => y.path) with
      | some path => if (nextPath s c k.path).isSome then bump .fabReliabilityRtoExpiries path.1 1 (resend c k s) else resend c k s
      | none => resend c k s
    let s3 := each (if isLy7 s (connPeer s c) then x.unacked else [p]) again s2
    Works (.rtoExpiry c psn) s (if rd s3 .fabTransportCfgRetryMax 0 ≤ x.expiries + 1 then peerLost (connPeer s3 c) s3 else s3)

/-- The other timers of the transport: the delayed ACK after 2 µs, the probes of a silent and of an unreachable peer, a probe
unanswered for 10 ms, an avoided path's return, the base RTT's interval (R356, R359, R360, R381, R385). -/
def Sys2Proof.Claims.OtherTimersComplete : Prop :=
  (∀ c s f, Up s → connOk c = true → (connOf s c).ackFrame = some f →
    Gives (.delayedAck c) s (sendAck c f (connOf s c).ackAt (reach ((connOf s c).ackAt + 2000) s)))
  ∧ (∀ q s, Up s → peerOk q = true → (peerOf s q).reachable = true → (peerOf s q).probeAt = none →
    Gives (.silenceProbe q) s (probePeer q (reach ((peerOf s q).lastHeard + 1000000) s)))
  ∧ (∀ q s t, Up s → peerOk q = true → (peerOf s q).probeAt = some t →
    Works (.peerUnreachable q) s (peerLost q (reach (t + 10000000) s)))
  ∧ (∀ q s, Up s → peerOk q = true → (peerOf s q).reachable = false →
    let x := peerOf s q
    Gives (.unreachableProbe q) s (probePeer q (reach ((x.probeAt.map (fun t => t + 1000000)).getD x.unreachableSince) s)))
  ∧ (∀ c k s, Up s → connOk c = true → bit (rd s .fabConnCcAvoided c) k = true →
    let u := reach (pathOf (connOf s c) k).avoidUntil s
    Gives (.avoidHoldExpiry c k) s (pumpAll c (wr .fabConnCcAvoided c (rd u .fabConnCcAvoided c - 2 ^ k) u)))
  ∧ (∀ s, Up s →
    let u := reach ((s.localTime / 10000000000 + 1) * 10000000000) s
    let turn := fun (k : PathSt) => { k with prev := k.cur, cur := none }
    Gives .baseRttInterval s { u with conns := u.conns.map (fun c => { c with paths := c.paths.map turn }) })

/-- The timers of the transport complete (R356, R357, R359, R360, R366, R381, R384, R385). -/
def Obligations.TransportTimersComplete : Prop := Claims.RtoExpiryResends ∧ Claims.OtherTimersComplete

/-- A port that is up sends the head frame of the queue its scheduler chooses under the next counter of its association, with the
queue's DSCP and PCP and the headers of its layers; where no frame may go, the credits of its round rise; a port that is down
sends nothing (R326 to R328, R388, R389, R391, R396, R398, R400). -/
def Obligations.EgressFrameLeaves : Prop :=
  (∀ p s, Up s → portOk p = true → portUsable s p = false → Gives (.egressFrameStart p) s s)
  ∧ (∀ p s, Up s → portOk p = true → portUsable s p = true → choose s p (portOf s p) = none →
    Gives (.egressFrameStart p) s (onPort p (spinRounds s p) s))
  ∧ (∀ p s k l round f rest q, Up s → portOk p = true → portUsable s p = true → choose s p (portOf s p) = some (k, l, round) →
    (queueAt l k).frames = f :: rest → f.src = some q →
    let s1 := onPort p (fun x => { x with egress := takeHead s p k l, round := round }) s
    (assocUp s1 q = false → Gives (.egressFrameStart p) s s1)
    ∧ (assocUp s1 q = true →
      let g := { f with keyPhase := rd s1 .fabAssocStateKeyPhase q, counter := (peerOf s1 q).txCounter + 1 }
      let s2 := onPeer q (fun x => { x with txCounter := (peerOf s1 q).txCounter + 1 }) s1
      let w : Sent :=
        { frame := g, dscp := rd s1 .fabEgressCfgDscp (32 * p + k), ecn := 0, pcp := rd s1 .fabEgressCfgPcp (32 * p + k),
          ipv4 := on s1 .fabTransportCfgIpv4 0, tagged := taggedPort s1 p, udp := udpHeader s1 g,
          assoc := assocHeader (peerOf s1 q).assocId g, plain := etlosHeader g ++ g.payload }
      let u := freshen { s2 with wire := s2.wire ++ [w] }
      Gives (.egressFrameStart p) s (if counterLast g.counter then trustLapses q 2 u else u)))

/-- A rekey goes through its steps: the exchange is asked for, by this device's own limits where it starts the rekeys; the new
receive key is installed and said so; at the peer's INSTALLED new frames go under the next phase with counters from 1; after
1 ms the old key is destroyed and REKEYS counts; a failed one is said at most once a second and tried again after 100 ms
(R399, R400). -/
def Sys2Proof.Claims.RekeyStepsComplete : Prop :=
  (∀ q s, Up s → peerOk q = true → assocUp s q = true → on s .fabAssocStateRekeying q = false →
    let x := peerOf s q
    let at_ := 2 ^ rd s .fabAssocCfgRekeyAt 0
    let u := if initiates s q ∧ x.txCounter < at_ ∧ x.rxHigh < at_
      then reach (x.bornAt + rd s .fabAssocCfgRekeyAge 0 * 3600000000000) s else s
    Gives (.rekeyStart q) s (tell q .rekeyShare (onPeer q (fun x => { x with startedAt := u.localTime }) (wr .fabAssocStateRekeying q 1 u))))
  ∧ (∀ q s, Up s → peerOk q = true → exchanging s q = true →
    Gives (.rekeyExchangeDone q) s (tell q .installed (onPeer q (fun x => { x with nextReady := true }) s)))
  ∧ (∀ q s, Up s → peerOk q = true → assocUp s q = true → on s .fabAssocStateRekeying q = true → switched s q = false →
    Gives (.rxInstalled q) s (wr .fabAssocStateKeyPhase q (1 - rd s .fabAssocStateKeyPhase q)
      (onPeer q (fun x => { x with txCounter := 0 }) s)))
  ∧ (∀ q s t, Up s → peerOk q = true → (peerOf s q).oldPhase = true → (peerOf s q).rekeyAt = some t →
    let u := reach (t + 1000000) s
    let done := fun (x : Peer) => { x with oldPhase := false, oldSeen := [], oldHigh := 0, rekeyAt := none, bornAt := u.localTime,
                                           failSaid := none }
    Gives (.oldKeyRetire q) s (bump .fabAssocStateRekeys q 1 (wr .fabAssocStateRekeying q 0 (onPeer q done u))))
  ∧ (∀ q failed s, Up s → peerOk q = true → exchanging s q = true →
    let u := if failed then s else reach ((peerOf s q).startedAt + 50000000) s
    let v := wr .fabAssocStateRekeying q 0 u
    let quiet := ((peerOf u q).failSaid.map (fun t => decide (u.localTime < t + 1000000000))).getD false
    Gives (.rekeyTimeout ⟨q, failed⟩) s (if quiet then v
      else postEvent 0 0x0005 (srcPort 0) (leBytes 2 q) (onPeer q (fun x => { x with failSaid := some v.localTime }) v)))
  ∧ (∀ q s, Up s → peerOk q = true → assocUp s q = true → on s .fabAssocStateRekeying q = false → (peerOf s q).failSaid.isSome = true →
    let u := reach ((peerOf s q).startedAt + 100000000) s
    Gives (.rekeyRetry q) s (tell q .rekeyShare (onPeer q (fun x => { x with startedAt := u.localTime }) (wr .fabAssocStateRekeying q 1 u))))

/-- A mutual attestation whose checks hold, those of R487 for a device and of the chain and the measurements for a client, makes
the peer trusted and its association up with a fresh record; one of an association that is up changes nothing; one that
fails counts in FAILS and ends the trust and the association that stand, or leaves its cause (R395, R487, R488). -/
def Sys2Proof.Claims.PeerAttestationCompletes : Prop :=
  ∀ q s o, Up s → peerOk q = true →
    let device := ((peerPlan s q).map (fun r => r.kind == .ly9)).getD false
    let holds := o.chainOk && (!device || (o.lmsOk && o.deviceIdOk && o.confEqual)) && o.measuresOk
    let u := wr .secPeerTrustTrusted q 1 (wr .fabAssocStateKeyPhase q 0 (wr .fabAssocStateRekeying q 0 (wr .fabAssocStateState q 2 s)))
    let fresh := fun (x : Peer) =>
      { Peer.fresh q with reachable := x.reachable, bornAt := u.localTime, lastHeard := u.localTime, assocId := freeBits u 32 }
    let v := bump .secPeerTrustFails q 1 s
    (holds = true → assocUp s q = false → Works (.peerAttestation q o) s (peerAnswers q (onPeer q fresh (freshen u))))
    ∧ (holds = true → assocUp s q = true → Works (.peerAttestation q o) s s)
    ∧ (holds = false → Works (.peerAttestation q o) s (if on v .secPeerTrustTrusted q ∨ assocUp v q then trustLapses q 3 v
        else wr .secPeerTrustCause q 3 v))

/-- Rekeys and mutual attestations complete (R395, R399, R400, R487, R488). -/
def Obligations.AssociationEventsComplete : Prop := Claims.RekeyStepsComplete ∧ Claims.PeerAttestationCompletes

/-- A port whose lanes align at its planned speed comes up, or rests at once under stage C; at another speed it reports SPEED; a
failed lane takes it down with cause LANE and the lane's number; it trains again after a second; PF0 resets it, another
function does not; its equalisation settles (R371, R403 to R405, R535). -/
def Sys2Proof.Claims.PortStatesComplete : Prop :=
  (∀ p s, Up s → portOk p = true → rd s .fabPortCfgSpeed p ≠ 0 → rd s .fabPortStatusState p ≠ 2 →
    let u := postEvent 0 0x0001 (srcPort p) (leBytes 1 p) (forgetBase p (wr .fabPortStatusState p 2 s))
    Works (.portLinkUp p (rd s .fabPortCfgSpeed p)) s (if stageOn u 3 ∧ 4 ≤ p
      then wr .fabPortStatusState p 3 (onPort p (fun x => { x with idle := true }) u)
      else each u.conns (fun c => pumpAll c.num) u))
  ∧ (∀ p v s, Up s → portOk p = true → rd s .fabPortCfgSpeed p ≠ 0 → rd s .fabPortStatusState p ≠ 2 → v ≠ rd s .fabPortCfgSpeed p →
    let u := report (srcPort p) .portDown sevDegraded none
      (wr .fabPortStatusState p 4 (wr .fabPortStatusCause p 3 (wr .fabPortStatusEqSettled p 0 s)))
    Works (.portLinkUp p v) s (postEvent 0 0x0002 (srcPort p) (leBytes 1 p ++ leBytes 1 3 ++ leBytes 1 0)
      (onPort p (fun x => { x with retryAt := u.localTime + 1000000000 }) u)))
  ∧ (∀ p lane s, Up s → portOk p = true → lane < 4 → rd s .fabPortStatusState p = 2 →
    lane < lanesOf (rd s .fabPortCfgSpeed p) (rd s .fabPortCfgLaneClass p) →
    let u := bump .fabPortStatusLinkDowns p 1 (wr .fabPortStatusState p 0 (wr .fabPortStatusCause p 2 s))
    let v := postEvent 0 0x0002 (srcPort p) (leBytes 1 p ++ leBytes 1 2 ++ leBytes 1 lane)
      (report (srcPort p) .portDown sevDegraded none (wr .fabPortStatusFailedLane p lane u))
    Works (.portLaneFail p lane) s (leavePort p (onPort p (fun x =>
      { x with idle := false, retryAt := v.localTime + 1000000000 }) v)))
  ∧ (∀ p s, Up s → portOk p = true → rd s .fabPortCfgSpeed p ≠ 0 → (rd s .fabPortStatusState p = 0 ∨ rd s .fabPortStatusState p = 4) →
    Gives (.portLinkRetry p) s (wr .fabPortStatusState p 1 (reach (portOf s p).retryAt s)))
  ∧ (∀ p s, Up s → portOk p = true → rd s .fabPortCfgSpeed p ≠ 0 →
    let u := if portUsable s p ∨ rd s .fabPortStatusState p = 3 then portDown p 4 0 s else leavePort p s
    Works (.portReset 0 p) s (wr .fabPortStatusState p 1 (restore (fun d i => match d.kind with
      | .port => (match d.reg with
        | .fabLaneStat => i / 4 == p
        | _ => i == p)
      | _ => false) u)))
  ∧ (∀ fn p s, Up s → portOk p = true → fnOk fn = true → fn ≠ 0 → Works (.portReset fn p) s s)
  ∧ (∀ p s, Up s → portOk p = true → rd s .fabPortStatusState p = 2 →
    Gives (.serdesEqSettled p) s (wr .fabPortStatusEqSettled p 1 s))

/-- The events of ports complete; a PAUSE or PFC frame is counted and has no other effect (R371, R386, R403 to R405, R535). -/
def Obligations.PortEventsComplete : Prop := Claims.PortStatesComplete ∧ Claims.MacControlFrameCounted

/-! The host port and its registers. -/

/-- A write of SUB_TAIL in range accepts the entries up to it, in order; one that is not, or that the ring has no room for, is an
error of the ring with cause TAIL; one that names the present tail changes nothing; a write of COMP_HEAD in range releases what
it names and lets held completions post (R427, R428, R430 to R432). -/
def Sys2Proof.Claims.RingPointersComplete : Prop :=
  (∀ fn r v s, Up s → fnOk fn = true → ringOk r = true → ringFn s r = some fn → fabricRing s r = false → ringRunning s r = true →
    let new := slotsFrom (ringSize s r) (rd s .pciRingStateTail r) v
    (v < ringSize s r → bits v 14 18 = 0 → v ≠ rd s .pciRingStateTail r → new.length ≤ ringRoom s r →
      Works (.subTailWrite fn r v) s (acceptTo r v (startWake s)))
    ∧ (v < ringSize s r → bits v 14 18 = 0 → v ≠ rd s .pciRingStateTail r → ringRoom s r < new.length →
      Works (.subTailWrite fn r v) s (ringError r 1 (startWake s)))
    ∧ (v < ringSize s r → bits v 14 18 = 0 → v = rd s .pciRingStateTail r → Works (.subTailWrite fn r v) s s)
    ∧ (bits v 14 18 ≠ 0 ∨ ringSize s r ≤ v → Works (.subTailWrite fn r v) s (ringError r 1 (startWake s))))
  ∧ (∀ fn r v s, Up s → fnOk fn = true → ringOk r = true → ringFn s r = some fn → fabricRing s r = false → ringRunning s r = true →
    v < ringSize s r →
    let x := ringOf s r
    let step := (v + ringSize s r - compHead s r) % ringSize s r
    let n := if step = 0 ∧ x.unread = ringSize s r then ringSize s r else step
    n ≤ x.unread →
    Works (.compHeadWrite fn r v) s (settleChits (postHeld r x.heldComps.length
      (putRing { x with unread := x.unread - n, coalCount := x.coalCount - (n - (x.unread - x.coalCount)) } s))))

/-- A ring that is off takes its word and is enabled, with pointers at 0 and phase 1, or in error with cause CONFIG; one that
is on is disabled by a word that clears ENABLE, and ignores any other (R424, R457). A failed fetch of a running ring is an error of
the ring with cause FETCH (R432). -/
def Sys2Proof.Claims.RingSwitchingCompletes : Prop :=
  (∀ fn r v s, Up s → fnOk fn = true → ringOk r = true → ringFn s r = some fn → writable s fn = true →
    (on s .pciRingCfgEnable r = false → Works (.ringEnable fn r v) s (enableRing r fn (storeRingCfg r (withBit0 1 v) s)))
    ∧ (on s .pciRingCfgEnable r = true → Works (.ringEnable fn r v) s s)
    ∧ (on s .pciRingCfgEnable r = true → Works (.ringDisable fn r v) s (disableRing r (storeRingCfg r (withBit0 0 v) s)))
    ∧ (on s .pciRingCfgEnable r = false → Works (.ringDisable fn r v) s (storeRingCfg r (withBit0 0 v) s)))
  ∧ (∀ r s, Up s → ringOk r = true → ringRunning s r = true → Works (.ringFetchError r) s (ringError r 2 s))

/-- An enabled ring starts from slot 0 with phase 1 and nothing accepted, unread or held (R424). -/
def Obligations.EnabledRingStartsEmpty : Prop :=
  ∀ r fn s,
    let t := enableRing r fn s
    rd t .pciRingStateState r = 1 →
    rd t .pciRingStateHead r = 0 ∧ rd t .pciRingStateTail r = 0 ∧ rd t .pciRingStateCompTail r = 0
      ∧ rd t .pciRingStatePhase r = 1 ∧ rd t .pciRingStateCause r = 0 ∧ (ringOf t r).accepted = [] ∧ (ringOf t r).unread = 0
      ∧ (ringOf t r).heldComps = []

/-- A DMA read of a function that fails wedges it, at once after an abort and 50 ms after it was asked for where nothing came: what
waited for its DMA is discarded and the event logged; the coalescing timer fires the ring's vector and starts the count anew
(R421, R422, R431). -/
def Sys2Proof.Claims.DmaAndTimersComplete : Prop :=
  (∀ fn s, Up s → fnOk fn = true →
    let pitch := if fn = 0 then none else some (fn - 1)
    let wedged := fun (u : State) => report srcHost .wedged sevDegraded pitch
      { wr .pciFnStatusWedged fn 1 u with dmaWait := drop (fun x => x.1 == fn) u.dmaWait }
    let due := ((dmaWaits fn s).map (fun t => reach (t + 50000000) s)).getD s
    (on s .pciFnStatusWedged fn = false → Gives (.dmaTimeout fn) s (wedged due))
    ∧ (on s .pciFnStatusWedged fn = false → Gives (.dmaCompleterAbort fn) s (wedged s))
    ∧ (on s .pciFnStatusWedged fn = true → Gives (.dmaTimeout fn) s due)
    ∧ (on s .pciFnStatusWedged fn = true → Gives (.dmaCompleterAbort fn) s s))
  ∧ (∀ r s, Up s → ringOk r = true → (ringOf s r).coalCount ≠ 0 → rd s .pciRingCfgCoalUs r ≠ 0 →
    Gives (.coalTimer r) s (coalFire r (reach ((ringOf s r).coalSince + 1000 * rd s .pciRingCfgCoalUs r) s)))

/-- Doorbells, ring switches, ring and DMA errors and the coalescing timer complete (R421, R422, R424, R427, R428, R430 to
R432, R457). -/
def Obligations.RingRegistersComplete : Prop :=
  Claims.RingPointersComplete ∧ Claims.RingSwitchingCompletes ∧ Claims.DmaAndTimersComplete

/-- An aligned 8-byte write of a function to a chit it owns sets the chit; any other write to the chit pages is refused and
logged (R446). -/
def Sys2Proof.Claims.ChitWriteCompletes : Prop :=
  (∀ fn c v s, Up s → fnOk fn = true → c < 16384 → chitOwned s fn c = true →
    Works (.chitHostWrite fn (0x400000 + 8 * c) 8 v) s (updateChit (.set c v) (startWake s)))
  ∧ (∀ fn off size v s, Up s → fnOk fn = true → 0x400000 ≤ off → off < 0x420000 →
    (size ≠ 8 ∨ off % 8 ≠ 0 ∨ chitOwned s fn ((off - 0x400000) / 8) = false) →
    Works (.chitHostWrite fn off size v) s
      (report srcHost .refusedAccess sevContained (if fn = 0 then none else some (fn - 1)) (startWake s)))

/-- CHIT_SET, CHIT_ADD, CHIT_WAIT, its deadline, and a host write to a chit complete (R441 to R446). -/
def Obligations.ChitCommandsComplete : Prop :=
  Claims.ChitValuesSet ∧ Claims.ChitWaitArms ∧ Claims.ChitDeadlinePasses ∧ Claims.ChitWriteCompletes

/-- A link that trains shows its rate, width and CXL version and lets waiting DMA go on, half 1 only on a bifurcated port, CXL only
where the straps mark it, and x8 at most where it is bifurcated; one that goes down by surprise counts in DOWNS, and with CXL
on it loses its host; hot reset on a link that is up is a full reset; Bus Master Enable shows in PCI_FN_STATUS, and set lets
held writes go on (R417, R418, R422, R450, R453, R454, R550). -/
def Sys2Proof.Claims.LinksComplete : Prop :=
  (∀ h rate width cxl s, halfOk h = true → s.power.tileOn = true → s.power.perst = false → (h = 1 → on s .pciLinkBif 0 = true) →
    (cxl = 0 ∨ bit s.power.straps (1 + h) = true) → (on s .pciLinkBif 0 = true → width ≤ 8) →
    let u := { s with dmaSince := drop (fun x => halfOf s x.1 == h) s.dmaSince }
    Works (.pcieLinkUp h rate width cxl) s
      (dmaFlush (wr .pciLinkUp h 1 (wr .pciLinkRate h rate (wr .pciLinkWidth h width (wr .pciLinkCxl h cxl u))))))
  ∧ (∀ h s, halfOk h = true → on s .pciLinkUp h = true →
    let u := bump .pciLinkDowns h 1 (linkDown h s)
    Works (.pcieSurpriseDown h) s (if rd s .pciLinkCxl h = 0 then u else hostGone h (wr .pciLinkCxl h 0 u)))
  ∧ (∀ h s, halfOk h = true → on s .pciLinkUp h = true → Gives (.pcieHotReset h) s (fullReset causeHotReset s))
  ∧ (∀ fn s, fnOk fn = true → hostAnswers s = true →
    Works (.busMasterEnableWrite fn true) s (dmaFlush (wr .pciFnStatusBmeOff fn 0 s))
    ∧ Works (.busMasterEnableWrite fn false) s (wr .pciFnStatusBmeOff fn 1 s))
  ∧ (∀ fn b s, fnOk fn = true → hostAnswers s = false → Works (.busMasterEnableWrite fn b) s s)

/-- A host's read of a line of the window returns the bytes of its DATA segment or of the ledger, or poison; its write stores
them, in a DATA segment; a line to track waits while the snoop filter is full, and makes room; a snooped line's answer writes
what the host had modified, forgets the line and lets what waited go on; without an answer for 1 ms, or with viral, the host is
lost (R448 to R451). -/
def Sys2Proof.Claims.CxlComplete : Prop :=
  (∀ a s p g, Up s → halfOk a.half = true → windowShown s a.half = true → segmentAt s a.half a.addr = some (p, g) →
    (trackWaits a g s = true → Works (.cxlMemAccess a) s (makeTrackRoom { startWake s with cxlWaiting := s.cxlWaiting ++ [a] }))
    ∧ (trackWaits a g s = false → a.isWrite = false → Works (.cxlMemAccess a) s (cxlRead a p g (startWake s)))
    ∧ (trackWaits a g s = false → a.isWrite = true → Works (.cxlMemAccess a) s (cxlWrite a p g (startWake s))))
  ∧ (∀ a s p g d, Up s → halfOk a.half = true → windowShown s a.half = true → segmentAt s a.half a.addr = some (p, g) →
    g.data = some d → a.isWrite = false → rd s .pciLinkCxl a.half ≠ 3 →
    let off := a.addr / 64 * 64 - g.base
    let u := startWake s
    Works (.cxlMemAccess a) s { u with cxlOut := s.cxlOut ++ [(a.half, a.addr / 64 * 64,
      if poisoned s p (d + off) 64 then none else some (Memory.readN s.dram (dramKey p (d + off)) 64))] })
  ∧ (∀ a s p g d, Up s → halfOk a.half = true → windowShown s a.half = true → segmentAt s a.half a.addr = some (p, g) →
    g.data = some d → a.isWrite = true → rd s .pciLinkCxl a.half ≠ 3 →
    Works (.cxlMemAccess a) s (writeDram p (d + a.addr - g.base) a.data (startWake s)))
  ∧ (∀ h l s x, Up s → halfOk h = true → s.cxlLines.find? (fun x => x.half == h && x.line == l && x.snooped) = some x →
    Works (.cxlSnoopTimeout h l) s (hostGone h (reach (x.snoopAt + 1000000) s))
    ∧ Works (.cxlBisnpResponse h l none) s (cxlRetry (forgetLine h l s))
    ∧ (∀ bs, lineData s h l = none → Works (.cxlBisnpResponse h l (some bs)) s (cxlRetry (forgetLine h l s)))
    ∧ (∀ bs p off, lineData s h l = some (p, off) →
      Works (.cxlBisnpResponse h l (some bs)) s (cxlRetry (writeDram p off (bs.take 64) (forgetLine h l s)))))
  ∧ (∀ h s, Up s → halfOk h = true → on s .pciLinkUp h = true → rd s .pciLinkCxl h ≠ 0 → Works (.cxlViral h) s (hostGone h s))

/-- Links train and go, Bus Master Enable is written, and CXL accesses, snoops and viral complete (R417, R418, R422, R448 to
R451, R453, R454, R550). -/
def Obligations.HostLinksComplete : Prop := Claims.LinksComplete ∧ Claims.CxlComplete

/-- A function's write of ERR_EVT_CFG starts its event ring or stops it; SNAP copies the 15 classes of a pitch and CLEAR zeroes
its tills, the snapshot first (R173, R589, R618, R625). -/
def Sys2Proof.Claims.EventRingsAndTillsComplete : Prop :=
  (∀ fn v s, fnOk fn = true → hostAnswers s = true → writable s fn = true →
    Gives (.evtRingEnable fn v) s (evtCfgBits fn 0 64 (withBit0 1 v) s)
    ∧ Gives (.evtRingDisable fn v) s (evtCfgBits fn 0 64 (withBit0 0 v) s)
    ∧ (on s .errEvtCfgEnable fn = false →
      Gives (.evtRingEnable fn v) s (evtStart fn (storeFields .errEvtCfg fn 0 64 (withBit0 1 v) s)))
    ∧ (on s .errEvtCfgEnable fn = true →
      Gives (.evtRingDisable fn v) s (storeFields .errEvtCfg fn 0 64 (withBit0 0 v) s)))
  ∧ (∀ fn p s, fnOk fn = true → pitchOk p = true → hostAnswers s = true → tillAllowed s fn p = true →
    Works (.tillSnap fn p) s (each (List.range 15) (snapClass p) s)
    ∧ Works (.tillClear fn p false) s { s with tills := drop (fun t => t.pitch == p) s.tills }
    ∧ (let u := each (List.range 15) (snapClass p) s
       Works (.tillClear fn p true) s { u with tills := drop (fun t => t.pitch == p) u.tills }))

/-- A register write goes to BAR0 by the register it names, or to BAR2, 64 B at most; a register read answers the value once it
may complete, and is held until then; the sideband reads 8 to 64 bytes by words, and nothing of another length (R613 to R616,
R621, R623, R624, R626, R628). -/
def Sys2Proof.Claims.RegisterAccessCompletes : Prop :=
  (∀ fn off size v s, fnOk fn = true → hostAnswers s = true →
    let n := min size accessMax
    (off < bar2 → Works (.registerWrite fn off size v) s (writeBar0 fn off n v (wakeFor off s)))
    ∧ Works (.registerWrite fn (bar2 + off) size v) s (writeBar2 fn off n v s))
  ∧ (∀ fn off size s, fnOk fn = true → hostAnswers s = true →
    let n := min size accessMax
    let u := wakeFor off s
    (mayAnswer u off = true → off < bar2 →
      let r := readBar0 (.fn fn) off n u
      Gives (.registerRead (.fn fn) off size) s { freshen (freshen (freshen r.2)) with answers := r.2.answers ++ [(.fn fn, off, r.1)] })
    ∧ (mayAnswer u off = true → bar2 ≤ off →
      let r := readBar2 fn (off - bar2) n u
      Gives (.registerRead (.fn fn) off size) s { freshen (freshen (freshen r.2)) with answers := r.2.answers ++ [(.fn fn, off, r.1)] })
    ∧ (mayAnswer u off = false →
      Gives (.registerRead (.fn fn) off size) s { u with readsHeld := u.readsHeld ++ [(fn, off, n)] }))
  ∧ (∀ off size s, s.power.vauxOk = true →
    let r := readBar0 .sideband off (min size accessMax) s
    Gives (.registerRead .sideband off size) s { freshen (freshen (freshen r.2)) with answers := r.2.answers ++ [(.sideband, off, r.1)] })
  ∧ (∀ off len s, s.power.vauxOk = true →
    let word := fun (acc : Bytes × State) (i : Nat) =>
      (acc.1 ++ leBytes 8 (sidebandWord (off + 8 * i) acc.2).1, freshen (sidebandWord (off + 8 * i) acc.2).2)
    let r := (List.range (len / 8)).foldl word ([], s)
    (8 ≤ len → len ≤ 64 → len % 8 = 0 → Gives (.sidebandRegisterRead off len) s (answerSideband (.registers r.1) r.2))
    ∧ ((len = 0 ∨ 64 < len ∨ len % 8 ≠ 0) → Gives (.sidebandRegisterRead off len) s (answerSideband (.registers []) s)))

/-- Event rings, tills and registers are written and read (R173, R589, R613 to R618, R621 to R628). -/
def Obligations.RegisterRowsComplete : Prop := Claims.EventRingsAndTillsComplete ∧ Claims.RegisterAccessCompletes

/-- PLDM answers: a sensor its reading, a sensor that the device has not, and the base and FRU commands bytes that the
specification leaves open; a firmware component goes to the staging slot of its kind, where it fits, and its verification is
answered; an activation is a live one or a full reset (R452, R515, R522, R523, R550). -/
def Obligations.PldmCompletes : Prop :=
  (∀ n s, s.power.vauxOk = true →
    (∀ v, sensorReading s n = some v → Gives (.pldmPlatformRequest n) s (answerSideband (.reading n v) (freshen s)))
    ∧ (sensorReading s n = none → ∃ bs, Gives (.pldmPlatformRequest n) s (answerSideband (.other bs) (freshen s))))
  ∧ (∀ k s, s.power.vauxOk = true →
    (∃ bs, Gives (.pldmBaseRequest k) s (answerSideband (.other bs) (freshen s)))
    ∧ ∃ bs, Gives (.pldmFruRequest k) s (answerSideband (.other bs) (freshen s)))
  ∧ (∀ im s, s.power.vauxOk = true → 1 ≤ im.kind → im.kind ≤ 3 →
    let k := im.kind - 1
    let ok := imageValid s im && decide (imageSize im ≤ (slotSpan k (stagingSlot s k)).2)
    let u := putImage k (stagingSlot s k) (if ok then some im else none) s
    let v := { u with stagedOk := u.stagedOk.erase k ++ (if ok then [k] else []) }
    let w := wr .secImageStaged k (b2n ok) (wr .secImageStagedVersion k (if ok then im.version else 0)
      (wr .secImageStagedSvn k (if ok then im.svn else 0) v))
    Gives (.pldmFwComponent im) s (answerSideband (.verified ok) w))
  ∧ (∀ im s, s.power.vauxOk = true → (im.kind = 0 ∨ 3 < im.kind) →
    Gives (.pldmFwComponent im) s (answerSideband (.verified false) s))
  ∧ (∀ s, s.power.vauxOk = true → Gives (.pldmActivateFirmware false) s (fullReset causePldm s)
    ∧ (s.phase = .stopped → Gives (.pldmActivateFirmware true) s (fullReset causePldm s)))
  ∧ (∀ s im, s.power.vauxOk = true → Up s → s.live.active = false → liveImage s = some im →
    Gives (.pldmActivateFirmware true) s (wr .secFwCtrlActState 0 1 (wr .secFwCtrlActCore 0 0
      { s with live := { s.live with active := true, copied := false, turn := 3, oldImage := s.fwRunning } })))

/-- PF0 and the sideband clear a capture record, ALERT outside a stopped boot, and advance READ of the log over unread entries; a
READ past WRITE is refused and logged; other functions change none of them (R567, R569, R572, R583, R584). -/
def Sys2Proof.Claims.CrierCommandsComplete : Prop :=
  (∀ w n s, Requester.wf w = true → sourceOk n = true →
    let record := [Fld.errCaptureValid, .errCaptureSeverity, .errCaptureOverwrote, .errCaptureCode, .errCapturePitch, .errCapturePitchValid,
      .errCaptureMore, .errCaptureBoot, .errCaptureTime, .errCaptureDetail0, .errCaptureDetail1]
    let u := record.foldl (fun s f => wr f n 0 s) s
    (alwaysOnWrite w = true → sourceNamed n = true →
      Gives (.captureClear w n) s u ∧ record.all (fun f => rd u f n == 0) = true ∧ u.crier = s.crier)
    ∧ ((alwaysOnWrite w && sourceNamed n) = false → Gives (.captureClear w n) s s))
  ∧ (∀ w s, Requester.wf w = true →
    (alwaysOnWrite w = true → s.phase ≠ .stopped → Gives (.alertClear w) s (wr .errAlarmAlert 0 0 s))
    ∧ ((alwaysOnWrite w = false ∨ s.phase = .stopped) → Gives (.alertClear w) s s))
  ∧ (∀ w n s, Requester.wf w = true →
    let step := (n % 2048 + 2048 - rd s .errLogPtrRead 0) % 2048
    (alwaysOnWrite w = true → step ≤ logUnread s → Gives (.logReadAdvance w n) s (wr .errLogPtrRead 0 (n % 2048) s))
    ∧ (alwaysOnWrite w = true → logUnread s < step →
      Gives (.logReadAdvance w n) s (report srcReset .refusedAccess sevContained none s))
    ∧ (alwaysOnWrite w = false → Gives (.logReadAdvance w n) s s))
  ∧ (∀ s, let u := reach ((s.localTime / 1000000000 + 1) * 1000000000) s
    Gives .logBudgetWindow s { u with crier := { u.crier with budgets := [] } })

/-- A telemetry snapshot that had not ended counts in MISSED; one that has counts its number, and is written where an address
is set: 64 header bytes and the registers of its level at the present place of the circular area (R578, R580, R581). -/
def Sys2Proof.Claims.TelemetryCompletes : Prop :=
  ∀ s, hostAnswers s = true → telemLevel s ≠ 0 → telemRuns s = true →
    let addr := rd s .errTelemAddrTelemAddr 0
    let u := { s with crier := { s.crier with snapshots := (s.crier.snapshots + 1) % 4294967296 } }
    let bs := (List.range 64).map (fun i => Config.byte u.fresh i) ++ snapshotBytes u (telemLevel s)
    let size := 2 ^ (16 + rd u .errTelemCtrlTelemSizeLog2 0)
    let pos := u.crier.telemPos % size
    let v := writeCircular addr size pos bs (freshen (freshen (freshen u)))
    Works (.telemetrySnapshot false) s (bump .errTelemCtrlMissed 0 1 s)
    ∧ (addr = 0 → Works (.telemetrySnapshot true) s u)
    ∧ (addr ≠ 0 → Works (.telemetrySnapshot true) s { v with crier := { v.crier with telemPos := (pos + bs.length) % size } })

/-- Capture, alert, log and telemetry rows complete (R567 to R573, R578, R580, R581, R583, R584). -/
def Obligations.CrierRowsComplete : Prop := Claims.CrierCommandsComplete ∧ Claims.TelemetryCompletes

/-! Stallholders, firmware, supply, power states, resets. -/

/-- A stallholder that fails restarts and reports CONTAINED with its cause, and the third restart within a second is FATAL, as
is a failure on the way back to the old bank; in its turn of a live activation it fails the activation; READY brings it back,
and in its turn lets the next core restart or ends the activation; 50 ms without READY is FATAL, and so is a fault of the
Abtoser; the FATAL hold ends in a full reset (R517, R518, R520, R523, R527). -/
def Sys2Proof.Claims.CoreEventsComplete : Prop :=
  (∀ k cause s, Up s → coreOk k = true → (cause = 1 ∨ cause = 2 ∨ cause = 3) →
    let row := if cause = 1 then Instr.coreWatchdog k else if cause = 2 then .coreException k else .coreSramError k
    let u := if cause = 1 ∧ rd s .hallCoreState k = 0 then reach (max s.bootedAt (coreAt s k).readyAt + 10000000) s else s
    let recent := u.restarts.filter (fun t => decide (u.localTime ≤ t + 1000000000)) ++ [u.localTime]
    let v := restartCore k cause (coreAt u k).newBank { u with restarts := recent }
    (inTurnCore u k = true → Works row s (activationFails k u))
    ∧ (inTurnCore u k = false → wentBack u k = true → Works row s (escalate (srcCore k) u))
    ∧ (inTurnCore u k = false → wentBack u k = false → recent.length < 3 → Works row s v)
    ∧ (inTurnCore u k = false → wentBack u k = false → 3 ≤ recent.length → Works row s (escalate (srcCore k) v)))
  ∧ (∀ k s, Up s → coreOk k = true → rd s .hallCoreState k ≠ 0 →
    let us := min 65535 ((s.localTime - (coreAt s k).restartAt) / 1000)
    let u := resumeCore k (wr .hallCoreState k 0 (wr .hallCoreLastUs k us (onCore k (fun x => { x with readyAt := s.localTime }) s)))
    (inTurnCore s k = false → Works (.coreReady k) s u)
    ∧ (inTurnCore s k = true → k = 0 → Works (.coreReady k) s (activationDone u))
    ∧ (inTurnCore s k = true → k ≠ 0 →
      Works (.coreReady k) s (restartCore (k - 1) 4 true { u with live := { u.live with turn := k - 1 } })))
  ∧ (∀ k s, Up s → coreOk k = true → rd s .hallCoreState k ≠ 0 →
    Works (.coreReadyTimeout k) s (escalate (srcCore k) (reach ((coreAt s k).restartAt + 50000000) s)))
  ∧ (∀ s, Up s → Gives .abtoserFault s (escalate srcAbtoser s))
  ∧ (∀ s, s.phase = .fatalHold →
    Gives .fatalHoldExpiry s (fullReset causeFatal (reach (s.fatalAt + 1000000 * rd s .secBootFatalHoldMs 0) s)))

/-- Images on trial are confirmed by PF0 or 60 s after boot: TRIAL goes, security versions and owner keys are burned; live
activation starts with the copy, restarts core 3 first once the image is verified, and fails where it is not, or where a core is
not READY within 5 ms; other functions change nothing (R507, R522, R523, R526). -/
def Sys2Proof.Claims.FirmwareEventsComplete : Prop :=
  (∀ s, Up s → (List.range 3).any (fun k => on s .secImageTrial k) = true →
    let end_ := fun (u : State) (h : BootHdr) (k : Nat) => if on u .secImageTrial k then h.name k (h.slot k) false else h
    let burn := fun (u : State) => each (List.range 3) confirmKind
      (writeHdr ((List.range 3).foldl (end_ u) ((hdrOf u.xspi).getD BootHdr.first)) u)
    Gives .trialConfirmTimer s (burn (reach (s.bootedAt + 60000000000) s)) ∧ Gives (.fwConfirm 0) s (burn s))
  ∧ (∀ s, Up s → (List.range 3).any (fun k => on s .secImageTrial k) = false →
    Gives .trialConfirmTimer s s ∧ Gives (.fwConfirm 0) s s)
  ∧ (∀ s fn, Up s → fnOk fn = true → fn ≠ 0 → Gives (.fwConfirm fn) s s ∧ Gives (.liveActivate fn) s s)
  ∧ (∀ s im, Up s → s.live.active = false → liveImage s = some im →
    Gives (.liveActivate 0) s (wr .secFwCtrlActState 0 1 (wr .secFwCtrlActCore 0 0
      { s with live := { s.live with active := true, copied := false, turn := 3, oldImage := s.fwRunning } })))
  ∧ (∀ s im, Up s → s.live.active = true → s.live.copied = false → liveImage s = some im →
    Works (.liveCopyDone true) s (restartCore 3 4 true (wr .secFwCtrlActState 0 2
      { s with live := { s.live with copied := true, turn := 3 }, fwRunning := some im })))
  ∧ (∀ v s, Up s → s.live.active = true → s.live.copied = false → (v = false ∨ liveImage s = none) →
    Works (.liveCopyDone v) s (wr .secFwCtrlActState 0 4 { s with live := { s.live with active := false, oldImage := none } }))
  ∧ (∀ k s, Up s → coreOk k = true → inTurnCore s k = true →
    Works (.liveActivationTimeout k) s (activationFails k (reach ((coreAt s k).restartAt + 5000000) s)))

/-- Stallholders restart and firmware is confirmed or activated live (R507, R517, R518, R520, R522, R523, R526, R527). -/
def Obligations.CoreRowsComplete : Prop := Claims.CoreEventsComplete ∧ Claims.FirmwareEventsComplete

/-- A supply stage is entered at its threshold with those below it, and ends 1 V above it, heaviest first; between them only VIN
is read; VIN out of range resets the device and turns its tile off (R534 to R538). -/
def Obligations.SupplyEventsComplete : Prop :=
  (∀ g mv s, hostAnswers s = true → stageOk g = true →
    let u := wr .pwrSupplyVinMv 0 mv s
    let v := each ((List.range (g - rd u .pwrStageStage 0)).map (fun i => rd u .pwrStageStage 0 + 1 + i))
      (fun k s => sayStage .stageEntered (shed k (wr .pwrStageStage 0 k s))) u
    (mv ≤ stageMv g → rd u .pwrStageStage 0 < g → Works (.supplyStageEnter g mv) s
      (if rd s .pwrStageStage 0 < 2 ∧ 2 ≤ rd v .pwrStageStage 0 ∧ rd v .pwrStateState 0 = 0 then recallOnStage v else v))
    ∧ (rd u .pwrStageStage 0 = rd s .pwrStageStage 0 → (stageMv g < mv ∨ g ≤ rd u .pwrStageStage 0) →
      Works (.supplyStageEnter g mv) s u))
  ∧ (∀ g mv s, hostAnswers s = true → stageOk g = true →
    let u := wr .pwrSupplyVinMv 0 mv s
    let v := wr .pwrStageStage 0 (g - 1) u
    (stageMv g + 1000 ≤ mv → rd u .pwrStageStage 0 = g → Works (.supplyStageEnd g mv) s
      (resumePushes (sayStage .stageEnded
        (if g = 1 then wr .errTelemCtrlShed 0 0 v else if g = 3 then wakePorts v else if g = 2 then { v with flashHeld := v.flashQueue } else v))))
    ∧ ((mv < stageMv g + 1000 ∨ rd u .pwrStageStage 0 ≠ g) → Works (.supplyStageEnd g mv) s (resumePushes u)))
  ∧ (∀ high s, s.power.tileOn = true →
    Gives (.supplyReset high) s
      (fullResetTileOff (if high then causeVinHigh else causeVinLow) (bump .pwrResetCauseSupplyResets 0 1 s)))

/-- The power cap lowers the target by its step, down to the floor, and counts the measure that acted; at the floor it throttles
the stalls by a step; a measure within its level only shows; the release gives the throttling back first, then raises the target
by 50, up to 2,000 or the temperature limit (R540). -/
def Sys2Proof.Claims.PowerCapCompletes : Prop :=
  (∀ a b c s, hostAnswers s = true →
    let u := wr .pwrPowerInput100us 0 a (wr .pwrPowerInput1s 0 b (wr .pwrPowerStall 0 c s))
    let t := rd u .hallRateRateTarget 0
    let cut := fun (n : Nat) (f : Fld) =>
      let v := bump f 0 1 (wr .hallRateRateTarget 0 (max rateFloor (t - n)) u)
      if t ≤ rateFloor then { u with power := { u.power with throttle := min 6 (u.power.throttle + 1), capHeld := true } }
      else { v with power := { v.power with capHeld := true } }
    Works (.powerCapAction .input100us a b c) s (if 6400 < a then cut 100 .pwrLimitBurst else u)
    ∧ Works (.powerCapAction .stretch10ms a b c) s (if 6000 < a then cut 100 .pwrLimitBurst else u)
    ∧ Works (.powerCapAction .input1s a b c) s (if 5850 < b then cut 50 .pwrLimitSustained else u)
    ∧ Works (.powerCapAction .stall100us a b c) s (if 1450 < c then cut 50 .pwrLimitStallCap else u))
  ∧ (∀ s, hostAnswers s = true → 0 < s.power.throttle →
    Works .powerCapRelease s { s with power := { s.power with throttle := s.power.throttle - 1 } })
  ∧ (∀ s, hostAnswers s = true → s.power.throttle = 0 →
    let top := min 2000 s.power.tempLimit
    let u := wr .hallRateRateTarget 0 (max (min top (rd s .hallRateRateTarget 0 + 50)) (rd s .hallRateRateTarget 0)) s
    Works .powerCapRelease s
      { u with power := { s.power with capHeld := s.power.capHeld && decide (rd u .hallRateRateTarget 0 < top) } })

/-- At 100 °C the target falls by 50 down to the floor, and the temperature limit with it; below 97 °C the limit rises by 50 and,
unless the power cap holds it, the target; between them only the temperature shows; at 110 °C the device trips, reports FATAL
and resets with its tile off; 90 °C ends the trip (R24, R541). -/
def Sys2Proof.Claims.ThermalEventsComplete : Prop :=
  (∀ tj s, hostAnswers s = true →
    let u := wr .pwrSupplyTj 0 tj s
    let n := max rateFloor (rd u .hallRateRateTarget 0 - 50)
    (100 ≤ tj → rateFloor < rd u .hallRateRateTarget 0 → Works (.thermalStep tj) s
      { bump .pwrLimitThermal 0 1 (wr .hallRateRateTarget 0 n u) with power := { u.power with tempLimit := n } })
    ∧ ((tj < 100 ∨ rd u .hallRateRateTarget 0 ≤ rateFloor) → Works (.thermalStep tj) s u))
  ∧ (∀ tj s, hostAnswers s = true →
    let u := wr .pwrSupplyTj 0 tj s
    let n := min 2000 (s.power.tempLimit + 50)
    let v := { u with power := { u.power with tempLimit := n } }
    (tj < 97 → s.power.tempLimit < 2000 →
      Works (.thermalRecover tj) s (if s.power.capHeld then v else wr .hallRateRateTarget 0 n v))
    ∧ ((97 ≤ tj ∨ 2000 ≤ s.power.tempLimit) → Works (.thermalRecover tj) s u))
  ∧ (∀ tj s, 110 ≤ tj → s.power.tripped = false →
    let t := fullResetTileOff causeTrip (report srcPower .thermalTrip sevFatal none (wr .pwrSupplyTj 0 tj s))
    Gives (.thermalTrip tj) s { t with power := { t.power with tripped := true } })
  ∧ (∀ s, Gives .thermalTripRelease s { s with power := { s.power with tripped := false } })

/-- The power cap and the temperature limit act and let go (R24, R540, R541). -/
def Obligations.PowerLimitsComplete : Prop := Claims.PowerCapCompletes ∧ Claims.ThermalEventsComplete

/-- A quiet device with no known event waits 1 ms and enters the deepest allowed state; with one it enters what pays until then;
entry takes its cost; wakes start their latency before the event, at the poll of P3, or on an arrival; WAKE_DONE is P0, after P3
with its ports linked and its peers probed, with the sheds of stages entered meanwhile and the frames that waited (R538, R542,
R545 to R549, R554, R559, R561). -/
def Obligations.PowerStatesComplete : Prop :=
  (∀ s, Up s → isQuiet s = true → rd s .pwrStateState 0 = 0 → s.power.move = .none → s.power.holdUntil ≤ s.localTime →
    (nextEvent s = none →
      Gives .deviceQuiet s { s with power := { s.power with move := .quiet, quietAt := s.localTime, event := none } })
    ∧ (∀ e, nextEvent s = some e → Gives .deviceQuiet s (enterPower (deepest s (rd s .pwrCtrlMaxState 0)
        (fun n => decide (10 * (entryCost n + wakeLatency n) ≤ 9 * (e - s.localTime)))) (some e) s)))
  ∧ (∀ s, Up s → s.power.move = .quiet →
    let u := reach (s.power.quietAt + 1000000) s
    (isQuiet s = true → Gives .quietIdleTimer s
      (enterPower (deepest u (min (rd u .pwrCtrlDeepIdle 0) (rd u .pwrCtrlMaxState 0)) (fun _ => true)) none u))
    ∧ (isQuiet s = false → Gives .quietIdleTimer s { s with power := { s.power with move := .none } }))
  ∧ (∀ s n, Up s → s.power.move = .entering n → 1 ≤ n → n ≤ 3 →
    let u := reach (s.power.quietAt + entryCost n) s
    let poll := u.localTime + 1000000 * max 10 (rd u .pwrCtrlP3PollMs 0)
    let v := { u with p0Regs := u.regs, power := { u.power with
      move := .none, enteredAt := u.localTime, pollAt := if n = 3 then poll else 0, stageAtEntry := rd u .pwrStageStage 0 } }
    let w := bump (if n = 1 then .pwrStateStatP1Entries else if n = 2 then .pwrStateStatP2Entries
      else .pwrStateStatP3Entries) 0 1 (wr .pwrStateState 0 n v)
    Gives .powerStateEntryDone s (if n = 3 then portsRest w else w))
  ∧ (∀ s e, Up s → nextEvent s = some e → resting s = true →
    let u := reach (e - wakeLatency (rd s .pwrStateState 0)) s
    let hold := if rd s .pwrStateState 0 = 3 ∧ e = s.power.pollAt then e + 20000000 else s.power.holdUntil
    Gives .knownEventWake s { u with power := { u.power with move := .waking, event := some e, holdUntil := hold } })
  ∧ (∀ s, Up s → rd s .pwrStateState 0 = 3 → resting s = true →
    let u := reach s.power.pollAt s
    Gives .p3PollWake s { u with power := { u.power with move := .waking, event := none, holdUntil := u.localTime + wakeLatency 3 + 20000000 } })
  ∧ (∀ s, Up s → s.power.holdUntil ≠ 0 →
    let u := reach s.power.holdUntil s
    Gives .p3PollHoldEnd s { u with power := { u.power with holdUntil := 0 } })
  ∧ (∀ s, Up s →
    let woken := if rd s .pwrStateState 0 = 0 ∧ (s.power.move = .none ∨ s.power.move = .quiet) then s
      else { s with power := { s.power with move := .waking } }
    Works (.wakeArrival .doorbell) s woken ∧ Works (.wakeArrival .registerAccess) s woken
    ∧ Works (.wakeArrival .cxlAccess) s woken ∧ Works (.wakeArrival .alarm) s woken ∧ Works (.wakeArrival .sidebandRequest) s s
    ∧ (∀ p, portOk p = true → Works (.wakeArrival (.controlPacket p)) s s)
    ∧ (∀ f, f.wf = true → Works (.wakeArrival (.dataFrame f)) s (packetEffect f s)))
  ∧ (∀ s, Up s → s.power.move = .waking →
    let n := rd s .pwrStateState 0
    let late := (s.power.event.map (fun e => decide (e < s.localTime))).getD false
    let s1 := if n = 0 then s else countResidency (s.localTime - s.power.enteredAt) s
    let s2 := if late then bump .pwrStateLateWakes 0 1 s1 else s1
    let s3 := wr .pwrStateState 0 0 { s2 with power := { s2.power with move := .none, event := none, pollAt := 0 } }
    let s4 := if n = 3 then pollPeers (portsReturn s3) else s3
    let s5 := if n ≠ 0 ∧ stageOn s4 1 then wr .errTelemCtrlShed 0 1 s4 else s4
    let s6 := if n ≠ 0 ∧ stageOn s5 3 then idlePorts s5 else s5
    let s7 := if n ≠ 0 ∧ s6.power.stageAtEntry < 2 ∧ stageOn s6 2 then recallOnStage s6 else s6
    Works .wakeDone s (each (List.range 8) (fun p s =>
      each (portOf s p).ingress receive (onPort p (fun x => { x with ingress := [] }) s)) s7))
  ∧ (∀ v s, hostAnswers s = true →
    let u := wr .pwrCtrlMaxState 0 (bits v 0 2) (wr .pwrCtrlDeepIdle 0 (bits v 2 2) (wr .pwrCtrlP3PollMs 0 (bits v 4 12) s))
    Works (.pwrCtrlWrite 0 v) s (if rd u .pwrCtrlMaxState 0 < rd u .pwrStateState 0 then startWake u else u))
  ∧ (∀ fn v s, hostAnswers s = true → fnOk fn = true → fn ≠ 0 → Works (.pwrCtrlWrite fn v) s s)

/-- VAUX in range powers the always-on domain and its loss resets it; VIN in range starts the tile; PERST_N asserted resets the
device, deasserted samples the straps (R418, R453, R530, R531, R550). -/
def Sys2Proof.Claims.PowerPinsComplete : Prop :=
  (∀ s, s.power.vauxOk = true → Gives .powerOn s s)
  ∧ (∀ s, s.power.vauxOk = false →
    let u := powerOnReset s
    Gives .powerOn s { u with power := { u.power with vauxOk := true } })
  ∧ (∀ s, s.power.vauxOk = true → s.power.tripped = false → Gives .tileStart s { s with power := { s.power with tileOn := true } })
  ∧ (∀ s, Gives .vauxFail s (powerOnReset s))
  ∧ (∀ s, let u := fullReset causePerst s
    Gives .perstAssert s { u with power := { u.power with perst := true } })
  ∧ (∀ n s, s.power.perst = false → Gives (.perstDeassert n) s s)
  ∧ (∀ n s, s.power.perst = true →
    Gives (.perstDeassert n) s (wr .pciLinkBif 0 (bits n 0 1) (wr .pciLinkBif 1 (bits n 0 1)
      { s with power := { s.power with perst := false, straps := n } })))

/-- Once the reset is released BOOT with valid images, a plan that passes its checks and every assigned stack trained leaves boot
with the device running; with no boot header, no valid image of a kind, a plan that fails a check or an assigned stack that did
not train it stops with the step and the code (R511, R513 to R515, R522, R530). -/
def Sys2Proof.Claims.BootCompletes : Prop :=
  ∀ env s, released s = true →
    let s1 := wr .errAlarmFatal 0 0 (activateStaged { s with plan := Plan.empty })
    (hdrOf s1.xspi = none → Works (.boot env) s (bootStop 1 0x01 s1) ∧ (bootStop 1 0x01 s1).phase = .stopped)
    ∧ ∀ h, hdrOf s1.xspi = some h →
    let h' := [0, 1, 2].foldl countTrial h
    let s2 := if h' = h then s1 else writeHdr h' s1
    (chooseImage s2 h' 0 = none → Works (.boot env) s (bootStop 1 0x10 s2))
    ∧ ∀ rot, chooseImage s2 h' 0 = some rot →
    let s3 := { showImage h' 0 rot s2 with rotRunning := some rot.2.1 }
    (chooseImage s3 h' 1 = none → Works (.boot env) s (bootStop 3 0x11 s3))
    ∧ ∀ fw, chooseImage s3 h' 1 = some fw →
    let s4 := { showImage h' 1 fw s3 with fwRunning := some fw.2.1 }
    (chooseImage s4 h' 2 = none → Works (.boot env) s (bootStop 3 0x12 s4))
    ∧ ∀ pl, chooseImage s4 h' 2 = some pl →
    let s5 := { showImage h' 2 pl s4 with planImage := some pl.2.1 }
    let s6 := { s5 with plan := loadPlan ((pl.2.1.plan).getD Plan.empty) }
    (∀ code, planCheck s6 = some code → Works (.boot env) s (bootStop 4 code s5))
    ∧ (planCheck s6 = none → (assignedStacks s6).all (fun k => bit env.stacksTrained k) = false →
      Works (.boot env) s (bootStop 5 0x30 s6))
    ∧ (planCheck s6 = none → (assignedStacks s6).all (fun k => bit env.stacksTrained k) = true →
      Works (.boot env) s (bootLeave env (bootTrain env s6)) ∧ (bootLeave env (bootTrain env s6)).phase = .running)

/-- The loss of SREFCLK takes every active port down with cause link lost; of AUXCLK, and an overcurrent on the ONFI rail, every
flash channel; of a half's HREFCLK, the half's link (R599, R606). -/
def Sys2Proof.Claims.ClockLossesComplete : Prop :=
  (∀ s, Up s → Works .srefclkLoss s (report (srcPort 0) .clockLost sevDegraded none
    (each ((List.range 8).filter (fun p => rd s .fabPortStatusState p != 0 && rd s .fabPortStatusState p != 4))
      (fun p => portDown p 1 0) s)))
  ∧ (∀ s, hostAnswers s = true → Works .auxclkLoss s (channelsFail (report srcReset .clockLost sevDegraded none s)))
  ∧ (∀ s, Works (.hrefclkLoss 0) s (surpriseDown 0 s))
  ∧ (∀ s, on s .pciLinkBif 0 = true → Works (.hrefclkLoss 1) s (surpriseDown 1 s))
  ∧ (∀ s, on s .pciLinkBif 0 = false → Works (.hrefclkLoss 1) s s)
  ∧ (∀ s, hostAnswers s = true → s.power.onfiOff = false →
    Works .onfiVccqOvercurrent s (channelsFail (report srcFlash .overcurrent sevDegraded none
      { s with power := { s.power with onfiOff := true } })))
  ∧ (∀ s, hostAnswers s = true → s.power.onfiOff = true → Works .onfiVccqOvercurrent s s)

/-- Power pins, boot and clock losses complete (R418, R453, R511 to R515, R530, R531, R550, R599, R606). -/
def Obligations.ResetRowsComplete : Prop := Claims.PowerPinsComplete ∧ Claims.BootCompletes ∧ Claims.ClockLossesComplete

/-! Rules of the specification that hold of every command or of every value. -/

/-- Completions of every status carry its code of the status table, and so do the status records of an ATTEND and the report
records of a publication (R438, R97, R217). -/
def Obligations.StatusCodes : Prop :=
  (List.map Status.code [.ok, .busy, .busyPower, .badParam, .badState, .access, .revoked, .noSeq, .exists_, .noSpace, .limit,
    .narrowKeys, .poison, .duplicateDiffers, .peerLost, .timeout, .badOpcode, .closing, .cancelled]) = List.range 0x13
  ∧ (∀ r k phase head, leAt (compBytes r k phase head) 2 1 = k.status.code)
  ∧ (∀ a h p, leAt (statusRecord a h p) 0 1 = (p.status.getD .ok).code)
  ∧ (∀ x i p, x.pages[i]? = some p → leAt (reportBytes x) (16 * i) 1 = (p.1.getD .ok).code)

/-- A completion entry is 16 bytes: TAG, STATUS, PHASE with its reserved bits 0, SUB_HEAD, RING, RESULT; the payload of a fabric
completion is the same with PHASE 0 (R436). -/
def Obligations.CompletionLayout : Prop :=
  (∀ r k phase head, r < 1024 → k.tag < 2 ^ 16 → phase < 2 → head < 2 ^ 16 → k.result < 2 ^ 64 →
    let b := compBytes r k phase head
    b.length = 16 ∧ leAt b 0 2 = k.tag ∧ leAt b 2 1 = k.status.code ∧ leAt b 3 1 = phase ∧ leAt b 4 2 = head
      ∧ leAt b 6 2 = r ∧ leAt b 8 8 = k.result)
  ∧ (∀ r k s, ∃ off u, postFabric r k s = oweChit k.chit (sendMsg (rd s .pciRingCfgConn r) opWrite (rd s .pciRingCfgCompWin r) off true
      (.completion r k.slot) (compBytes r k 0 (rd s .pciRingStateHead r)) u))

/-- A queue wait below 1 µs falls into bucket 0, one of 2^(k−1) µs or more and below 2^k into bucket k, one of 16,384 µs or more
into bucket 15 (R172). -/
def Obligations.WaitBuckets : Prop :=
  ∀ ns : Nat, (ns < 1000 → waitBucket ns = 0)
    ∧ (∀ k, 1 ≤ k → k ≤ 14 → 1000 * 2 ^ (k - 1) ≤ ns → ns < 1000 * 2 ^ k → waitBucket ns = k)
    ∧ (1000 * 16384 ≤ ns → waitBucket ns = 15)

/-- Page p of every layer lives on the stack (p mod s) of the s stacks of its pitch in ascending order, where a seal puts its
crate (R16). -/
def Obligations.PagesSpreadOverStacks : Prop :=
  (∀ s p page, pitchStacks s p ≠ [] → (pitchStacks s p)[page % (pitchStacks s p).length]? = some (stackOf s p page))
  ∧ (∀ s p, (pitchStacks s p).Pairwise (fun a b => a < b) ∧ ∀ k, k ∈ pitchStacks s p ↔ k < 8 ∧ (pitchPlan s p).granules.contains k = true)
  ∧ (∀ x q toks s, (sealPage x q toks s).crates = s.crates
    ∨ ∃ k, (sealPage x q toks s).crates = s.crates ++ [k] ∧ k.layer = x.layer ∧ k.stack = stackOf s q.pitch k.page)

/-- Element 2k of a block of 4-bit codes sits in bits [3:0] of byte k and element 2k + 1 in bits [7:4]; the bytes of a number lie
lowest first (R49). -/
def Obligations.NibblesAndByteOrder : Prop :=
  (∀ (l : List Nat) (k a b : Nat), (∀ x ∈ l, x < 16) → l[2 * k]? = some a → l[2 * k + 1]? = some b →
    ∃ y, (pairUp l)[k]? = some y ∧ y.toNat % 16 = a ∧ y.toNat / 16 = b)
  ∧ (∀ n v i, i < n → ((leBytes n v)[i]?).map BitVec.toNat = some (v / 256 ^ i % 256))
  ∧ (∀ bs : Bytes, leBytes bs.length (leNat bs) = bs)

/-- ACCEPT keeps in each layer the tentative tokens its mask names, in rising order after the committed ones, and discards the
others: a mask of the low n bits keeps the first n, a mask of 0 none; a stripe member
that does not hold those tokens only counts them (R68). -/
def Obligations.AcceptKeepsItsMask : Prop :=
  Claims.AcceptRuns
  ∧ (∀ q mask l, l.cur ≤ 1 → ownCount q (l.len + l.tent) = ownLen q l + l.tent → l.tent ≤ (barrowToks l).length →
    let toks := barrowToks l
    let old := toks.take (toks.length - l.tent)
    let new := toks.drop (toks.length - l.tent)
    barrowToks (acceptLayer q mask l) = old ++ ((new.zipIdx).filter (fun x => mask.testBit x.2)).map (fun x => x.1)
    ∧ (acceptLayer q mask l).len = l.len + ((List.range l.tent).filter (fun i => mask.testBit i)).length
    ∧ (acceptLayer q mask l).tent = 0
    ∧ (∀ n, n ≤ l.tent → mask = 2 ^ n - 1 →
      barrowToks (acceptLayer q mask l) = old ++ new.take n ∧ (acceptLayer q mask l).len = l.len + n))
  ∧ (∀ q mask l, l.cur ≤ 1 → ownCount q (l.len + l.tent) ≠ ownLen q l + l.tent →
    barrowToks (acceptLayer q mask l) = barrowToks l
    ∧ (acceptLayer q mask l).len = l.len + ((List.range l.tent).filter (fun i => mask.testBit i)).length
    ∧ (acceptLayer q mask l).tent = 0)

/-- An aligned 8-byte access to a chit of the function's own returns or sets its value; any other access to the chit pages reads
0, writes nothing, and is logged (R446). A read that comes while the device wakes is held until it is awake (R626). -/
def Obligations.ChitPages : Prop :=
  (∀ fn c s, fnOk fn = true → hostAnswers s = true → c < 16384 → chitOwned s fn c = true →
    let u := startWake s
    (awake u = true →
      ∃ t, exec (.registerRead (.fn fn) (bar2 + 0x400000 + 8 * c) 8) s = .next (keepQueue s t)
        ∧ t.answers = s.answers ++ [(.fn fn, bar2 + 0x400000 + 8 * c, chitVal s c)] ∧ t.chits = s.chits)
    ∧ (awake u = false →
      exec (.registerRead (.fn fn) (bar2 + 0x400000 + 8 * c) 8) s
        = .next (keepQueue s { u with readsHeld := u.readsHeld ++ [(fn, bar2 + 0x400000 + 8 * c, 8)] })))
  ∧ (∀ fn a size s, fnOk fn = true → hostAnswers s = true → a < 0x20000 → size ≤ 64 →
    (size ≠ 8 ∨ a % 8 ≠ 0 ∨ chitOwned s fn (a / 8) = false) →
    let u := startWake s
    (awake u = true →
      ∃ t, exec (.registerRead (.fn fn) (bar2 + 0x400000 + a) size) s = .next (keepQueue s t)
        ∧ t.answers = s.answers ++ [(.fn fn, bar2 + 0x400000 + a, 0)] ∧ t.chits = s.chits
        ∧ t.crier = (refuseAccess (.fn fn) u).crier)
    ∧ (awake u = false →
      exec (.registerRead (.fn fn) (bar2 + 0x400000 + a) size) s
        = .next (keepQueue s { u with readsHeld := u.readsHeld ++ [(fn, bar2 + 0x400000 + a, size)] })))
  ∧ (∀ fn c v s, Up s → fnOk fn = true → c < 16384 → chitOwned s fn c = true →
    Works (.chitHostWrite fn (0x400000 + 8 * c) 8 v) s (updateChit (.set c v) (startWake s)))
  ∧ (∀ fn a size v s, Up s → fnOk fn = true → a < 0x20000 → (size ≠ 8 ∨ a % 8 ≠ 0 ∨ chitOwned s fn (a / 8) = false) →
    Works (.chitHostWrite fn (0x400000 + a) size v) s (refuseAccess (.fn fn) (startWake s)))

/-- CHIT_SET and CHIT_ADD return the value that results from their own update with OK; an INDEX outside the owner's range gives
ACCESS, and then a nonzero reserved byte gives BAD_PARAM (R442). -/
def Obligations.ChitSetAndAdd : Prop :=
  Claims.ChitValuesSet
  ∧ (∀ op ∈ [Opcode.chitSet, .chitAdd], ∀ r e s c t, started op r e s = some (c, t) → chitOwned t (cmdOwner t c) (fieldOf c.entry 0x10 4) = false →
    Works (submitRow op r e) s (failWord c.id .access t))
  ∧ (∀ op ∈ [Opcode.chitSet, .chitAdd], ∀ r e s c t, started op r e s = some (c, t) → chitOwned t (cmdOwner t c) (fieldOf c.entry 0x10 4) = true →
    (zeroAt c.entry 0x14 4 = false ∨ zeroAt c.entry 0x20 32 = false) →
    Works (submitRow op r e) s (failWord c.id .badParam t))

/-- A stall's queue holds the runs of higher priority first, then those of the ATTEND accepted earlier, then of the lower entry
index, then of the lower first page, whatever comes (R145; runs equal in all four stay in order of arrival, the model's
choice: log entry 21). -/
def Obligations.RunsQueueInOrder : Prop :=
  (∀ w l, (∀ x ∈ w :: l, x.prio ≤ 15) → l.Pairwise runBefore → (insertWork w l).Pairwise runBefore)
  ∧ (∀ w l, (insertWork w l).Perm (w :: l))

/-- Every field keeps its value over a full reset if its kind is power-on or fuse, and takes its reset value otherwise (R12,
R13). -/
def Obligations.FullResetRestoresFields : Prop :=
  ∀ f i s, rd (restoreFull s) f i
    = (match f.desc.kind with
      | .powerOn | .fuse => rd s f i
      | _ => resetValue s f i)

/-- A full reset of a device that is not in one discards all work, records its cause, counts itself, and keeps fuses, flashes
and what has left the part; a cause that arises in reset changes nothing; the read-threshold loops
start again (R23, R552 to R554). -/
def Obligations.FullResetDiscardsWork : Prop :=
  (∀ cause s, s.phase ≠ .reset → cause < 16 →
    let t := fullReset cause s
    t.phase = .reset ∧ t.cmds = [] ∧ t.rings = [] ∧ t.seqs = [] ∧ t.crates = [] ∧ t.attends = [] ∧ t.windows = [] ∧ t.conns = []
      ∧ t.chits = [] ∧ t.dram = [] ∧ t.hall = [] ∧ rd t .pwrResetCauseCause 0 = cause
      ∧ rd t .pwrResetCauseFullResets 0 = min (rd s .pwrResetCauseFullResets 0 + 1) 65535
      ∧ t.fuses = s.fuses ∧ t.xspi = s.xspi ∧ t.keyArea = s.keyArea ∧ t.zones = s.zones.map Zone.loopEnds ∧ t.wire = s.wire ∧ t.pending = s.pending)
  ∧ (∀ cause s, s.phase = .reset → fullReset cause s = s)

/-- After reset the block holds no work, its memories are zero, every register field has its reset value and nothing is running:
the device comes up by POWER_ON, TILE_START, PERST_DEASSERT and BOOT (R530, R552; the values that the specification does
not give are the model's choice: log entries 1, 5 and 6). -/
def Obligations.ResetState : Prop :=
  running State.reset = false ∧ State.reset.cmds = [] ∧ State.reset.seqs = [] ∧ State.reset.crates = [] ∧ State.reset.power = Power.off
    ∧ (∀ f i, rd State.reset f i = resetValue State.reset f i)
    ∧ (∀ a, Memory.read State.reset.dram a = 0 ∧ Memory.read State.reset.hall a = 0 ∧ Memory.read State.reset.hostMem a = 0)
    ∧ Memory.wf State.reset.dram = true ∧ Memory.wf State.reset.hall = true ∧ Memory.wf State.reset.hostMem = true

/-- A device that does not run takes no notice of the rows that act only while it runs: ring commands, engines, messages of peers
and packets, timers, doorbells (R520, R552). -/
def Obligations.RestingDeviceIgnores : Prop :=
  ∀ c s, running s = false → c.wf = true → actsAtRest c = false → exec c s = .next s

/-- The only command after which a device runs that did not run before is BOOT (R511, R520, R552). -/
def Obligations.OnlyBootStartsTheDevice : Prop :=
  ∀ c s t, running s = false → exec c s = .next t → running t = true → ∃ env, c = .boot env ∧ released s = true

/-- A memory write keeps the canonical form and changes its own byte only; memories in that form that read alike are equal. -/
def Obligations.MemoriesAreCanonical : Prop :=
  (∀ (m : Memory) a b c, Memory.wf m = true →
    Memory.wf (Memory.write m a b) = true ∧ Memory.read (Memory.write m a b) c = (if c = a then b else Memory.read m c))
  ∧ (∀ (m : Memory) a bs, Memory.wf m = true →
    Memory.wf (Memory.writeN m a bs) = true ∧ Memory.readN (Memory.writeN m a bs) a bs.length = bs
      ∧ ∀ c, (c < a ∨ a + bs.length ≤ c) → Memory.read (Memory.writeN m a bs) c = Memory.read m c)
  ∧ (∀ (m : Memory) lo n c, Memory.wf m = true → Memory.wf (Memory.zero m lo n) = true
    ∧ Memory.read (Memory.zero m lo n) c = (if lo ≤ c ∧ c < lo + n then 0 else Memory.read m c))
  ∧ (∀ m n : Memory, Memory.wf m = true → Memory.wf n = true → (∀ a, Memory.read m a = Memory.read n a) → m = n)

/-- A handle's word is 64 bits with TIER in [63:61], DEVICE in [60:51], PITCH in [50:47], FORMAT in [46:44] and LOCATION in [43:0],
and gives the handle back (R42, R43). -/
def Obligations.HandleWordsRoundTrip : Prop :=
  ∀ h : Handle, h.tier < 8 → h.device < 1024 → h.pitch < 16 → h.format < 8 →
    h.word < 2 ^ 64 ∧ bits h.word 61 3 = h.tier ∧ bits h.word 51 10 = h.device ∧ bits h.word 47 4 = h.pitch
      ∧ bits h.word 44 3 = h.format ∧ bits h.word 0 44 = h.location.toNat
      ∧ (h.word ≠ nullHandle → handleOf h.word = some h)

/-- Every code that quantisation gives fits its element's width and its scale's byte; an integer code is never the most negative
one; a group of zeros gives zeros (R48, R50). -/
def Obligations.QuantisedCodesFit : Prop :=
  ∀ k xs, (quantGroup k xs).1 < 256 ∧ (quantGroup k xs).2.length = xs.length
    ∧ (∀ c ∈ (quantGroup k xs).2, c < 2 ^ k.bits)
    ∧ ((k = .int8 ∨ k = .int4) → ∀ c ∈ (quantGroup k xs).2, c ≠ 2 ^ (k.bits - 1))
    ∧ ((∀ x ∈ xs, x = 0) → (quantGroup k xs).1 = 0 ∧ ∀ c ∈ (quantGroup k xs).2, c = 0)

/-- A SEQ_OPEN without import that runs leaves its sequence ACTIVE in its ledger slot, empty in every layer, and no other
sequence changed (R41, R77). -/
def Obligations.OpenedSequenceIsActive : Prop :=
  ∀ c p slot h s, cmdOf s c.id = some c → c.members = [] → (∀ q ∈ s.seqs, q.uid ≠ s.order ∧ q.closer ≠ some c.id ∧ q.fork ≠ some c.id) →
    let u := createSeq c p slot 0 h [0] 0 false [] s
    ∃ q, u.seqs = s.seqs ++ [q] ∧ q.uid = s.order ∧ q.st = .active ∧ q.slot = slot ∧ q.pitch = p ∧ q.id = fieldOf c.entry 0x10 4
      ∧ q.shape = h ∧ q.layers.length = h.layers ∧ (∀ l ∈ q.layers, l.len = 0 ∧ l.tent = 0 ∧ l.sealed = 0)

/-- The commands of the operator and of its registers leave memories, chits, sequences, crates, fuses and flashes as they are
(R567, R569, R572, R573, R583, R628, R452). -/
def Obligations.OperatorCommandsLeaveWork : Prop :=
  ∀ c s t, c ∈ operatorRows → exec c s = .next t →
    t.dram = s.dram ∧ t.hall = s.hall ∧ t.chits = s.chits ∧ t.seqs = s.seqs ∧ t.crates = s.crates ∧ t.cmds = s.cmds ∧ t.rings = s.rings
      ∧ t.fuses = s.fuses ∧ t.xspi = s.xspi ∧ t.keyArea = s.keyArea ∧ t.phase = s.phase

/-- Every entry is checked before its command's own checks: an opcode that is not in the table, a command not allowed on this
kind of ring, a pitch not bound or CLOSING, a chit outside the owner's range, a reserved byte or a CHAIN_ID without CHAINED; the
first that holds decides the status and the command does nothing else (R439). -/
def Obligations.HeaderChecks : Prop :=
  Claims.BadOpcodeCompletes
  ∧ (∀ op r e s fn a rest st, Up s → ringOk r = true → ringFn s r = some fn → (ringOf s r).accepted = a :: rest → mayFetch s r = true →
    let e' := withOpcode op.code e
    entryThere s r a.slot e' = true →
    let c := cmdOfEntry s (some op) r fn a e'
    let t := onRing r (fun x => { x with accepted := rest }) { s with cmds := s.cmds ++ [c] }
    ((headerFailures t op fn e').find? (fun x => x.1)).map (fun x => x.2) = some st →
    Works (submitRow op r e) s (failCmd (some op) c.id st (startedCmd c.id t)))
end

