-- ==== Sys2Proof/Laws/Memory.lean ====
section
/-! SUPPORT. Memories: every operation keeps the canonical form, and reads after writes. -/
namespace Sys2Proof.Machine

/-- The canonical form, cell by cell: the first cell is not 0 and lies below every later one. -/
theorem memory_wf_cons (c : Host.Cell) (m : Memory) :
    Memory.wf (c :: m) = true ↔ c.2 ≠ 0 ∧ (∀ d ∈ m, c.1 < d.1) ∧ Memory.wf m = true := by
  induction m generalizing c with
  | nil => simp [Memory.wf]
  | cons d t ih =>
    rw [Memory.wf, Bool.and_eq_true, Bool.and_eq_true, ih d]
    simp only [bne_iff_ne, decide_eq_true_eq, List.mem_cons, forall_eq_or_imp]
    constructor
    · rintro ⟨⟨h1, h2⟩, h3, h4, h5⟩
      exact ⟨h1, ⟨h2, fun x hx => Nat.lt_trans h2 (h4 x hx)⟩, h3, h4, h5⟩
    · rintro ⟨h1, ⟨h2, _⟩, h3, h4, h5⟩
      exact ⟨⟨h1, h2⟩, h3, h4, h5⟩

/-- An address that no cell lists reads 0. -/
theorem memory_read_absent (m : Memory) (a : Nat) (h : ∀ d ∈ m, d.1 ≠ a) : Memory.read m a = 0 := by
  induction m with
  | nil => rfl
  | cons d t ih =>
    have h1 : ¬ a = d.1 := fun e => h d (by simp) e.symm
    simp only [Memory.read, if_neg h1]
    exact ih (fun x hx => h x (by simp [hx]))

/-- The addresses a write lists: those listed before, and its own. -/
theorem memory_write_mem (m : Memory) (a : Nat) (b : Byte) : ∀ d ∈ Memory.write m a b, d ∈ m ∨ d.1 = a := by
  induction m with
  | nil => intro d hd; simp only [Memory.write] at hd; split at hd <;> simp_all
  | cons c t ih =>
    intro d hd
    simp only [Memory.write] at hd
    split at hd
    · split at hd
      · exact .inl hd
      · rcases List.mem_cons.mp hd with rfl | h
        · exact .inr rfl
        · exact .inl h
    · split at hd
      · split at hd
        · exact .inl (List.mem_cons_of_mem _ hd)
        · rcases List.mem_cons.mp hd with rfl | h
          · exact .inr rfl
          · exact .inl (List.mem_cons_of_mem _ h)
      · rcases List.mem_cons.mp hd with rfl | h
        · exact .inl (List.mem_cons_self ..)
        · rcases ih d h with h | h
          · exact .inl (List.mem_cons_of_mem _ h)
          · exact .inr h

/-- A write keeps the canonical form. -/
theorem memory_write_wf (m : Memory) (a : Nat) (b : Byte) (h : Memory.wf m = true) : Memory.wf (Memory.write m a b) = true := by
  induction m with
  | nil => simp only [Memory.write]; split <;> simp_all [Memory.wf]
  | cons c t ih =>
    obtain ⟨h1, h2, h3⟩ := (memory_wf_cons c t).mp h
    simp only [Memory.write]
    split
    · rename_i hlt
      split
      · exact h
      · rename_i hb
        refine (memory_wf_cons _ _).mpr ⟨hb, ?_, h⟩
        intro d hd
        rcases List.mem_cons.mp hd with rfl | hd
        · exact hlt
        · exact Nat.lt_trans hlt (h2 d hd)
    · split
      · rename_i _ he
        split
        · exact h3
        · rename_i hb
          exact (memory_wf_cons _ _).mpr ⟨hb, fun d hd => he ▸ h2 d hd, h3⟩
      · rename_i hn he
        refine (memory_wf_cons _ _).mpr ⟨h1, ?_, ih h3⟩
        intro d hd
        rcases memory_write_mem t a b d hd with hd | hd
        · exact h2 d hd
        · show c.1 < d.1
          omega

/-- A read after a write: the byte written at its address, what stood there before elsewhere. -/
theorem memory_read_write (m : Memory) (a : Nat) (b : Byte) (x : Nat) (h : Memory.wf m = true) :
    Memory.read (Memory.write m a b) x = if x = a then b else Memory.read m x := by
  induction m with
  | nil =>
    simp only [Memory.write]
    split <;> split <;> simp_all [Memory.read]
  | cons c t ih =>
    obtain ⟨h1, h2, h3⟩ := (memory_wf_cons c t).mp h
    have gap : ∀ y, y ≤ c.1 → Memory.read t y = 0 := fun y hy =>
      memory_read_absent t y (fun d hd e => by have := h2 d hd; omega)
    simp only [Memory.write]
    split
    · rename_i hlt
      split
      · rename_i hb
        split
        · rename_i hx
          have : ¬ x = c.1 := by omega
          simp only [Memory.read, if_neg this, hb]
          exact gap x (by omega)
        · rfl
      · simp only [Memory.read]
    · split
      · rename_i _ he
        split
        · rename_i hb
          by_cases hx : x = a
          · rw [if_pos hx, hb]; exact gap x (by omega)
          · have : ¬ x = c.1 := by omega
            simp only [Memory.read, if_neg hx, if_neg this]
        · have : (x = c.1) = (x = a) := by rw [he]
          simp only [Memory.read, this]
          split <;> rfl
      · simp only [Memory.read, ih h3]
        split
        · rename_i hx
          have : ¬ x = a := by omega
          rw [if_neg this]
        · rfl

/-- Writing a byte string keeps the canonical form. -/
theorem memory_writeN_wf (bs : Bytes) : ∀ (m : Memory) (a : Nat), Memory.wf m = true → Memory.wf (Memory.writeN m a bs) = true := by
  induction bs with
  | nil => exact fun m a h => h
  | cons b t ih => exact fun m a h => ih _ _ (memory_write_wf m a b h)

/-- A byte string changes its own bytes only. -/
theorem memory_read_writeN (bs : Bytes) : ∀ (m : Memory) (a x : Nat), Memory.wf m = true → (x < a ∨ a + bs.length ≤ x) →
    Memory.read (Memory.writeN m a bs) x = Memory.read m x := by
  induction bs with
  | nil => exact fun m a x _ _ => rfl
  | cons b t ih =>
    intro m a x h hx
    simp only [List.length_cons] at hx
    have : ¬ x = a := by omega
    rw [Memory.writeN, ih _ _ _ (memory_write_wf m a b h) (by omega), memory_read_write m a b x h, if_neg this]

/-- Leaving cells out keeps the canonical form. -/
theorem memory_filter_wf (m : Memory) (f : Host.Cell → Bool) (h : Memory.wf m = true) : Memory.wf (m.filter f) = true := by
  induction m with
  | nil => rfl
  | cons c t ih =>
    obtain ⟨h1, h2, h3⟩ := (memory_wf_cons c t).mp h
    rw [List.filter_cons]
    split
    · exact (memory_wf_cons _ _).mpr ⟨h1, fun d hd => h2 d (List.mem_filter.mp hd).1, ih h3⟩
    · exact ih h3

/-- Setting a range to 0 keeps the canonical form. -/
theorem memory_zero_wf (m : Memory) (lo n : Nat) (h : Memory.wf m = true) : Memory.wf (Memory.zero m lo n) = true :=
  memory_filter_wf m _ h

/-- The memories after reset are in canonical form. -/
theorem reset_memories_wf :
    Memory.wf State.reset.dram = true ∧ Memory.wf State.reset.hall = true ∧ Memory.wf State.reset.hostMem = true := by decide

end Sys2Proof.Machine
end

