-- ==== Sys2Proof/Laws/Outcome.lean ====
section
/-! SUPPORT. What the wrappers of commands answer, and the step by the shape of its queue. -/
namespace Sys2Proof.Machine

/-- A step with a command at the front. -/
theorem step_cons {s : State} {c : Instr} {rest : List Instr} (h : s.pending = c :: rest) :
    step s = exec c { s with pending := rest } := by simp only [step, h]

/-- A step of an empty queue. -/
theorem step_nil {s : State} (h : s.pending = []) : step s = .next s := by simp only [step, h]

/-- An effect leaves the queue as the command found it. -/
theorem keepQueue_queue (s t : State) : (keepQueue s t).pending = s.pending := rfl

/-- An event of a running device has its effect. -/
theorem due_up {ok : Bool} {s : State} {f : State → State} (h : running s = true) (hk : ok = true) :
    due ok s f = .next (keepQueue s (f s)) := by simp [due, whenRunning, h, hk]

/-- An event comes to nothing while the device does not run. -/
theorem due_down {ok : Bool} {s : State} {f : State → State} (h : running s = false) (hk : ok = true) :
    due ok s f = .next s := by simp [due, whenRunning, h, hk]

/-- An operand that names no part of the device. -/
theorem due_bad {s : State} {f : State → State} : due false s f = .fault .noSuchUnit := rfl

/-- A command of a running device has its effect, and then the block settles. -/
theorem work_up {ok : Bool} {s : State} {f : State → State} (h : running s = true) (hk : ok = true) :
    work ok s f = .next (keepQueue s (settle (f s))) := due_up h hk

theorem work_down {ok : Bool} {s : State} {f : State → State} (h : running s = false) (hk : ok = true) :
    work ok s f = .next s := due_down h hk

/-- A row that acts in every phase. -/
theorem always_ok {ok : Bool} {s : State} {f : State → State} (hk : ok = true) :
    always ok s f = .next (keepQueue s (f s)) := by simp [always, hk]

theorem workAlways_ok {ok : Bool} {s : State} {f : State → State} (hk : ok = true) :
    workAlways ok s f = .next (keepQueue s (settle (f s))) := always_ok hk

/-- A row that acts while the host is answered. -/
theorem inHold_up {ok : Bool} {s : State} {f : State → State} (h : hostAnswers s = true) (hk : ok = true) :
    inHold ok s f = .next (keepQueue s (settle (f s))) := by simp [inHold, always, h, hk]

theorem inHold_down {ok : Bool} {s : State} {f : State → State} (h : hostAnswers s = false) (hk : ok = true) :
    inHold ok s f = .next s := by simp only [inHold, always, h, hk]; rfl

/-- A device that does not run does not settle. -/
theorem settle_down {s : State} (h : running s = false) : settle s = s := by simp [settle, h]

/-- With no work held nothing settles. -/
theorem settle_idle {s : State} (h : holdsWork s = false) : settle s = s := by simp [settle, h]

/-- Every wrapper answers a next state with the queue as it was where the operands are in order. -/
theorem due_answers {s : State} (f : State → State) : ∃ t, due true s f = .next t ∧ t.pending = s.pending := by
  by_cases h : running s = true
  · exact ⟨_, due_up h rfl, rfl⟩
  · exact ⟨s, due_down (by simpa using h) rfl, rfl⟩

theorem always_answers {s : State} (f : State → State) : ∃ t, always true s f = .next t ∧ t.pending = s.pending :=
  ⟨_, always_ok rfl, rfl⟩

theorem inHold_answers {s : State} (f : State → State) : ∃ t, inHold true s f = .next t ∧ t.pending = s.pending :=
  ⟨_, always_ok rfl, rfl⟩

end Sys2Proof.Machine
end

