-- ==== Sys2Proof/Laws/PerInstr.lean ====
section
/-! SUPPORT. Per command: well-formedness says exactly that every unit the command names is one that the part has. -/
namespace Sys2Proof.Laws.Units

/-- A unit, a function or an index that an operand names. -/
inductive Named where
  | fn (n : Nat) | ring (n : Nat) | pitch (n : Nat) | port (n : Nat) | stall (n : Nat) | core (n : Nat)
  | peer (n : Nat) | conn (n : Nat) | half (n : Nat) | stack (n : Nat) | source (n : Nat) | window (n : Nat)
  | lane (n : Nat) | stage (n : Nat) | channel (n : Nat) | retries (n : Nat) (soft : Bool)
  deriving DecidableEq, Repr

/-- The part has the named unit (R14, R335, R402, R412, R417, R419, R423, R534, R563). -/
def Named.present : Named → Prop
  | .fn n => n < 17
  | .ring n => n < 1024
  | .pitch n => n < 16
  | .port n => n < 8
  | .stall n => n < 32
  | .core n => n < 4
  | .peer n => n < 4096
  | .conn n => n < 65536
  | .half n => n < 2
  | .stack n => n < 8
  | .source n => n < 128
  | .window n => n < 262144
  | .lane n => n < 4
  | .stage n => 1 ≤ n ∧ n ≤ 4
  | .channel n => n < 16
  | .retries n soft => 1 ≤ n ∧ n ≤ 3 ∧ (soft = false ∨ n = 3)

/-- What a read's finding names: a stack, a channel with its retries (R262), a pitch. -/
def readUnits : ReadResult → List Named
  | .corrected k _ _ => [.stack k]
  | .retried n soft c => [.channel c, .retries n soft]
  | .lostBlock c => [.channel c]
  | .lostFrame k _ _ => [.stack k]
  | .lostList _ k _ _ => [.stack k]
  | .ledgerCopy p _ _ _ => [.pitch p]
  | _ => []

/-- The function that asks. -/
def requesterUnits : Requester → List Named
  | .fn n => [.fn n]
  | .sideband => []

/-- The port an arrival comes in at. -/
def arrivalUnits : Arrival → List Named
  | .dataFrame f => [.port f.port]
  | .controlPacket p => [.port p]
  | _ => []

/-- Every unit a command's operands name. -/
def units : Instr → List Named
  | .seqOpen r _ | .seqClose r _ | .seqPark r _ | .seqFork r _ | .attend r _ | .accept r _ | .hintStep r _
  | .prefixLookup r _ | .prefixPublish r _ | .prefixDrop r _ | .winOpen r _ | .winRevoke r _ | .chitSet r _
  | .chitAdd r _ | .chitWait r _ | .pitchBind r _ | .pitchRelease r _ | .timetableSelect r _ | .shaperSet r _
  | .attest r _ | .fullReset r _ | .badOpcodeEntry r _ => [.ring r]
  | .winRevokeDone i => [.window i]
  | .chitDeadline _ => []
  | .releaseDrainDone p | .pitchScrubDone p | .pitchClean p => [.pitch p]
  | .sealCrateWritten d => readUnits d.read
  | .sealSwap _ => []
  | .tileBoundary k o => [.stall k] ++ readUnits o.read
  | .runComplete k => [.stall k]
  | .attendResult _ | .contextSaveDone _ | .contextRestoreDone _ _ | .slotBoundary => []
  | .graceExpiry k | .stallFail k => [.stall k]
  | .fetchScheduleStart _ => []
  | .fetchDone _ r | .evictionCopyDone _ r => readUnits r
  | .promotionDone d | .rebaseDone d => readUnits d.read
  | .recodeDone d => readUnits d.read ++ readUnits d.base
  | .flashCopyWritten _ r => readUnits r
  | .gcZoneDone p _ _ | .catalogueReplayDone p _ _ => [.pitch p]
  | .leaseAsk q pp p => [.peer q] ++ [.pitch pp] ++ [.pitch p]
  | .leaseGrant q p _ | .leaseRefuse q p => [.peer q] ++ [.pitch p]
  | .leaseRecall q _ => [.peer q]
  | .leaseRelease _ | .leaseRecallDeadline _ | .leaseReturn _ => []
  | .leaseBorrowerOrphan q => [.peer q]
  | .recallDrop _ | .recallDropConfirm _ | .recallDropTimeout _ => []
  | .stockProbe q _ _ _ => [.peer q]
  | .stockProbeAnswer _ _ _ => []
  | .stockInsert q _ _ _ => [.peer q]
  | .stockInsertAnswer _ _ => []
  | .stockDrop q _ _ _ h => [.peer q] ++ [.pitch h.pitch]
  | .stockDropAnswer _ _ _ => []
  | .stockDurableMark _ _ _ p => [.pitch p]
  | .replicaPush _ | .replicaHitReport _ | .popHalving | .insertRetry _ => []
  | .orphanRelease q => [.peer q]
  | .holdRequest q p _ => [.peer q] ++ [.pitch p]
  | .holdAnswer _ _ _ => []
  | .tableFetchRequest q _ => [.peer q]
  | .tableFetchAnswer _ _ _ => []
  | .stripeForwardReceive q _ => [.peer q]
  | .stripePartialReceive _ _ _ _ _ | .stripeMemberComplete _ _ _ => []
  | .rxWrite f | .rxReadReq f | .rxReadResp f | .rxAck f | .rxNak f | .rxProbe f | .rxProbeReply f
  | .rxResync f | .rxResyncAck f => [.port f.port]
  | .macControlFrame p => [.port p]
  | .rtoExpiry c _ | .delayedAck c => [.conn c]
  | .silenceProbe q | .peerUnreachable q | .unreachableProbe q => [.peer q]
  | .avoidHoldExpiry c _ => [.conn c]
  | .baseRttInterval => []
  | .egressFrameStart p => [.port p]
  | .rekeyStart q | .rekeyExchangeDone q | .rxInstalled q | .oldKeyRetire q | .rekeyRetry q
  | .peerAttestation q _ => [.peer q]
  | .rekeyTimeout x => [.peer x.peer]
  | .portLinkUp p _ => [.port p]
  | .portLaneFail p l => [.port p] ++ [.lane l]
  | .portLinkRetry p => [.port p]
  | .portReset f p => [.fn f] ++ [.port p]
  | .subTailWrite f r _ | .compHeadWrite f r _ | .ringEnable f r _ | .ringDisable f r _ => [.fn f] ++ [.ring r]
  | .ringFetchError r => [.ring r]
  | .dmaTimeout f | .dmaCompleterAbort f => [.fn f]
  | .coalTimer r => [.ring r]
  | .chitHostWrite f _ _ _ => [.fn f]
  | .pcieLinkUp h _ _ _ | .pcieSurpriseDown h | .pcieHotReset h => [.half h]
  | .perstAssert | .perstDeassert _ => []
  | .cxlMemAccess a => [.half a.half]
  | .cxlSnoopTimeout h _ | .cxlViral h => [.half h]
  | .sessionKeyExpiry _ | .attestBusyTimeout _ | .boot _ => []
  | .coreWatchdog k | .coreException k | .coreSramError k | .coreReady k | .coreReadyTimeout k => [.core k]
  | .fatalHoldExpiry | .trialConfirmTimer => []
  | .fwConfirm f | .liveActivate f => [.fn f]
  | .liveCopyDone _ | .pldmFwComponent _ | .pldmActivateFirmware _ | .pldmBaseRequest _
  | .pldmPlatformRequest _ | .pldmFruRequest _ | .sidebandRegisterRead _ _ | .powerOn | .tileStart | .vauxFail =>
    []
  | .supplyStageEnter g _ | .supplyStageEnd g _ => [.stage g]
  | .supplyReset _ | .powerCapAction _ _ _ _ | .powerCapRelease | .thermalStep _ | .thermalRecover _
  | .thermalTrip _ | .thermalTripRelease | .deviceQuiet | .quietIdleTimer | .powerStateEntryDone
  | .knownEventWake | .p3PollWake | .p3PollHoldEnd | .wakeDone => []
  | .wakeArrival a => arrivalUnits a
  | .pwrCtrlWrite f _ => [.fn f]
  | .srefclkLoss | .auxclkLoss => []
  | .hrefclkLoss h => [.half h]
  | .logBudgetWindow | .telemetrySnapshot _ => []
  | .captureClear q n => requesterUnits q ++ [.source n]
  | .alertClear q | .logReadAdvance q _ => requesterUnits q
  | .evtRingEnable f _ | .evtRingDisable f _ => [.fn f]
  | .tillSnap f p | .tillClear f p _ => [.fn f] ++ [.pitch p]
  | .registerWrite f _ _ _ => [.fn f]
  | .abtoserFault => []
  | .liveActivationTimeout k => [.core k]
  | .onfiVccqOvercurrent => []
  | .remoteHoldRelease q p _ => [.peer q] ++ [.pitch p]
  | .replicaWithdraw _ _ => []
  | .busMasterEnableWrite f _ => [.fn f]
  | .cxlBisnpResponse h _ _ => [.half h]
  | .serdesEqSettled p => [.port p]
  | .registerRead q _ _ => requesterUnits q

/-- A command is well formed exactly when the part has every unit it names. -/
def Statement (i : Instr) : Prop := i.wf = true ↔ ∀ u ∈ units i, u.present

/-- The check of one numbered unit. -/
theorem one (b : Bool) (u : Named) (h : b = true ↔ u.present) : b = true ↔ ∀ v ∈ [u], v.present := by
  simp [h]

/-- A command that names no unit is always well formed. -/
theorem none_named : (true = true) ↔ ∀ v ∈ ([] : List Named), v.present := by simp

/-- Two checks together are the check of both lists of units. -/
theorem both {a b : Bool} {l m : List Named} (ha : a = true ↔ ∀ v ∈ l, v.present)
    (hb : b = true ↔ ∀ v ∈ m, v.present) : (a && b) = true ↔ ∀ v ∈ l ++ m, v.present := by
  simp [ha, hb, or_imp, forall_and]

theorem fn_wf (n : Nat) : fnOk n = true ↔ ∀ v ∈ [Named.fn n], v.present :=
  one _ _ (by simp [fnOk, Named.present])
theorem ring_wf (n : Nat) : ringOk n = true ↔ ∀ v ∈ [Named.ring n], v.present :=
  one _ _ (by simp [ringOk, Named.present])
theorem pitch_wf (n : Nat) : pitchOk n = true ↔ ∀ v ∈ [Named.pitch n], v.present :=
  one _ _ (by simp [pitchOk, Named.present])
theorem port_wf (n : Nat) : portOk n = true ↔ ∀ v ∈ [Named.port n], v.present :=
  one _ _ (by simp [portOk, Named.present])
theorem stall_wf (n : Nat) : stallOk n = true ↔ ∀ v ∈ [Named.stall n], v.present :=
  one _ _ (by simp [stallOk, Named.present])
theorem core_wf (n : Nat) : coreOk n = true ↔ ∀ v ∈ [Named.core n], v.present :=
  one _ _ (by simp [coreOk, Named.present])
theorem peer_wf (n : Nat) : peerOk n = true ↔ ∀ v ∈ [Named.peer n], v.present :=
  one _ _ (by simp [peerOk, Named.present])
theorem conn_wf (n : Nat) : connOk n = true ↔ ∀ v ∈ [Named.conn n], v.present :=
  one _ _ (by simp [connOk, Named.present])
theorem half_wf (n : Nat) : halfOk n = true ↔ ∀ v ∈ [Named.half n], v.present :=
  one _ _ (by simp [halfOk, Named.present])
theorem stack_wf (n : Nat) : stackOk n = true ↔ ∀ v ∈ [Named.stack n], v.present :=
  one _ _ (by simp [stackOk, Named.present])
theorem source_wf (n : Nat) : sourceOk n = true ↔ ∀ v ∈ [Named.source n], v.present :=
  one _ _ (by simp [sourceOk, Named.present])
theorem window_wf (n : Nat) : windowOk n = true ↔ ∀ v ∈ [Named.window n], v.present :=
  one _ _ (by simp [windowOk, Named.present])
theorem stage_wf (n : Nat) : stageOk n = true ↔ ∀ v ∈ [Named.stage n], v.present :=
  one _ _ (by simp [stageOk, Named.present])
theorem lane_wf (n : Nat) : decide (n < 4) = true ↔ ∀ v ∈ [Named.lane n], v.present :=
  one _ _ (by simp [Named.present])

theorem frame_wf (f : Frame) : f.wf = true ↔ ∀ v ∈ [Named.port f.port], v.present := port_wf f.port

theorem read_wf (r : ReadResult) : r.wf = true ↔ ∀ u ∈ readUnits r, u.present := by
  cases r with
  | corrected k _ _ => exact stack_wf k
  | retried n soft c => simp [ReadResult.wf, channelOk, Named.present, readUnits, and_assoc]
  | lostBlock c => exact one _ _ (by simp [ReadResult.wf, channelOk, Named.present])
  | lostFrame k _ _ => exact stack_wf k
  | lostList _ k _ _ => exact stack_wf k
  | ledgerCopy p _ _ _ => exact pitch_wf p
  | _ => exact none_named

theorem requester_wf (q : Requester) : q.wf = true ↔ ∀ u ∈ requesterUnits q, u.present := by
  cases q with
  | fn n => exact fn_wf n
  | sideband => exact none_named

theorem arrival_wf (a : Arrival) : a.wf = true ↔ ∀ u ∈ arrivalUnits a, u.present := by
  cases a with
  | dataFrame f => exact port_wf f.port
  | controlPacket p => exact port_wf p
  | _ => exact none_named

theorem seqOpen (ring : Nat) (entry : Entry) : Statement (.seqOpen ring entry) :=
  ring_wf ring
theorem seqClose (ring : Nat) (entry : Entry) : Statement (.seqClose ring entry) :=
  ring_wf ring
theorem seqPark (ring : Nat) (entry : Entry) : Statement (.seqPark ring entry) :=
  ring_wf ring
theorem seqFork (ring : Nat) (entry : Entry) : Statement (.seqFork ring entry) :=
  ring_wf ring
theorem attend (ring : Nat) (entry : Entry) : Statement (.attend ring entry) :=
  ring_wf ring
theorem accept (ring : Nat) (entry : Entry) : Statement (.accept ring entry) :=
  ring_wf ring
theorem hintStep (ring : Nat) (entry : Entry) : Statement (.hintStep ring entry) :=
  ring_wf ring
theorem prefixLookup (ring : Nat) (entry : Entry) : Statement (.prefixLookup ring entry) :=
  ring_wf ring
theorem prefixPublish (ring : Nat) (entry : Entry) : Statement (.prefixPublish ring entry) :=
  ring_wf ring
theorem prefixDrop (ring : Nat) (entry : Entry) : Statement (.prefixDrop ring entry) :=
  ring_wf ring
theorem winOpen (ring : Nat) (entry : Entry) : Statement (.winOpen ring entry) :=
  ring_wf ring
theorem winRevoke (ring : Nat) (entry : Entry) : Statement (.winRevoke ring entry) :=
  ring_wf ring
theorem winRevokeDone (index : Nat) : Statement (.winRevokeDone index) :=
  window_wf index
theorem chitSet (ring : Nat) (entry : Entry) : Statement (.chitSet ring entry) :=
  ring_wf ring
theorem chitAdd (ring : Nat) (entry : Entry) : Statement (.chitAdd ring entry) :=
  ring_wf ring
theorem chitWait (ring : Nat) (entry : Entry) : Statement (.chitWait ring entry) :=
  ring_wf ring
theorem chitDeadline (cmd : Nat) : Statement (.chitDeadline cmd) :=
  none_named
theorem pitchBind (ring : Nat) (entry : Entry) : Statement (.pitchBind ring entry) :=
  ring_wf ring
theorem pitchRelease (ring : Nat) (entry : Entry) : Statement (.pitchRelease ring entry) :=
  ring_wf ring
theorem releaseDrainDone (pitch : Nat) : Statement (.releaseDrainDone pitch) :=
  pitch_wf pitch
theorem pitchScrubDone (pitch : Nat) : Statement (.pitchScrubDone pitch) :=
  pitch_wf pitch
theorem pitchClean (pitch : Nat) : Statement (.pitchClean pitch) :=
  pitch_wf pitch
theorem timetableSelect (ring : Nat) (entry : Entry) : Statement (.timetableSelect ring entry) :=
  ring_wf ring
theorem shaperSet (ring : Nat) (entry : Entry) : Statement (.shaperSet ring entry) :=
  ring_wf ring
theorem attest (ring : Nat) (entry : Entry) : Statement (.attest ring entry) :=
  ring_wf ring
theorem fullReset (ring : Nat) (entry : Entry) : Statement (.fullReset ring entry) :=
  ring_wf ring
theorem badOpcodeEntry (ring : Nat) (entry : Entry) : Statement (.badOpcodeEntry ring entry) :=
  ring_wf ring
theorem sealCrateWritten (done : DoneRead) : Statement (.sealCrateWritten done) :=
  read_wf done.read
theorem sealSwap (sealId : Nat) : Statement (.sealSwap sealId) :=
  none_named
theorem tileBoundary (stall : Nat) (obs : TileObs) : Statement (.tileBoundary stall obs) :=
  both (stall_wf stall) (read_wf obs.read)
theorem runComplete (stall : Nat) : Statement (.runComplete stall) :=
  stall_wf stall
theorem attendResult (cmd : Nat) : Statement (.attendResult cmd) :=
  none_named
theorem contextSaveDone (ctx : Nat) : Statement (.contextSaveDone ctx) :=
  none_named
theorem contextRestoreDone (ctx : Nat) (readable : Bool) : Statement (.contextRestoreDone ctx readable) :=
  none_named
theorem slotBoundary : Statement (.slotBoundary) :=
  none_named
theorem graceExpiry (stall : Nat) : Statement (.graceExpiry stall) :=
  stall_wf stall
theorem stallFail (stall : Nat) : Statement (.stallFail stall) :=
  stall_wf stall
theorem fetchScheduleStart (seq : Nat) : Statement (.fetchScheduleStart seq) :=
  none_named
theorem fetchDone (crate : Nat) (read : ReadResult) : Statement (.fetchDone crate read) :=
  read_wf read
theorem evictionCopyDone (crate : Nat) (read : ReadResult) : Statement (.evictionCopyDone crate read) :=
  read_wf read
theorem promotionDone (done : DoneRead) : Statement (.promotionDone done) :=
  read_wf done.read
theorem recodeDone (done : RecodeRead) : Statement (.recodeDone done) :=
  both (read_wf done.read) (read_wf done.base)
theorem rebaseDone (done : DoneRead) : Statement (.rebaseDone done) :=
  read_wf done.read
theorem flashCopyWritten (crate : Nat) (read : ReadResult) : Statement (.flashCopyWritten crate read) :=
  read_wf read
theorem gcZoneDone (pitch zone : Nat) (lost : List Nat) : Statement (.gcZoneDone pitch zone lost) :=
  pitch_wf pitch
theorem catalogueReplayDone (pitch ms : Nat) (failed : List (Nat × Nat × Nat)) : Statement (.catalogueReplayDone pitch ms failed) :=
  pitch_wf pitch
theorem leaseAsk (peer peerPitch pitch : Nat) : Statement (.leaseAsk peer peerPitch pitch) :=
  both (both (peer_wf peer) (pitch_wf peerPitch)) (pitch_wf pitch)
theorem leaseGrant (peer pitch window : Nat) : Statement (.leaseGrant peer pitch window) :=
  both (peer_wf peer) (pitch_wf pitch)
theorem leaseRefuse (peer pitch : Nat) : Statement (.leaseRefuse peer pitch) :=
  both (peer_wf peer) (pitch_wf pitch)
theorem leaseRecall (peer window : Nat) : Statement (.leaseRecall peer window) :=
  peer_wf peer
theorem leaseRelease (lease : Nat) : Statement (.leaseRelease lease) :=
  none_named
theorem leaseRecallDeadline (lease : Nat) : Statement (.leaseRecallDeadline lease) :=
  none_named
theorem leaseReturn (lease : Nat) : Statement (.leaseReturn lease) :=
  none_named
theorem leaseBorrowerOrphan (peer : Nat) : Statement (.leaseBorrowerOrphan peer) :=
  peer_wf peer
theorem recallDrop (lease : Nat) : Statement (.recallDrop lease) :=
  none_named
theorem recallDropConfirm (lease : Nat) : Statement (.recallDropConfirm lease) :=
  none_named
theorem recallDropTimeout (lease : Nat) : Statement (.recallDropTimeout lease) :=
  none_named
theorem stockProbe (peer epoch scope : Nat) (key : Bytes) : Statement (.stockProbe peer epoch scope key) :=
  peer_wf peer
theorem stockProbeAnswer (cmd page : Nat) (entry : Option StockEntry) : Statement (.stockProbeAnswer cmd page entry) :=
  none_named
theorem stockInsert (peer epoch : Nat) (entry : StockEntry) (copy : Copy) : Statement (.stockInsert peer epoch entry copy) :=
  peer_wf peer
theorem stockInsertAnswer (record : Nat) (answer : InsertAnswer) : Statement (.stockInsertAnswer record answer) :=
  none_named
theorem stockDrop (peer epoch scope : Nat) (key : Bytes) (holder : Holder) : Statement (.stockDrop peer epoch scope key holder) :=
  both (peer_wf peer) (pitch_wf holder.pitch)
theorem stockDropAnswer (cmd index : Nat) (busy : Bool) : Statement (.stockDropAnswer cmd index busy) :=
  none_named
theorem stockDurableMark (scope : Nat) (key : Bytes) (device pitch : Nat) : Statement (.stockDurableMark scope key device pitch) :=
  pitch_wf pitch
theorem replicaPush (entry : StockEntry) : Statement (.replicaPush entry) :=
  none_named
theorem replicaHitReport (received : Option (List (Nat × Bytes × Nat))) : Statement (.replicaHitReport received) :=
  none_named
theorem popHalving : Statement (.popHalving) :=
  none_named
theorem insertRetry (record : Nat) : Statement (.insertRetry record) :=
  none_named
theorem orphanRelease (peer : Nat) : Statement (.orphanRelease peer) :=
  peer_wf peer
theorem holdRequest (peer : Nat) (pitch record : Nat) : Statement (.holdRequest peer pitch record) :=
  both (peer_wf peer) (pitch_wf pitch)
theorem holdAnswer (cmd page : Nat) (handles : Option (List Nat)) : Statement (.holdAnswer cmd page handles) :=
  none_named
theorem tableFetchRequest (peer fingerprint : Nat) : Statement (.tableFetchRequest peer fingerprint) :=
  peer_wf peer
theorem tableFetchAnswer (crate fingerprint : Nat) (lengths : Option (List Nat)) : Statement (.tableFetchAnswer crate fingerprint lengths) :=
  none_named
theorem stripeForwardReceive (peer : Nat) (fwd : Forward) : Statement (.stripeForwardReceive peer fwd) :=
  peer_wf peer
theorem stripePartialReceive (cmd part member : Nat) (rows : List PartialRow) (narrow : Bool) : Statement (.stripePartialReceive cmd part member rows narrow) :=
  none_named
theorem stripeMemberComplete (cmd part : Nat) (done : MemberDone) : Statement (.stripeMemberComplete cmd part done) :=
  none_named
theorem rxWrite (f : Frame) : Statement (.rxWrite f) :=
  frame_wf f
theorem rxReadReq (f : Frame) : Statement (.rxReadReq f) :=
  frame_wf f
theorem rxReadResp (f : Frame) : Statement (.rxReadResp f) :=
  frame_wf f
theorem rxAck (f : Frame) : Statement (.rxAck f) :=
  frame_wf f
theorem rxNak (f : Frame) : Statement (.rxNak f) :=
  frame_wf f
theorem rxProbe (f : Frame) : Statement (.rxProbe f) :=
  frame_wf f
theorem rxProbeReply (f : Frame) : Statement (.rxProbeReply f) :=
  frame_wf f
theorem rxResync (f : Frame) : Statement (.rxResync f) :=
  frame_wf f
theorem rxResyncAck (f : Frame) : Statement (.rxResyncAck f) :=
  frame_wf f
theorem macControlFrame (port : Nat) : Statement (.macControlFrame port) :=
  port_wf port
theorem rtoExpiry (conn psn : Nat) : Statement (.rtoExpiry conn psn) :=
  conn_wf conn
theorem delayedAck (conn : Nat) : Statement (.delayedAck conn) :=
  conn_wf conn
theorem silenceProbe (peer : Nat) : Statement (.silenceProbe peer) :=
  peer_wf peer
theorem peerUnreachable (peer : Nat) : Statement (.peerUnreachable peer) :=
  peer_wf peer
theorem unreachableProbe (peer : Nat) : Statement (.unreachableProbe peer) :=
  peer_wf peer
theorem avoidHoldExpiry (conn path : Nat) : Statement (.avoidHoldExpiry conn path) :=
  conn_wf conn
theorem baseRttInterval : Statement (.baseRttInterval) :=
  none_named
theorem egressFrameStart (port : Nat) : Statement (.egressFrameStart port) :=
  port_wf port
theorem rekeyStart (peer : Nat) : Statement (.rekeyStart peer) :=
  peer_wf peer
theorem rekeyExchangeDone (peer : Nat) : Statement (.rekeyExchangeDone peer) :=
  peer_wf peer
theorem rxInstalled (peer : Nat) : Statement (.rxInstalled peer) :=
  peer_wf peer
theorem oldKeyRetire (peer : Nat) : Statement (.oldKeyRetire peer) :=
  peer_wf peer
theorem rekeyTimeout (outcome : RekeyEnd) : Statement (.rekeyTimeout outcome) :=
  peer_wf outcome.peer
theorem rekeyRetry (peer : Nat) : Statement (.rekeyRetry peer) :=
  peer_wf peer
theorem peerAttestation (peer : Nat) (outcome : AttestOutcome) : Statement (.peerAttestation peer outcome) :=
  peer_wf peer
theorem portLinkUp (port speed : Nat) : Statement (.portLinkUp port speed) :=
  port_wf port
theorem portLaneFail (port lane : Nat) : Statement (.portLaneFail port lane) :=
  both (port_wf port) (lane_wf lane)
theorem portLinkRetry (port : Nat) : Statement (.portLinkRetry port) :=
  port_wf port
theorem portReset (fn port : Nat) : Statement (.portReset fn port) :=
  both (fn_wf fn) (port_wf port)
theorem subTailWrite (fn ring value : Nat) : Statement (.subTailWrite fn ring value) :=
  both (fn_wf fn) (ring_wf ring)
theorem compHeadWrite (fn ring value : Nat) : Statement (.compHeadWrite fn ring value) :=
  both (fn_wf fn) (ring_wf ring)
theorem ringEnable (fn ring value : Nat) : Statement (.ringEnable fn ring value) :=
  both (fn_wf fn) (ring_wf ring)
theorem ringDisable (fn ring value : Nat) : Statement (.ringDisable fn ring value) :=
  both (fn_wf fn) (ring_wf ring)
theorem ringFetchError (ring : Nat) : Statement (.ringFetchError ring) :=
  ring_wf ring
theorem dmaTimeout (fn : Nat) : Statement (.dmaTimeout fn) :=
  fn_wf fn
theorem dmaCompleterAbort (fn : Nat) : Statement (.dmaCompleterAbort fn) :=
  fn_wf fn
theorem coalTimer (ring : Nat) : Statement (.coalTimer ring) :=
  ring_wf ring
theorem chitHostWrite (fn offset size value : Nat) : Statement (.chitHostWrite fn offset size value) :=
  fn_wf fn
theorem pcieLinkUp (half rate width cxl : Nat) : Statement (.pcieLinkUp half rate width cxl) :=
  half_wf half
theorem pcieSurpriseDown (half : Nat) : Statement (.pcieSurpriseDown half) :=
  half_wf half
theorem pcieHotReset (half : Nat) : Statement (.pcieHotReset half) :=
  half_wf half
theorem perstAssert : Statement (.perstAssert) :=
  none_named
theorem perstDeassert (straps : Nat) : Statement (.perstDeassert straps) :=
  none_named
theorem cxlMemAccess (access : CxlAccess) : Statement (.cxlMemAccess access) :=
  half_wf access.half
theorem cxlSnoopTimeout (half line : Nat) : Statement (.cxlSnoopTimeout half line) :=
  half_wf half
theorem cxlViral (half : Nat) : Statement (.cxlViral half) :=
  half_wf half
theorem sessionKeyExpiry (scope : Nat) : Statement (.sessionKeyExpiry scope) :=
  none_named
theorem attestBusyTimeout (cmd : Nat) : Statement (.attestBusyTimeout cmd) :=
  none_named
theorem boot (env : BootEnv) : Statement (.boot env) :=
  none_named
theorem coreWatchdog (core : Nat) : Statement (.coreWatchdog core) :=
  core_wf core
theorem coreException (core : Nat) : Statement (.coreException core) :=
  core_wf core
theorem coreSramError (core : Nat) : Statement (.coreSramError core) :=
  core_wf core
theorem coreReady (core : Nat) : Statement (.coreReady core) :=
  core_wf core
theorem coreReadyTimeout (core : Nat) : Statement (.coreReadyTimeout core) :=
  core_wf core
theorem fatalHoldExpiry : Statement (.fatalHoldExpiry) :=
  none_named
theorem trialConfirmTimer : Statement (.trialConfirmTimer) :=
  none_named
theorem fwConfirm (fn : Nat) : Statement (.fwConfirm fn) :=
  fn_wf fn
theorem liveActivate (fn : Nat) : Statement (.liveActivate fn) :=
  fn_wf fn
theorem liveCopyDone (verified : Bool) : Statement (.liveCopyDone verified) :=
  none_named
theorem pldmFwComponent (image : Image) : Statement (.pldmFwComponent image) :=
  none_named
theorem pldmActivateFirmware (selfContained : Bool) : Statement (.pldmActivateFirmware selfContained) :=
  none_named
theorem pldmBaseRequest (command : Nat) : Statement (.pldmBaseRequest command) :=
  none_named
theorem pldmPlatformRequest (sensor : Nat) : Statement (.pldmPlatformRequest sensor) :=
  none_named
theorem pldmFruRequest (command : Nat) : Statement (.pldmFruRequest command) :=
  none_named
theorem sidebandRegisterRead (offset length : Nat) : Statement (.sidebandRegisterRead offset length) :=
  none_named
theorem powerOn : Statement (.powerOn) :=
  none_named
theorem tileStart : Statement (.tileStart) :=
  none_named
theorem vauxFail : Statement (.vauxFail) :=
  none_named
theorem supplyStageEnter (stage vinMv : Nat) : Statement (.supplyStageEnter stage vinMv) :=
  stage_wf stage
theorem supplyStageEnd (stage vinMv : Nat) : Statement (.supplyStageEnd stage vinMv) :=
  stage_wf stage
theorem supplyReset (high : Bool) : Statement (.supplyReset high) :=
  none_named
theorem powerCapAction (measure : PowerMeasure) (input100us input1s stall : Nat) : Statement (.powerCapAction measure input100us input1s stall) :=
  none_named
theorem powerCapRelease : Statement (.powerCapRelease) :=
  none_named
theorem thermalStep (tj : Nat) : Statement (.thermalStep tj) :=
  none_named
theorem thermalRecover (tj : Nat) : Statement (.thermalRecover tj) :=
  none_named
theorem thermalTrip (tj : Nat) : Statement (.thermalTrip tj) :=
  none_named
theorem thermalTripRelease : Statement (.thermalTripRelease) :=
  none_named
theorem deviceQuiet : Statement (.deviceQuiet) :=
  none_named
theorem quietIdleTimer : Statement (.quietIdleTimer) :=
  none_named
theorem powerStateEntryDone : Statement (.powerStateEntryDone) :=
  none_named
theorem knownEventWake : Statement (.knownEventWake) :=
  none_named
theorem p3PollWake : Statement (.p3PollWake) :=
  none_named
theorem p3PollHoldEnd : Statement (.p3PollHoldEnd) :=
  none_named
theorem wakeArrival (arrival : Arrival) : Statement (.wakeArrival arrival) :=
  arrival_wf arrival
theorem wakeDone : Statement (.wakeDone) :=
  none_named
theorem pwrCtrlWrite (fn value : Nat) : Statement (.pwrCtrlWrite fn value) :=
  fn_wf fn
theorem srefclkLoss : Statement (.srefclkLoss) :=
  none_named
theorem auxclkLoss : Statement (.auxclkLoss) :=
  none_named
theorem hrefclkLoss (half : Nat) : Statement (.hrefclkLoss half) :=
  half_wf half
theorem logBudgetWindow : Statement (.logBudgetWindow) :=
  none_named
theorem telemetrySnapshot (begun : Bool) : Statement (.telemetrySnapshot begun) :=
  none_named
theorem captureClear (by_ : Requester) (source : Nat) : Statement (.captureClear by_ source) :=
  both (requester_wf by_) (source_wf source)
theorem alertClear (by_ : Requester) : Statement (.alertClear by_) :=
  requester_wf by_
theorem logReadAdvance (by_ : Requester) (read : Nat) : Statement (.logReadAdvance by_ read) :=
  requester_wf by_
theorem evtRingEnable (fn value : Nat) : Statement (.evtRingEnable fn value) :=
  fn_wf fn
theorem evtRingDisable (fn value : Nat) : Statement (.evtRingDisable fn value) :=
  fn_wf fn
theorem tillSnap (fn pitch : Nat) : Statement (.tillSnap fn pitch) :=
  both (fn_wf fn) (pitch_wf pitch)
theorem tillClear (fn pitch : Nat) (snapFirst : Bool) : Statement (.tillClear fn pitch snapFirst) :=
  both (fn_wf fn) (pitch_wf pitch)
theorem registerWrite (fn offset size value : Nat) : Statement (.registerWrite fn offset size value) :=
  fn_wf fn
theorem abtoserFault : Statement (.abtoserFault) :=
  none_named
theorem liveActivationTimeout (core : Nat) : Statement (.liveActivationTimeout core) :=
  core_wf core
theorem onfiVccqOvercurrent : Statement (.onfiVccqOvercurrent) :=
  none_named
theorem remoteHoldRelease (peer pitch record : Nat) : Statement (.remoteHoldRelease peer pitch record) :=
  both (peer_wf peer) (pitch_wf pitch)
theorem replicaWithdraw (scope : Nat) (key : Bytes) : Statement (.replicaWithdraw scope key) :=
  none_named
theorem busMasterEnableWrite (fn : Nat) (on : Bool) : Statement (.busMasterEnableWrite fn on) :=
  fn_wf fn
theorem cxlBisnpResponse (half line : Nat) (data : Option Bytes) : Statement (.cxlBisnpResponse half line data) :=
  half_wf half
theorem serdesEqSettled (port : Nat) : Statement (.serdesEqSettled port) :=
  port_wf port
theorem registerRead (by_ : Requester) (offset size : Nat) : Statement (.registerRead by_ offset size) :=
  requester_wf by_

end Sys2Proof.Laws.Units
end

