-- ==== Sys2Proof/Laws/Registers.lean ====
section
/-! SUPPORT. The register file: a read after a write, the counters, and what restoring a set of fields leaves. -/
namespace Sys2Proof.Machine

/-- A stored field reads back. -/
@[simp] theorem regFile_get_set (l : RegFile) (k : RegKey) (v : Nat) : RegFile.get (RegFile.set l k v) k = some v := by
  induction l with
  | nil => simp [RegFile.set, RegFile.get]
  | cons c t ih =>
    obtain ⟨j, w⟩ := c
    simp only [RegFile.set]
    split
    · rename_i h; simp [RegFile.get, h]
    · rename_i h; simp [RegFile.get, h, ih]

/-- Storing one field leaves every other. -/
theorem regFile_get_set_ne (l : RegFile) (k j : RegKey) (v : Nat) (h : j ≠ k) :
    RegFile.get (RegFile.set l k v) j = RegFile.get l j := by
  induction l with
  | nil => simp [RegFile.set, RegFile.get, Ne.symm h]
  | cons c t ih =>
    obtain ⟨i, w⟩ := c
    simp only [RegFile.set]
    split
    · rename_i e
      have : ¬ i = j := fun e' => h (e'.symm.trans e)
      simp [RegFile.get, this]
    · simp only [RegFile.get, ih]

/-- A field that is written holds the value, cut to its width. -/
@[simp] theorem rd_wr (s : State) (f : Fld) (i v : Nat) : rd (wr f i v s) f i = v % 2 ^ f.desc.w := by
  simp [rd, wr]

/-- Writing one field leaves every other field that reads its own store. -/
theorem rd_wr_ne (s : State) (f g : Fld) (i j v : Nat) (h : f ≠ g ∨ i ≠ j) : rd (wr f i v s) g j = rd s g j := by
  have k : (⟨g, j⟩ : RegKey) ≠ ⟨f, i⟩ := by
    intro e
    injection e with e1 e2
    rcases h with h | h
    · exact h e1.symm
    · exact h e2.symm
  simp [rd, wr, regFile_get_set_ne _ _ _ _ k, resetValue, planField]

/-- What a restored register file stores for a field. -/
theorem regFile_get_filter (l : RegFile) (keep : RegKey → Bool) (k : RegKey) :
    RegFile.get (l.filter (fun p => keep p.1)) k = if keep k then RegFile.get l k else none := by
  induction l with
  | nil => simp [RegFile.get]
  | cons c t ih =>
    obtain ⟨j, w⟩ := c
    rw [List.filter_cons]
    by_cases e : j = k
    · subst e
      by_cases h : keep j <;> simp [RegFile.get, h, ih]
    · by_cases h : keep j <;> simp [RegFile.get, e, h, ih]

end Sys2Proof.Machine
end

