-- ==== Sys2Proof/Laws/State.lean ====
section
/-! SUPPORT. What each update of one part of the state leaves alone: one lemma for each field and update, true by unfolding. -/
namespace Sys2Proof.Machine

@[simp] theorem wr_pending (f : Fld) (i v : Nat) (s : State) : (wr f i v s).pending = s.pending := rfl
@[simp] theorem wr_localTime (f : Fld) (i v : Nat) (s : State) : (wr f i v s).localTime = s.localTime := rfl
@[simp] theorem wr_phase (f : Fld) (i v : Nat) (s : State) : (wr f i v s).phase = s.phase := rfl
@[simp] theorem wr_plan (f : Fld) (i v : Nat) (s : State) : (wr f i v s).plan = s.plan := rfl
@[simp] theorem wr_fuses (f : Fld) (i v : Nat) (s : State) : (wr f i v s).fuses = s.fuses := rfl
@[simp] theorem wr_raw (f : Fld) (i v : Nat) (s : State) : (wr f i v s).raw = s.raw := rfl
@[simp] theorem wr_p0Regs (f : Fld) (i v : Nat) (s : State) : (wr f i v s).p0Regs = s.p0Regs := rfl
@[simp] theorem wr_ownerKeys (f : Fld) (i v : Nat) (s : State) : (wr f i v s).ownerKeys = s.ownerKeys := rfl
@[simp] theorem wr_shodunRevoked (f : Fld) (i v : Nat) (s : State) : (wr f i v s).shodunRevoked = s.shodunRevoked := rfl
@[simp] theorem wr_romKeys (f : Fld) (i v : Nat) (s : State) : (wr f i v s).romKeys = s.romKeys := rfl
@[simp] theorem wr_fresh (f : Fld) (i v : Nat) (s : State) : (wr f i v s).fresh = s.fresh := rfl
@[simp] theorem wr_order (f : Fld) (i v : Nat) (s : State) : (wr f i v s).order = s.order := rfl
@[simp] theorem wr_dram (f : Fld) (i v : Nat) (s : State) : (wr f i v s).dram = s.dram := rfl
@[simp] theorem wr_hall (f : Fld) (i v : Nat) (s : State) : (wr f i v s).hall = s.hall := rfl
@[simp] theorem wr_hostMem (f : Fld) (i v : Nat) (s : State) : (wr f i v s).hostMem = s.hostMem := rfl
@[simp] theorem wr_rings (f : Fld) (i v : Nat) (s : State) : (wr f i v s).rings = s.rings := rfl
@[simp] theorem wr_cmds (f : Fld) (i v : Nat) (s : State) : (wr f i v s).cmds = s.cmds := rfl
@[simp] theorem wr_chits (f : Fld) (i v : Nat) (s : State) : (wr f i v s).chits = s.chits := rfl
@[simp] theorem wr_triggers (f : Fld) (i v : Nat) (s : State) : (wr f i v s).triggers = s.triggers := rfl
@[simp] theorem wr_released (f : Fld) (i v : Nat) (s : State) : (wr f i v s).released = s.released := rfl
@[simp] theorem wr_chitWork (f : Fld) (i v : Nat) (s : State) : (wr f i v s).chitWork = s.chitWork := rfl
@[simp] theorem wr_msix (f : Fld) (i v : Nat) (s : State) : (wr f i v s).msix = s.msix := rfl
@[simp] theorem wr_dmaWait (f : Fld) (i v : Nat) (s : State) : (wr f i v s).dmaWait = s.dmaWait := rfl
@[simp] theorem wr_dmaSince (f : Fld) (i v : Nat) (s : State) : (wr f i v s).dmaSince = s.dmaSince := rfl
@[simp] theorem wr_latches (f : Fld) (i v : Nat) (s : State) : (wr f i v s).latches = s.latches := rfl
@[simp] theorem wr_answers (f : Fld) (i v : Nat) (s : State) : (wr f i v s).answers = s.answers := rfl
@[simp] theorem wr_readsHeld (f : Fld) (i v : Nat) (s : State) : (wr f i v s).readsHeld = s.readsHeld := rfl
@[simp] theorem wr_sidebandOut (f : Fld) (i v : Nat) (s : State) : (wr f i v s).sidebandOut = s.sidebandOut := rfl
@[simp] theorem wr_seqs (f : Fld) (i v : Nat) (s : State) : (wr f i v s).seqs = s.seqs := rfl
@[simp] theorem wr_crates (f : Fld) (i v : Nat) (s : State) : (wr f i v s).crates = s.crates := rfl
@[simp] theorem wr_seals (f : Fld) (i v : Nat) (s : State) : (wr f i v s).seals = s.seals := rfl
@[simp] theorem wr_attends (f : Fld) (i v : Nat) (s : State) : (wr f i v s).attends = s.attends := rfl
@[simp] theorem wr_forwards (f : Fld) (i v : Nat) (s : State) : (wr f i v s).forwards = s.forwards := rfl
@[simp] theorem wr_stalls (f : Fld) (i v : Nat) (s : State) : (wr f i v s).stalls = s.stalls := rfl
@[simp] theorem wr_ctxs (f : Fld) (i v : Nat) (s : State) : (wr f i v s).ctxs = s.ctxs := rfl
@[simp] theorem wr_unplaced (f : Fld) (i v : Nat) (s : State) : (wr f i v s).unplaced = s.unplaced := rfl
@[simp] theorem wr_tills (f : Fld) (i v : Nat) (s : State) : (wr f i v s).tills = s.tills := rfl
@[simp] theorem wr_slotStart (f : Fld) (i v : Nat) (s : State) : (wr f i v s).slotStart = s.slotStart := rfl
@[simp] theorem wr_ttWaiters (f : Fld) (i v : Nat) (s : State) : (wr f i v s).ttWaiters = s.ttWaiters := rfl
@[simp] theorem wr_homes (f : Fld) (i v : Nat) (s : State) : (wr f i v s).homes = s.homes := rfl
@[simp] theorem wr_replicas (f : Fld) (i v : Nat) (s : State) : (wr f i v s).replicas = s.replicas := rfl
@[simp] theorem wr_pushOwed (f : Fld) (i v : Nat) (s : State) : (wr f i v s).pushOwed = s.pushOwed := rfl
@[simp] theorem wr_pubs (f : Fld) (i v : Nat) (s : State) : (wr f i v s).pubs = s.pubs := rfl
@[simp] theorem wr_publishes (f : Fld) (i v : Nat) (s : State) : (wr f i v s).publishes = s.publishes := rfl
@[simp] theorem wr_drops (f : Fld) (i v : Nat) (s : State) : (wr f i v s).drops = s.drops := rfl
@[simp] theorem wr_results (f : Fld) (i v : Nat) (s : State) : (wr f i v s).results = s.results := rfl
@[simp] theorem wr_lookups (f : Fld) (i v : Nat) (s : State) : (wr f i v s).lookups = s.lookups := rfl
@[simp] theorem wr_holds (f : Fld) (i v : Nat) (s : State) : (wr f i v s).holds = s.holds := rfl
@[simp] theorem wr_myHolds (f : Fld) (i v : Nat) (s : State) : (wr f i v s).myHolds = s.myHolds := rfl
@[simp] theorem wr_askedHits (f : Fld) (i v : Nat) (s : State) : (wr f i v s).askedHits = s.askedHits := rfl
@[simp] theorem wr_leases (f : Fld) (i v : Nat) (s : State) : (wr f i v s).leases = s.leases := rfl
@[simp] theorem wr_zones (f : Fld) (i v : Nat) (s : State) : (wr f i v s).zones = s.zones := rfl
@[simp] theorem wr_catalogue (f : Fld) (i v : Nat) (s : State) : (wr f i v s).catalogue = s.catalogue := rfl
@[simp] theorem wr_journalRecs (f : Fld) (i v : Nat) (s : State) : (wr f i v s).journalRecs = s.journalRecs := rfl
@[simp] theorem wr_flashQueue (f : Fld) (i v : Nat) (s : State) : (wr f i v s).flashQueue = s.flashQueue := rfl
@[simp] theorem wr_flashHeld (f : Fld) (i v : Nat) (s : State) : (wr f i v s).flashHeld = s.flashHeld := rfl
@[simp] theorem wr_deviceCat (f : Fld) (i v : Nat) (s : State) : (wr f i v s).deviceCat = s.deviceCat := rfl
@[simp] theorem wr_replaying (f : Fld) (i v : Nat) (s : State) : (wr f i v s).replaying = s.replaying := rfl
@[simp] theorem wr_flashTokens (f : Fld) (i v : Nat) (s : State) : (wr f i v s).flashTokens = s.flashTokens := rfl
@[simp] theorem wr_flashFilled (f : Fld) (i v : Nat) (s : State) : (wr f i v s).flashFilled = s.flashFilled := rfl
@[simp] theorem wr_evicting (f : Fld) (i v : Nat) (s : State) : (wr f i v s).evicting = s.evicting := rfl
@[simp] theorem wr_tierWaits (f : Fld) (i v : Nat) (s : State) : (wr f i v s).tierWaits = s.tierWaits := rfl
@[simp] theorem wr_channelsFailed (f : Fld) (i v : Nat) (s : State) : (wr f i v s).channelsFailed = s.channelsFailed := rfl
@[simp] theorem wr_frames (f : Fld) (i v : Nat) (s : State) : (wr f i v s).frames = s.frames := rfl
@[simp] theorem wr_frameErrs (f : Fld) (i v : Nat) (s : State) : (wr f i v s).frameErrs = s.frameErrs := rfl
@[simp] theorem wr_leadRun (f : Fld) (i v : Nat) (s : State) : (wr f i v s).leadRun = s.leadRun := rfl
@[simp] theorem wr_tables (f : Fld) (i v : Nat) (s : State) : (wr f i v s).tables = s.tables := rfl
@[simp] theorem wr_actives (f : Fld) (i v : Nat) (s : State) : (wr f i v s).actives = s.actives := rfl
@[simp] theorem wr_pendingTables (f : Fld) (i v : Nat) (s : State) : (wr f i v s).pendingTables = s.pendingTables := rfl
@[simp] theorem wr_windows (f : Fld) (i v : Nat) (s : State) : (wr f i v s).windows = s.windows := rfl
@[simp] theorem wr_winFreed (f : Fld) (i v : Nat) (s : State) : (wr f i v s).winFreed = s.winFreed := rfl
@[simp] theorem wr_winNext (f : Fld) (i v : Nat) (s : State) : (wr f i v s).winNext = s.winNext := rfl
@[simp] theorem wr_conns (f : Fld) (i v : Nat) (s : State) : (wr f i v s).conns = s.conns := rfl
@[simp] theorem wr_reads (f : Fld) (i v : Nat) (s : State) : (wr f i v s).reads = s.reads := rfl
@[simp] theorem wr_peers (f : Fld) (i v : Nat) (s : State) : (wr f i v s).peers = s.peers := rfl
@[simp] theorem wr_ports (f : Fld) (i v : Nat) (s : State) : (wr f i v s).ports = s.ports := rfl
@[simp] theorem wr_wire (f : Fld) (i v : Nat) (s : State) : (wr f i v s).wire = s.wire := rfl
@[simp] theorem wr_svcOut (f : Fld) (i v : Nat) (s : State) : (wr f i v s).svcOut = s.svcOut := rfl
@[simp] theorem wr_cxlLines (f : Fld) (i v : Nat) (s : State) : (wr f i v s).cxlLines = s.cxlLines := rfl
@[simp] theorem wr_cxlWaiting (f : Fld) (i v : Nat) (s : State) : (wr f i v s).cxlWaiting = s.cxlWaiting := rfl
@[simp] theorem wr_ledgerPoison (f : Fld) (i v : Nat) (s : State) : (wr f i v s).ledgerPoison = s.ledgerPoison := rfl
@[simp] theorem wr_poison (f : Fld) (i v : Nat) (s : State) : (wr f i v s).poison = s.poison := rfl
@[simp] theorem wr_cxlOut (f : Fld) (i v : Nat) (s : State) : (wr f i v s).cxlOut = s.cxlOut := rfl
@[simp] theorem wr_keyArea (f : Fld) (i v : Nat) (s : State) : (wr f i v s).keyArea = s.keyArea := rfl
@[simp] theorem wr_flashKeys (f : Fld) (i v : Nat) (s : State) : (wr f i v s).flashKeys = s.flashKeys := rfl
@[simp] theorem wr_sessions (f : Fld) (i v : Nat) (s : State) : (wr f i v s).sessions = s.sessions := rfl
@[simp] theorem wr_serials (f : Fld) (i v : Nat) (s : State) : (wr f i v s).serials = s.serials := rfl
@[simp] theorem wr_releases (f : Fld) (i v : Nat) (s : State) : (wr f i v s).releases = s.releases := rfl
@[simp] theorem wr_attestWait (f : Fld) (i v : Nat) (s : State) : (wr f i v s).attestWait = s.attestWait := rfl
@[simp] theorem wr_certs (f : Fld) (i v : Nat) (s : State) : (wr f i v s).certs = s.certs := rfl
@[simp] theorem wr_xspi (f : Fld) (i v : Nat) (s : State) : (wr f i v s).xspi = s.xspi := rfl
@[simp] theorem wr_fwRunning (f : Fld) (i v : Nat) (s : State) : (wr f i v s).fwRunning = s.fwRunning := rfl
@[simp] theorem wr_rotRunning (f : Fld) (i v : Nat) (s : State) : (wr f i v s).rotRunning = s.rotRunning := rfl
@[simp] theorem wr_planImage (f : Fld) (i v : Nat) (s : State) : (wr f i v s).planImage = s.planImage := rfl
@[simp] theorem wr_live (f : Fld) (i v : Nat) (s : State) : (wr f i v s).live = s.live := rfl
@[simp] theorem wr_cores (f : Fld) (i v : Nat) (s : State) : (wr f i v s).cores = s.cores := rfl
@[simp] theorem wr_restarts (f : Fld) (i v : Nat) (s : State) : (wr f i v s).restarts = s.restarts := rfl
@[simp] theorem wr_bootedAt (f : Fld) (i v : Nat) (s : State) : (wr f i v s).bootedAt = s.bootedAt := rfl
@[simp] theorem wr_bootStep (f : Fld) (i v : Nat) (s : State) : (wr f i v s).bootStep = s.bootStep := rfl
@[simp] theorem wr_fatalAt (f : Fld) (i v : Nat) (s : State) : (wr f i v s).fatalAt = s.fatalAt := rfl
@[simp] theorem wr_stagedOk (f : Fld) (i v : Nat) (s : State) : (wr f i v s).stagedOk = s.stagedOk := rfl
@[simp] theorem wr_power (f : Fld) (i v : Nat) (s : State) : (wr f i v s).power = s.power := rfl
@[simp] theorem wr_crier (f : Fld) (i v : Nat) (s : State) : (wr f i v s).crier = s.crier := rfl
@[simp] theorem wr_traces (f : Fld) (i v : Nat) (s : State) : (wr f i v s).traces = s.traces := rfl

@[simp] theorem reach_pending (t : Nat) (s : State) : (reach t s).pending = s.pending := rfl
@[simp] theorem reach_phase (t : Nat) (s : State) : (reach t s).phase = s.phase := rfl
@[simp] theorem reach_plan (t : Nat) (s : State) : (reach t s).plan = s.plan := rfl
@[simp] theorem reach_fuses (t : Nat) (s : State) : (reach t s).fuses = s.fuses := rfl
@[simp] theorem reach_regs (t : Nat) (s : State) : (reach t s).regs = s.regs := rfl
@[simp] theorem reach_raw (t : Nat) (s : State) : (reach t s).raw = s.raw := rfl
@[simp] theorem reach_p0Regs (t : Nat) (s : State) : (reach t s).p0Regs = s.p0Regs := rfl
@[simp] theorem reach_ownerKeys (t : Nat) (s : State) : (reach t s).ownerKeys = s.ownerKeys := rfl
@[simp] theorem reach_shodunRevoked (t : Nat) (s : State) : (reach t s).shodunRevoked = s.shodunRevoked := rfl
@[simp] theorem reach_romKeys (t : Nat) (s : State) : (reach t s).romKeys = s.romKeys := rfl
@[simp] theorem reach_fresh (t : Nat) (s : State) : (reach t s).fresh = s.fresh := rfl
@[simp] theorem reach_order (t : Nat) (s : State) : (reach t s).order = s.order := rfl
@[simp] theorem reach_dram (t : Nat) (s : State) : (reach t s).dram = s.dram := rfl
@[simp] theorem reach_hall (t : Nat) (s : State) : (reach t s).hall = s.hall := rfl
@[simp] theorem reach_hostMem (t : Nat) (s : State) : (reach t s).hostMem = s.hostMem := rfl
@[simp] theorem reach_rings (t : Nat) (s : State) : (reach t s).rings = s.rings := rfl
@[simp] theorem reach_cmds (t : Nat) (s : State) : (reach t s).cmds = s.cmds := rfl
@[simp] theorem reach_chits (t : Nat) (s : State) : (reach t s).chits = s.chits := rfl
@[simp] theorem reach_triggers (t : Nat) (s : State) : (reach t s).triggers = s.triggers := rfl
@[simp] theorem reach_released (t : Nat) (s : State) : (reach t s).released = s.released := rfl
@[simp] theorem reach_chitWork (t : Nat) (s : State) : (reach t s).chitWork = s.chitWork := rfl
@[simp] theorem reach_msix (t : Nat) (s : State) : (reach t s).msix = s.msix := rfl
@[simp] theorem reach_dmaWait (t : Nat) (s : State) : (reach t s).dmaWait = s.dmaWait := rfl
@[simp] theorem reach_dmaSince (t : Nat) (s : State) : (reach t s).dmaSince = s.dmaSince := rfl
@[simp] theorem reach_latches (t : Nat) (s : State) : (reach t s).latches = s.latches := rfl
@[simp] theorem reach_answers (t : Nat) (s : State) : (reach t s).answers = s.answers := rfl
@[simp] theorem reach_readsHeld (t : Nat) (s : State) : (reach t s).readsHeld = s.readsHeld := rfl
@[simp] theorem reach_sidebandOut (t : Nat) (s : State) : (reach t s).sidebandOut = s.sidebandOut := rfl
@[simp] theorem reach_seqs (t : Nat) (s : State) : (reach t s).seqs = s.seqs := rfl
@[simp] theorem reach_crates (t : Nat) (s : State) : (reach t s).crates = s.crates := rfl
@[simp] theorem reach_seals (t : Nat) (s : State) : (reach t s).seals = s.seals := rfl
@[simp] theorem reach_attends (t : Nat) (s : State) : (reach t s).attends = s.attends := rfl
@[simp] theorem reach_forwards (t : Nat) (s : State) : (reach t s).forwards = s.forwards := rfl
@[simp] theorem reach_stalls (t : Nat) (s : State) : (reach t s).stalls = s.stalls := rfl
@[simp] theorem reach_ctxs (t : Nat) (s : State) : (reach t s).ctxs = s.ctxs := rfl
@[simp] theorem reach_unplaced (t : Nat) (s : State) : (reach t s).unplaced = s.unplaced := rfl
@[simp] theorem reach_tills (t : Nat) (s : State) : (reach t s).tills = s.tills := rfl
@[simp] theorem reach_slotStart (t : Nat) (s : State) : (reach t s).slotStart = s.slotStart := rfl
@[simp] theorem reach_ttWaiters (t : Nat) (s : State) : (reach t s).ttWaiters = s.ttWaiters := rfl
@[simp] theorem reach_homes (t : Nat) (s : State) : (reach t s).homes = s.homes := rfl
@[simp] theorem reach_replicas (t : Nat) (s : State) : (reach t s).replicas = s.replicas := rfl
@[simp] theorem reach_pushOwed (t : Nat) (s : State) : (reach t s).pushOwed = s.pushOwed := rfl
@[simp] theorem reach_pubs (t : Nat) (s : State) : (reach t s).pubs = s.pubs := rfl
@[simp] theorem reach_publishes (t : Nat) (s : State) : (reach t s).publishes = s.publishes := rfl
@[simp] theorem reach_drops (t : Nat) (s : State) : (reach t s).drops = s.drops := rfl
@[simp] theorem reach_results (t : Nat) (s : State) : (reach t s).results = s.results := rfl
@[simp] theorem reach_lookups (t : Nat) (s : State) : (reach t s).lookups = s.lookups := rfl
@[simp] theorem reach_holds (t : Nat) (s : State) : (reach t s).holds = s.holds := rfl
@[simp] theorem reach_myHolds (t : Nat) (s : State) : (reach t s).myHolds = s.myHolds := rfl
@[simp] theorem reach_askedHits (t : Nat) (s : State) : (reach t s).askedHits = s.askedHits := rfl
@[simp] theorem reach_leases (t : Nat) (s : State) : (reach t s).leases = s.leases := rfl
@[simp] theorem reach_zones (t : Nat) (s : State) : (reach t s).zones = s.zones := rfl
@[simp] theorem reach_catalogue (t : Nat) (s : State) : (reach t s).catalogue = s.catalogue := rfl
@[simp] theorem reach_journalRecs (t : Nat) (s : State) : (reach t s).journalRecs = s.journalRecs := rfl
@[simp] theorem reach_flashQueue (t : Nat) (s : State) : (reach t s).flashQueue = s.flashQueue := rfl
@[simp] theorem reach_flashHeld (t : Nat) (s : State) : (reach t s).flashHeld = s.flashHeld := rfl
@[simp] theorem reach_deviceCat (t : Nat) (s : State) : (reach t s).deviceCat = s.deviceCat := rfl
@[simp] theorem reach_replaying (t : Nat) (s : State) : (reach t s).replaying = s.replaying := rfl
@[simp] theorem reach_flashTokens (t : Nat) (s : State) : (reach t s).flashTokens = s.flashTokens := rfl
@[simp] theorem reach_flashFilled (t : Nat) (s : State) : (reach t s).flashFilled = s.flashFilled := rfl
@[simp] theorem reach_evicting (t : Nat) (s : State) : (reach t s).evicting = s.evicting := rfl
@[simp] theorem reach_tierWaits (t : Nat) (s : State) : (reach t s).tierWaits = s.tierWaits := rfl
@[simp] theorem reach_channelsFailed (t : Nat) (s : State) : (reach t s).channelsFailed = s.channelsFailed := rfl
@[simp] theorem reach_frames (t : Nat) (s : State) : (reach t s).frames = s.frames := rfl
@[simp] theorem reach_frameErrs (t : Nat) (s : State) : (reach t s).frameErrs = s.frameErrs := rfl
@[simp] theorem reach_leadRun (t : Nat) (s : State) : (reach t s).leadRun = s.leadRun := rfl
@[simp] theorem reach_tables (t : Nat) (s : State) : (reach t s).tables = s.tables := rfl
@[simp] theorem reach_actives (t : Nat) (s : State) : (reach t s).actives = s.actives := rfl
@[simp] theorem reach_pendingTables (t : Nat) (s : State) : (reach t s).pendingTables = s.pendingTables := rfl
@[simp] theorem reach_windows (t : Nat) (s : State) : (reach t s).windows = s.windows := rfl
@[simp] theorem reach_winFreed (t : Nat) (s : State) : (reach t s).winFreed = s.winFreed := rfl
@[simp] theorem reach_winNext (t : Nat) (s : State) : (reach t s).winNext = s.winNext := rfl
@[simp] theorem reach_conns (t : Nat) (s : State) : (reach t s).conns = s.conns := rfl
@[simp] theorem reach_reads (t : Nat) (s : State) : (reach t s).reads = s.reads := rfl
@[simp] theorem reach_peers (t : Nat) (s : State) : (reach t s).peers = s.peers := rfl
@[simp] theorem reach_ports (t : Nat) (s : State) : (reach t s).ports = s.ports := rfl
@[simp] theorem reach_wire (t : Nat) (s : State) : (reach t s).wire = s.wire := rfl
@[simp] theorem reach_svcOut (t : Nat) (s : State) : (reach t s).svcOut = s.svcOut := rfl
@[simp] theorem reach_cxlLines (t : Nat) (s : State) : (reach t s).cxlLines = s.cxlLines := rfl
@[simp] theorem reach_cxlWaiting (t : Nat) (s : State) : (reach t s).cxlWaiting = s.cxlWaiting := rfl
@[simp] theorem reach_ledgerPoison (t : Nat) (s : State) : (reach t s).ledgerPoison = s.ledgerPoison := rfl
@[simp] theorem reach_poison (t : Nat) (s : State) : (reach t s).poison = s.poison := rfl
@[simp] theorem reach_cxlOut (t : Nat) (s : State) : (reach t s).cxlOut = s.cxlOut := rfl
@[simp] theorem reach_keyArea (t : Nat) (s : State) : (reach t s).keyArea = s.keyArea := rfl
@[simp] theorem reach_flashKeys (t : Nat) (s : State) : (reach t s).flashKeys = s.flashKeys := rfl
@[simp] theorem reach_sessions (t : Nat) (s : State) : (reach t s).sessions = s.sessions := rfl
@[simp] theorem reach_serials (t : Nat) (s : State) : (reach t s).serials = s.serials := rfl
@[simp] theorem reach_releases (t : Nat) (s : State) : (reach t s).releases = s.releases := rfl
@[simp] theorem reach_attestWait (t : Nat) (s : State) : (reach t s).attestWait = s.attestWait := rfl
@[simp] theorem reach_certs (t : Nat) (s : State) : (reach t s).certs = s.certs := rfl
@[simp] theorem reach_xspi (t : Nat) (s : State) : (reach t s).xspi = s.xspi := rfl
@[simp] theorem reach_fwRunning (t : Nat) (s : State) : (reach t s).fwRunning = s.fwRunning := rfl
@[simp] theorem reach_rotRunning (t : Nat) (s : State) : (reach t s).rotRunning = s.rotRunning := rfl
@[simp] theorem reach_planImage (t : Nat) (s : State) : (reach t s).planImage = s.planImage := rfl
@[simp] theorem reach_live (t : Nat) (s : State) : (reach t s).live = s.live := rfl
@[simp] theorem reach_cores (t : Nat) (s : State) : (reach t s).cores = s.cores := rfl
@[simp] theorem reach_restarts (t : Nat) (s : State) : (reach t s).restarts = s.restarts := rfl
@[simp] theorem reach_bootedAt (t : Nat) (s : State) : (reach t s).bootedAt = s.bootedAt := rfl
@[simp] theorem reach_bootStep (t : Nat) (s : State) : (reach t s).bootStep = s.bootStep := rfl
@[simp] theorem reach_fatalAt (t : Nat) (s : State) : (reach t s).fatalAt = s.fatalAt := rfl
@[simp] theorem reach_stagedOk (t : Nat) (s : State) : (reach t s).stagedOk = s.stagedOk := rfl
@[simp] theorem reach_power (t : Nat) (s : State) : (reach t s).power = s.power := rfl
@[simp] theorem reach_crier (t : Nat) (s : State) : (reach t s).crier = s.crier := rfl
@[simp] theorem reach_traces (t : Nat) (s : State) : (reach t s).traces = s.traces := rfl

@[simp] theorem freshen_pending (s : State) : (freshen s).pending = s.pending := rfl
@[simp] theorem freshen_localTime (s : State) : (freshen s).localTime = s.localTime := rfl
@[simp] theorem freshen_phase (s : State) : (freshen s).phase = s.phase := rfl
@[simp] theorem freshen_plan (s : State) : (freshen s).plan = s.plan := rfl
@[simp] theorem freshen_fuses (s : State) : (freshen s).fuses = s.fuses := rfl
@[simp] theorem freshen_regs (s : State) : (freshen s).regs = s.regs := rfl
@[simp] theorem freshen_raw (s : State) : (freshen s).raw = s.raw := rfl
@[simp] theorem freshen_p0Regs (s : State) : (freshen s).p0Regs = s.p0Regs := rfl
@[simp] theorem freshen_ownerKeys (s : State) : (freshen s).ownerKeys = s.ownerKeys := rfl
@[simp] theorem freshen_shodunRevoked (s : State) : (freshen s).shodunRevoked = s.shodunRevoked := rfl
@[simp] theorem freshen_romKeys (s : State) : (freshen s).romKeys = s.romKeys := rfl
@[simp] theorem freshen_order (s : State) : (freshen s).order = s.order := rfl
@[simp] theorem freshen_dram (s : State) : (freshen s).dram = s.dram := rfl
@[simp] theorem freshen_hall (s : State) : (freshen s).hall = s.hall := rfl
@[simp] theorem freshen_hostMem (s : State) : (freshen s).hostMem = s.hostMem := rfl
@[simp] theorem freshen_rings (s : State) : (freshen s).rings = s.rings := rfl
@[simp] theorem freshen_cmds (s : State) : (freshen s).cmds = s.cmds := rfl
@[simp] theorem freshen_chits (s : State) : (freshen s).chits = s.chits := rfl
@[simp] theorem freshen_triggers (s : State) : (freshen s).triggers = s.triggers := rfl
@[simp] theorem freshen_released (s : State) : (freshen s).released = s.released := rfl
@[simp] theorem freshen_chitWork (s : State) : (freshen s).chitWork = s.chitWork := rfl
@[simp] theorem freshen_msix (s : State) : (freshen s).msix = s.msix := rfl
@[simp] theorem freshen_dmaWait (s : State) : (freshen s).dmaWait = s.dmaWait := rfl
@[simp] theorem freshen_dmaSince (s : State) : (freshen s).dmaSince = s.dmaSince := rfl
@[simp] theorem freshen_latches (s : State) : (freshen s).latches = s.latches := rfl
@[simp] theorem freshen_answers (s : State) : (freshen s).answers = s.answers := rfl
@[simp] theorem freshen_readsHeld (s : State) : (freshen s).readsHeld = s.readsHeld := rfl
@[simp] theorem freshen_sidebandOut (s : State) : (freshen s).sidebandOut = s.sidebandOut := rfl
@[simp] theorem freshen_seqs (s : State) : (freshen s).seqs = s.seqs := rfl
@[simp] theorem freshen_crates (s : State) : (freshen s).crates = s.crates := rfl
@[simp] theorem freshen_seals (s : State) : (freshen s).seals = s.seals := rfl
@[simp] theorem freshen_attends (s : State) : (freshen s).attends = s.attends := rfl
@[simp] theorem freshen_forwards (s : State) : (freshen s).forwards = s.forwards := rfl
@[simp] theorem freshen_stalls (s : State) : (freshen s).stalls = s.stalls := rfl
@[simp] theorem freshen_ctxs (s : State) : (freshen s).ctxs = s.ctxs := rfl
@[simp] theorem freshen_unplaced (s : State) : (freshen s).unplaced = s.unplaced := rfl
@[simp] theorem freshen_tills (s : State) : (freshen s).tills = s.tills := rfl
@[simp] theorem freshen_slotStart (s : State) : (freshen s).slotStart = s.slotStart := rfl
@[simp] theorem freshen_ttWaiters (s : State) : (freshen s).ttWaiters = s.ttWaiters := rfl
@[simp] theorem freshen_homes (s : State) : (freshen s).homes = s.homes := rfl
@[simp] theorem freshen_replicas (s : State) : (freshen s).replicas = s.replicas := rfl
@[simp] theorem freshen_pushOwed (s : State) : (freshen s).pushOwed = s.pushOwed := rfl
@[simp] theorem freshen_pubs (s : State) : (freshen s).pubs = s.pubs := rfl
@[simp] theorem freshen_publishes (s : State) : (freshen s).publishes = s.publishes := rfl
@[simp] theorem freshen_drops (s : State) : (freshen s).drops = s.drops := rfl
@[simp] theorem freshen_results (s : State) : (freshen s).results = s.results := rfl
@[simp] theorem freshen_lookups (s : State) : (freshen s).lookups = s.lookups := rfl
@[simp] theorem freshen_holds (s : State) : (freshen s).holds = s.holds := rfl
@[simp] theorem freshen_myHolds (s : State) : (freshen s).myHolds = s.myHolds := rfl
@[simp] theorem freshen_askedHits (s : State) : (freshen s).askedHits = s.askedHits := rfl
@[simp] theorem freshen_leases (s : State) : (freshen s).leases = s.leases := rfl
@[simp] theorem freshen_zones (s : State) : (freshen s).zones = s.zones := rfl
@[simp] theorem freshen_catalogue (s : State) : (freshen s).catalogue = s.catalogue := rfl
@[simp] theorem freshen_journalRecs (s : State) : (freshen s).journalRecs = s.journalRecs := rfl
@[simp] theorem freshen_flashQueue (s : State) : (freshen s).flashQueue = s.flashQueue := rfl
@[simp] theorem freshen_flashHeld (s : State) : (freshen s).flashHeld = s.flashHeld := rfl
@[simp] theorem freshen_deviceCat (s : State) : (freshen s).deviceCat = s.deviceCat := rfl
@[simp] theorem freshen_replaying (s : State) : (freshen s).replaying = s.replaying := rfl
@[simp] theorem freshen_flashTokens (s : State) : (freshen s).flashTokens = s.flashTokens := rfl
@[simp] theorem freshen_flashFilled (s : State) : (freshen s).flashFilled = s.flashFilled := rfl
@[simp] theorem freshen_evicting (s : State) : (freshen s).evicting = s.evicting := rfl
@[simp] theorem freshen_tierWaits (s : State) : (freshen s).tierWaits = s.tierWaits := rfl
@[simp] theorem freshen_channelsFailed (s : State) : (freshen s).channelsFailed = s.channelsFailed := rfl
@[simp] theorem freshen_frames (s : State) : (freshen s).frames = s.frames := rfl
@[simp] theorem freshen_frameErrs (s : State) : (freshen s).frameErrs = s.frameErrs := rfl
@[simp] theorem freshen_leadRun (s : State) : (freshen s).leadRun = s.leadRun := rfl
@[simp] theorem freshen_tables (s : State) : (freshen s).tables = s.tables := rfl
@[simp] theorem freshen_actives (s : State) : (freshen s).actives = s.actives := rfl
@[simp] theorem freshen_pendingTables (s : State) : (freshen s).pendingTables = s.pendingTables := rfl
@[simp] theorem freshen_windows (s : State) : (freshen s).windows = s.windows := rfl
@[simp] theorem freshen_winFreed (s : State) : (freshen s).winFreed = s.winFreed := rfl
@[simp] theorem freshen_winNext (s : State) : (freshen s).winNext = s.winNext := rfl
@[simp] theorem freshen_conns (s : State) : (freshen s).conns = s.conns := rfl
@[simp] theorem freshen_reads (s : State) : (freshen s).reads = s.reads := rfl
@[simp] theorem freshen_peers (s : State) : (freshen s).peers = s.peers := rfl
@[simp] theorem freshen_ports (s : State) : (freshen s).ports = s.ports := rfl
@[simp] theorem freshen_wire (s : State) : (freshen s).wire = s.wire := rfl
@[simp] theorem freshen_svcOut (s : State) : (freshen s).svcOut = s.svcOut := rfl
@[simp] theorem freshen_cxlLines (s : State) : (freshen s).cxlLines = s.cxlLines := rfl
@[simp] theorem freshen_cxlWaiting (s : State) : (freshen s).cxlWaiting = s.cxlWaiting := rfl
@[simp] theorem freshen_ledgerPoison (s : State) : (freshen s).ledgerPoison = s.ledgerPoison := rfl
@[simp] theorem freshen_poison (s : State) : (freshen s).poison = s.poison := rfl
@[simp] theorem freshen_cxlOut (s : State) : (freshen s).cxlOut = s.cxlOut := rfl
@[simp] theorem freshen_keyArea (s : State) : (freshen s).keyArea = s.keyArea := rfl
@[simp] theorem freshen_flashKeys (s : State) : (freshen s).flashKeys = s.flashKeys := rfl
@[simp] theorem freshen_sessions (s : State) : (freshen s).sessions = s.sessions := rfl
@[simp] theorem freshen_serials (s : State) : (freshen s).serials = s.serials := rfl
@[simp] theorem freshen_releases (s : State) : (freshen s).releases = s.releases := rfl
@[simp] theorem freshen_attestWait (s : State) : (freshen s).attestWait = s.attestWait := rfl
@[simp] theorem freshen_certs (s : State) : (freshen s).certs = s.certs := rfl
@[simp] theorem freshen_xspi (s : State) : (freshen s).xspi = s.xspi := rfl
@[simp] theorem freshen_fwRunning (s : State) : (freshen s).fwRunning = s.fwRunning := rfl
@[simp] theorem freshen_rotRunning (s : State) : (freshen s).rotRunning = s.rotRunning := rfl
@[simp] theorem freshen_planImage (s : State) : (freshen s).planImage = s.planImage := rfl
@[simp] theorem freshen_live (s : State) : (freshen s).live = s.live := rfl
@[simp] theorem freshen_cores (s : State) : (freshen s).cores = s.cores := rfl
@[simp] theorem freshen_restarts (s : State) : (freshen s).restarts = s.restarts := rfl
@[simp] theorem freshen_bootedAt (s : State) : (freshen s).bootedAt = s.bootedAt := rfl
@[simp] theorem freshen_bootStep (s : State) : (freshen s).bootStep = s.bootStep := rfl
@[simp] theorem freshen_fatalAt (s : State) : (freshen s).fatalAt = s.fatalAt := rfl
@[simp] theorem freshen_stagedOk (s : State) : (freshen s).stagedOk = s.stagedOk := rfl
@[simp] theorem freshen_power (s : State) : (freshen s).power = s.power := rfl
@[simp] theorem freshen_crier (s : State) : (freshen s).crier = s.crier := rfl
@[simp] theorem freshen_traces (s : State) : (freshen s).traces = s.traces := rfl

@[simp] theorem ordered_pending (s : State) : (ordered s).pending = s.pending := rfl
@[simp] theorem ordered_localTime (s : State) : (ordered s).localTime = s.localTime := rfl
@[simp] theorem ordered_phase (s : State) : (ordered s).phase = s.phase := rfl
@[simp] theorem ordered_plan (s : State) : (ordered s).plan = s.plan := rfl
@[simp] theorem ordered_fuses (s : State) : (ordered s).fuses = s.fuses := rfl
@[simp] theorem ordered_regs (s : State) : (ordered s).regs = s.regs := rfl
@[simp] theorem ordered_raw (s : State) : (ordered s).raw = s.raw := rfl
@[simp] theorem ordered_p0Regs (s : State) : (ordered s).p0Regs = s.p0Regs := rfl
@[simp] theorem ordered_ownerKeys (s : State) : (ordered s).ownerKeys = s.ownerKeys := rfl
@[simp] theorem ordered_shodunRevoked (s : State) : (ordered s).shodunRevoked = s.shodunRevoked := rfl
@[simp] theorem ordered_romKeys (s : State) : (ordered s).romKeys = s.romKeys := rfl
@[simp] theorem ordered_fresh (s : State) : (ordered s).fresh = s.fresh := rfl
@[simp] theorem ordered_dram (s : State) : (ordered s).dram = s.dram := rfl
@[simp] theorem ordered_hall (s : State) : (ordered s).hall = s.hall := rfl
@[simp] theorem ordered_hostMem (s : State) : (ordered s).hostMem = s.hostMem := rfl
@[simp] theorem ordered_rings (s : State) : (ordered s).rings = s.rings := rfl
@[simp] theorem ordered_cmds (s : State) : (ordered s).cmds = s.cmds := rfl
@[simp] theorem ordered_chits (s : State) : (ordered s).chits = s.chits := rfl
@[simp] theorem ordered_triggers (s : State) : (ordered s).triggers = s.triggers := rfl
@[simp] theorem ordered_released (s : State) : (ordered s).released = s.released := rfl
@[simp] theorem ordered_chitWork (s : State) : (ordered s).chitWork = s.chitWork := rfl
@[simp] theorem ordered_msix (s : State) : (ordered s).msix = s.msix := rfl
@[simp] theorem ordered_dmaWait (s : State) : (ordered s).dmaWait = s.dmaWait := rfl
@[simp] theorem ordered_dmaSince (s : State) : (ordered s).dmaSince = s.dmaSince := rfl
@[simp] theorem ordered_latches (s : State) : (ordered s).latches = s.latches := rfl
@[simp] theorem ordered_answers (s : State) : (ordered s).answers = s.answers := rfl
@[simp] theorem ordered_readsHeld (s : State) : (ordered s).readsHeld = s.readsHeld := rfl
@[simp] theorem ordered_sidebandOut (s : State) : (ordered s).sidebandOut = s.sidebandOut := rfl
@[simp] theorem ordered_seqs (s : State) : (ordered s).seqs = s.seqs := rfl
@[simp] theorem ordered_crates (s : State) : (ordered s).crates = s.crates := rfl
@[simp] theorem ordered_seals (s : State) : (ordered s).seals = s.seals := rfl
@[simp] theorem ordered_attends (s : State) : (ordered s).attends = s.attends := rfl
@[simp] theorem ordered_forwards (s : State) : (ordered s).forwards = s.forwards := rfl
@[simp] theorem ordered_stalls (s : State) : (ordered s).stalls = s.stalls := rfl
@[simp] theorem ordered_ctxs (s : State) : (ordered s).ctxs = s.ctxs := rfl
@[simp] theorem ordered_unplaced (s : State) : (ordered s).unplaced = s.unplaced := rfl
@[simp] theorem ordered_tills (s : State) : (ordered s).tills = s.tills := rfl
@[simp] theorem ordered_slotStart (s : State) : (ordered s).slotStart = s.slotStart := rfl
@[simp] theorem ordered_ttWaiters (s : State) : (ordered s).ttWaiters = s.ttWaiters := rfl
@[simp] theorem ordered_homes (s : State) : (ordered s).homes = s.homes := rfl
@[simp] theorem ordered_replicas (s : State) : (ordered s).replicas = s.replicas := rfl
@[simp] theorem ordered_pushOwed (s : State) : (ordered s).pushOwed = s.pushOwed := rfl
@[simp] theorem ordered_pubs (s : State) : (ordered s).pubs = s.pubs := rfl
@[simp] theorem ordered_publishes (s : State) : (ordered s).publishes = s.publishes := rfl
@[simp] theorem ordered_drops (s : State) : (ordered s).drops = s.drops := rfl
@[simp] theorem ordered_results (s : State) : (ordered s).results = s.results := rfl
@[simp] theorem ordered_lookups (s : State) : (ordered s).lookups = s.lookups := rfl
@[simp] theorem ordered_holds (s : State) : (ordered s).holds = s.holds := rfl
@[simp] theorem ordered_myHolds (s : State) : (ordered s).myHolds = s.myHolds := rfl
@[simp] theorem ordered_askedHits (s : State) : (ordered s).askedHits = s.askedHits := rfl
@[simp] theorem ordered_leases (s : State) : (ordered s).leases = s.leases := rfl
@[simp] theorem ordered_zones (s : State) : (ordered s).zones = s.zones := rfl
@[simp] theorem ordered_catalogue (s : State) : (ordered s).catalogue = s.catalogue := rfl
@[simp] theorem ordered_journalRecs (s : State) : (ordered s).journalRecs = s.journalRecs := rfl
@[simp] theorem ordered_flashQueue (s : State) : (ordered s).flashQueue = s.flashQueue := rfl
@[simp] theorem ordered_flashHeld (s : State) : (ordered s).flashHeld = s.flashHeld := rfl
@[simp] theorem ordered_deviceCat (s : State) : (ordered s).deviceCat = s.deviceCat := rfl
@[simp] theorem ordered_replaying (s : State) : (ordered s).replaying = s.replaying := rfl
@[simp] theorem ordered_flashTokens (s : State) : (ordered s).flashTokens = s.flashTokens := rfl
@[simp] theorem ordered_flashFilled (s : State) : (ordered s).flashFilled = s.flashFilled := rfl
@[simp] theorem ordered_evicting (s : State) : (ordered s).evicting = s.evicting := rfl
@[simp] theorem ordered_tierWaits (s : State) : (ordered s).tierWaits = s.tierWaits := rfl
@[simp] theorem ordered_channelsFailed (s : State) : (ordered s).channelsFailed = s.channelsFailed := rfl
@[simp] theorem ordered_frames (s : State) : (ordered s).frames = s.frames := rfl
@[simp] theorem ordered_frameErrs (s : State) : (ordered s).frameErrs = s.frameErrs := rfl
@[simp] theorem ordered_leadRun (s : State) : (ordered s).leadRun = s.leadRun := rfl
@[simp] theorem ordered_tables (s : State) : (ordered s).tables = s.tables := rfl
@[simp] theorem ordered_actives (s : State) : (ordered s).actives = s.actives := rfl
@[simp] theorem ordered_pendingTables (s : State) : (ordered s).pendingTables = s.pendingTables := rfl
@[simp] theorem ordered_windows (s : State) : (ordered s).windows = s.windows := rfl
@[simp] theorem ordered_winFreed (s : State) : (ordered s).winFreed = s.winFreed := rfl
@[simp] theorem ordered_winNext (s : State) : (ordered s).winNext = s.winNext := rfl
@[simp] theorem ordered_conns (s : State) : (ordered s).conns = s.conns := rfl
@[simp] theorem ordered_reads (s : State) : (ordered s).reads = s.reads := rfl
@[simp] theorem ordered_peers (s : State) : (ordered s).peers = s.peers := rfl
@[simp] theorem ordered_ports (s : State) : (ordered s).ports = s.ports := rfl
@[simp] theorem ordered_wire (s : State) : (ordered s).wire = s.wire := rfl
@[simp] theorem ordered_svcOut (s : State) : (ordered s).svcOut = s.svcOut := rfl
@[simp] theorem ordered_cxlLines (s : State) : (ordered s).cxlLines = s.cxlLines := rfl
@[simp] theorem ordered_cxlWaiting (s : State) : (ordered s).cxlWaiting = s.cxlWaiting := rfl
@[simp] theorem ordered_ledgerPoison (s : State) : (ordered s).ledgerPoison = s.ledgerPoison := rfl
@[simp] theorem ordered_poison (s : State) : (ordered s).poison = s.poison := rfl
@[simp] theorem ordered_cxlOut (s : State) : (ordered s).cxlOut = s.cxlOut := rfl
@[simp] theorem ordered_keyArea (s : State) : (ordered s).keyArea = s.keyArea := rfl
@[simp] theorem ordered_flashKeys (s : State) : (ordered s).flashKeys = s.flashKeys := rfl
@[simp] theorem ordered_sessions (s : State) : (ordered s).sessions = s.sessions := rfl
@[simp] theorem ordered_serials (s : State) : (ordered s).serials = s.serials := rfl
@[simp] theorem ordered_releases (s : State) : (ordered s).releases = s.releases := rfl
@[simp] theorem ordered_attestWait (s : State) : (ordered s).attestWait = s.attestWait := rfl
@[simp] theorem ordered_certs (s : State) : (ordered s).certs = s.certs := rfl
@[simp] theorem ordered_xspi (s : State) : (ordered s).xspi = s.xspi := rfl
@[simp] theorem ordered_fwRunning (s : State) : (ordered s).fwRunning = s.fwRunning := rfl
@[simp] theorem ordered_rotRunning (s : State) : (ordered s).rotRunning = s.rotRunning := rfl
@[simp] theorem ordered_planImage (s : State) : (ordered s).planImage = s.planImage := rfl
@[simp] theorem ordered_live (s : State) : (ordered s).live = s.live := rfl
@[simp] theorem ordered_cores (s : State) : (ordered s).cores = s.cores := rfl
@[simp] theorem ordered_restarts (s : State) : (ordered s).restarts = s.restarts := rfl
@[simp] theorem ordered_bootedAt (s : State) : (ordered s).bootedAt = s.bootedAt := rfl
@[simp] theorem ordered_bootStep (s : State) : (ordered s).bootStep = s.bootStep := rfl
@[simp] theorem ordered_fatalAt (s : State) : (ordered s).fatalAt = s.fatalAt := rfl
@[simp] theorem ordered_stagedOk (s : State) : (ordered s).stagedOk = s.stagedOk := rfl
@[simp] theorem ordered_power (s : State) : (ordered s).power = s.power := rfl
@[simp] theorem ordered_crier (s : State) : (ordered s).crier = s.crier := rfl
@[simp] theorem ordered_traces (s : State) : (ordered s).traces = s.traces := rfl

@[simp] theorem keepQueue_pending (s t : State) : (keepQueue s t).pending = s.pending := rfl
@[simp] theorem keepQueue_localTime (s t : State) : (keepQueue s t).localTime = t.localTime := rfl
@[simp] theorem keepQueue_phase (s t : State) : (keepQueue s t).phase = t.phase := rfl
@[simp] theorem keepQueue_plan (s t : State) : (keepQueue s t).plan = t.plan := rfl
@[simp] theorem keepQueue_fuses (s t : State) : (keepQueue s t).fuses = t.fuses := rfl
@[simp] theorem keepQueue_regs (s t : State) : (keepQueue s t).regs = t.regs := rfl
@[simp] theorem keepQueue_raw (s t : State) : (keepQueue s t).raw = t.raw := rfl
@[simp] theorem keepQueue_p0Regs (s t : State) : (keepQueue s t).p0Regs = t.p0Regs := rfl
@[simp] theorem keepQueue_ownerKeys (s t : State) : (keepQueue s t).ownerKeys = t.ownerKeys := rfl
@[simp] theorem keepQueue_shodunRevoked (s t : State) : (keepQueue s t).shodunRevoked = t.shodunRevoked := rfl
@[simp] theorem keepQueue_romKeys (s t : State) : (keepQueue s t).romKeys = t.romKeys := rfl
@[simp] theorem keepQueue_fresh (s t : State) : (keepQueue s t).fresh = t.fresh := rfl
@[simp] theorem keepQueue_order (s t : State) : (keepQueue s t).order = t.order := rfl
@[simp] theorem keepQueue_dram (s t : State) : (keepQueue s t).dram = t.dram := rfl
@[simp] theorem keepQueue_hall (s t : State) : (keepQueue s t).hall = t.hall := rfl
@[simp] theorem keepQueue_hostMem (s t : State) : (keepQueue s t).hostMem = t.hostMem := rfl
@[simp] theorem keepQueue_rings (s t : State) : (keepQueue s t).rings = t.rings := rfl
@[simp] theorem keepQueue_cmds (s t : State) : (keepQueue s t).cmds = t.cmds := rfl
@[simp] theorem keepQueue_chits (s t : State) : (keepQueue s t).chits = t.chits := rfl
@[simp] theorem keepQueue_triggers (s t : State) : (keepQueue s t).triggers = t.triggers := rfl
@[simp] theorem keepQueue_released (s t : State) : (keepQueue s t).released = t.released := rfl
@[simp] theorem keepQueue_chitWork (s t : State) : (keepQueue s t).chitWork = t.chitWork := rfl
@[simp] theorem keepQueue_msix (s t : State) : (keepQueue s t).msix = t.msix := rfl
@[simp] theorem keepQueue_dmaWait (s t : State) : (keepQueue s t).dmaWait = t.dmaWait := rfl
@[simp] theorem keepQueue_dmaSince (s t : State) : (keepQueue s t).dmaSince = t.dmaSince := rfl
@[simp] theorem keepQueue_latches (s t : State) : (keepQueue s t).latches = t.latches := rfl
@[simp] theorem keepQueue_answers (s t : State) : (keepQueue s t).answers = t.answers := rfl
@[simp] theorem keepQueue_readsHeld (s t : State) : (keepQueue s t).readsHeld = t.readsHeld := rfl
@[simp] theorem keepQueue_sidebandOut (s t : State) : (keepQueue s t).sidebandOut = t.sidebandOut := rfl
@[simp] theorem keepQueue_seqs (s t : State) : (keepQueue s t).seqs = t.seqs := rfl
@[simp] theorem keepQueue_crates (s t : State) : (keepQueue s t).crates = t.crates := rfl
@[simp] theorem keepQueue_seals (s t : State) : (keepQueue s t).seals = t.seals := rfl
@[simp] theorem keepQueue_attends (s t : State) : (keepQueue s t).attends = t.attends := rfl
@[simp] theorem keepQueue_forwards (s t : State) : (keepQueue s t).forwards = t.forwards := rfl
@[simp] theorem keepQueue_stalls (s t : State) : (keepQueue s t).stalls = t.stalls := rfl
@[simp] theorem keepQueue_ctxs (s t : State) : (keepQueue s t).ctxs = t.ctxs := rfl
@[simp] theorem keepQueue_unplaced (s t : State) : (keepQueue s t).unplaced = t.unplaced := rfl
@[simp] theorem keepQueue_tills (s t : State) : (keepQueue s t).tills = t.tills := rfl
@[simp] theorem keepQueue_slotStart (s t : State) : (keepQueue s t).slotStart = t.slotStart := rfl
@[simp] theorem keepQueue_ttWaiters (s t : State) : (keepQueue s t).ttWaiters = t.ttWaiters := rfl
@[simp] theorem keepQueue_homes (s t : State) : (keepQueue s t).homes = t.homes := rfl
@[simp] theorem keepQueue_replicas (s t : State) : (keepQueue s t).replicas = t.replicas := rfl
@[simp] theorem keepQueue_pushOwed (s t : State) : (keepQueue s t).pushOwed = t.pushOwed := rfl
@[simp] theorem keepQueue_pubs (s t : State) : (keepQueue s t).pubs = t.pubs := rfl
@[simp] theorem keepQueue_publishes (s t : State) : (keepQueue s t).publishes = t.publishes := rfl
@[simp] theorem keepQueue_drops (s t : State) : (keepQueue s t).drops = t.drops := rfl
@[simp] theorem keepQueue_results (s t : State) : (keepQueue s t).results = t.results := rfl
@[simp] theorem keepQueue_lookups (s t : State) : (keepQueue s t).lookups = t.lookups := rfl
@[simp] theorem keepQueue_holds (s t : State) : (keepQueue s t).holds = t.holds := rfl
@[simp] theorem keepQueue_myHolds (s t : State) : (keepQueue s t).myHolds = t.myHolds := rfl
@[simp] theorem keepQueue_askedHits (s t : State) : (keepQueue s t).askedHits = t.askedHits := rfl
@[simp] theorem keepQueue_leases (s t : State) : (keepQueue s t).leases = t.leases := rfl
@[simp] theorem keepQueue_zones (s t : State) : (keepQueue s t).zones = t.zones := rfl
@[simp] theorem keepQueue_catalogue (s t : State) : (keepQueue s t).catalogue = t.catalogue := rfl
@[simp] theorem keepQueue_journalRecs (s t : State) : (keepQueue s t).journalRecs = t.journalRecs := rfl
@[simp] theorem keepQueue_flashQueue (s t : State) : (keepQueue s t).flashQueue = t.flashQueue := rfl
@[simp] theorem keepQueue_flashHeld (s t : State) : (keepQueue s t).flashHeld = t.flashHeld := rfl
@[simp] theorem keepQueue_deviceCat (s t : State) : (keepQueue s t).deviceCat = t.deviceCat := rfl
@[simp] theorem keepQueue_replaying (s t : State) : (keepQueue s t).replaying = t.replaying := rfl
@[simp] theorem keepQueue_flashTokens (s t : State) : (keepQueue s t).flashTokens = t.flashTokens := rfl
@[simp] theorem keepQueue_flashFilled (s t : State) : (keepQueue s t).flashFilled = t.flashFilled := rfl
@[simp] theorem keepQueue_evicting (s t : State) : (keepQueue s t).evicting = t.evicting := rfl
@[simp] theorem keepQueue_tierWaits (s t : State) : (keepQueue s t).tierWaits = t.tierWaits := rfl
@[simp] theorem keepQueue_channelsFailed (s t : State) : (keepQueue s t).channelsFailed = t.channelsFailed := rfl
@[simp] theorem keepQueue_frames (s t : State) : (keepQueue s t).frames = t.frames := rfl
@[simp] theorem keepQueue_frameErrs (s t : State) : (keepQueue s t).frameErrs = t.frameErrs := rfl
@[simp] theorem keepQueue_leadRun (s t : State) : (keepQueue s t).leadRun = t.leadRun := rfl
@[simp] theorem keepQueue_tables (s t : State) : (keepQueue s t).tables = t.tables := rfl
@[simp] theorem keepQueue_actives (s t : State) : (keepQueue s t).actives = t.actives := rfl
@[simp] theorem keepQueue_pendingTables (s t : State) : (keepQueue s t).pendingTables = t.pendingTables := rfl
@[simp] theorem keepQueue_windows (s t : State) : (keepQueue s t).windows = t.windows := rfl
@[simp] theorem keepQueue_winFreed (s t : State) : (keepQueue s t).winFreed = t.winFreed := rfl
@[simp] theorem keepQueue_winNext (s t : State) : (keepQueue s t).winNext = t.winNext := rfl
@[simp] theorem keepQueue_conns (s t : State) : (keepQueue s t).conns = t.conns := rfl
@[simp] theorem keepQueue_reads (s t : State) : (keepQueue s t).reads = t.reads := rfl
@[simp] theorem keepQueue_peers (s t : State) : (keepQueue s t).peers = t.peers := rfl
@[simp] theorem keepQueue_ports (s t : State) : (keepQueue s t).ports = t.ports := rfl
@[simp] theorem keepQueue_wire (s t : State) : (keepQueue s t).wire = t.wire := rfl
@[simp] theorem keepQueue_svcOut (s t : State) : (keepQueue s t).svcOut = t.svcOut := rfl
@[simp] theorem keepQueue_cxlLines (s t : State) : (keepQueue s t).cxlLines = t.cxlLines := rfl
@[simp] theorem keepQueue_cxlWaiting (s t : State) : (keepQueue s t).cxlWaiting = t.cxlWaiting := rfl
@[simp] theorem keepQueue_ledgerPoison (s t : State) : (keepQueue s t).ledgerPoison = t.ledgerPoison := rfl
@[simp] theorem keepQueue_poison (s t : State) : (keepQueue s t).poison = t.poison := rfl
@[simp] theorem keepQueue_cxlOut (s t : State) : (keepQueue s t).cxlOut = t.cxlOut := rfl
@[simp] theorem keepQueue_keyArea (s t : State) : (keepQueue s t).keyArea = t.keyArea := rfl
@[simp] theorem keepQueue_flashKeys (s t : State) : (keepQueue s t).flashKeys = t.flashKeys := rfl
@[simp] theorem keepQueue_sessions (s t : State) : (keepQueue s t).sessions = t.sessions := rfl
@[simp] theorem keepQueue_serials (s t : State) : (keepQueue s t).serials = t.serials := rfl
@[simp] theorem keepQueue_releases (s t : State) : (keepQueue s t).releases = t.releases := rfl
@[simp] theorem keepQueue_attestWait (s t : State) : (keepQueue s t).attestWait = t.attestWait := rfl
@[simp] theorem keepQueue_certs (s t : State) : (keepQueue s t).certs = t.certs := rfl
@[simp] theorem keepQueue_xspi (s t : State) : (keepQueue s t).xspi = t.xspi := rfl
@[simp] theorem keepQueue_fwRunning (s t : State) : (keepQueue s t).fwRunning = t.fwRunning := rfl
@[simp] theorem keepQueue_rotRunning (s t : State) : (keepQueue s t).rotRunning = t.rotRunning := rfl
@[simp] theorem keepQueue_planImage (s t : State) : (keepQueue s t).planImage = t.planImage := rfl
@[simp] theorem keepQueue_live (s t : State) : (keepQueue s t).live = t.live := rfl
@[simp] theorem keepQueue_cores (s t : State) : (keepQueue s t).cores = t.cores := rfl
@[simp] theorem keepQueue_restarts (s t : State) : (keepQueue s t).restarts = t.restarts := rfl
@[simp] theorem keepQueue_bootedAt (s t : State) : (keepQueue s t).bootedAt = t.bootedAt := rfl
@[simp] theorem keepQueue_bootStep (s t : State) : (keepQueue s t).bootStep = t.bootStep := rfl
@[simp] theorem keepQueue_fatalAt (s t : State) : (keepQueue s t).fatalAt = t.fatalAt := rfl
@[simp] theorem keepQueue_stagedOk (s t : State) : (keepQueue s t).stagedOk = t.stagedOk := rfl
@[simp] theorem keepQueue_power (s t : State) : (keepQueue s t).power = t.power := rfl
@[simp] theorem keepQueue_crier (s t : State) : (keepQueue s t).crier = t.crier := rfl
@[simp] theorem keepQueue_traces (s t : State) : (keepQueue s t).traces = t.traces := rfl

@[simp] theorem onCmd_pending (id : Nat) (f : Cmd → Cmd) (s : State) : (onCmd id f s).pending = s.pending := rfl
@[simp] theorem onCmd_localTime (id : Nat) (f : Cmd → Cmd) (s : State) : (onCmd id f s).localTime = s.localTime := rfl
@[simp] theorem onCmd_phase (id : Nat) (f : Cmd → Cmd) (s : State) : (onCmd id f s).phase = s.phase := rfl
@[simp] theorem onCmd_plan (id : Nat) (f : Cmd → Cmd) (s : State) : (onCmd id f s).plan = s.plan := rfl
@[simp] theorem onCmd_fuses (id : Nat) (f : Cmd → Cmd) (s : State) : (onCmd id f s).fuses = s.fuses := rfl
@[simp] theorem onCmd_regs (id : Nat) (f : Cmd → Cmd) (s : State) : (onCmd id f s).regs = s.regs := rfl
@[simp] theorem onCmd_raw (id : Nat) (f : Cmd → Cmd) (s : State) : (onCmd id f s).raw = s.raw := rfl
@[simp] theorem onCmd_p0Regs (id : Nat) (f : Cmd → Cmd) (s : State) : (onCmd id f s).p0Regs = s.p0Regs := rfl
@[simp] theorem onCmd_ownerKeys (id : Nat) (f : Cmd → Cmd) (s : State) : (onCmd id f s).ownerKeys = s.ownerKeys := rfl
@[simp] theorem onCmd_shodunRevoked (id : Nat) (f : Cmd → Cmd) (s : State) : (onCmd id f s).shodunRevoked = s.shodunRevoked := rfl
@[simp] theorem onCmd_romKeys (id : Nat) (f : Cmd → Cmd) (s : State) : (onCmd id f s).romKeys = s.romKeys := rfl
@[simp] theorem onCmd_fresh (id : Nat) (f : Cmd → Cmd) (s : State) : (onCmd id f s).fresh = s.fresh := rfl
@[simp] theorem onCmd_order (id : Nat) (f : Cmd → Cmd) (s : State) : (onCmd id f s).order = s.order := rfl
@[simp] theorem onCmd_dram (id : Nat) (f : Cmd → Cmd) (s : State) : (onCmd id f s).dram = s.dram := rfl
@[simp] theorem onCmd_hall (id : Nat) (f : Cmd → Cmd) (s : State) : (onCmd id f s).hall = s.hall := rfl
@[simp] theorem onCmd_hostMem (id : Nat) (f : Cmd → Cmd) (s : State) : (onCmd id f s).hostMem = s.hostMem := rfl
@[simp] theorem onCmd_rings (id : Nat) (f : Cmd → Cmd) (s : State) : (onCmd id f s).rings = s.rings := rfl
@[simp] theorem onCmd_chits (id : Nat) (f : Cmd → Cmd) (s : State) : (onCmd id f s).chits = s.chits := rfl
@[simp] theorem onCmd_triggers (id : Nat) (f : Cmd → Cmd) (s : State) : (onCmd id f s).triggers = s.triggers := rfl
@[simp] theorem onCmd_released (id : Nat) (f : Cmd → Cmd) (s : State) : (onCmd id f s).released = s.released := rfl
@[simp] theorem onCmd_chitWork (id : Nat) (f : Cmd → Cmd) (s : State) : (onCmd id f s).chitWork = s.chitWork := rfl
@[simp] theorem onCmd_msix (id : Nat) (f : Cmd → Cmd) (s : State) : (onCmd id f s).msix = s.msix := rfl
@[simp] theorem onCmd_dmaWait (id : Nat) (f : Cmd → Cmd) (s : State) : (onCmd id f s).dmaWait = s.dmaWait := rfl
@[simp] theorem onCmd_dmaSince (id : Nat) (f : Cmd → Cmd) (s : State) : (onCmd id f s).dmaSince = s.dmaSince := rfl
@[simp] theorem onCmd_latches (id : Nat) (f : Cmd → Cmd) (s : State) : (onCmd id f s).latches = s.latches := rfl
@[simp] theorem onCmd_answers (id : Nat) (f : Cmd → Cmd) (s : State) : (onCmd id f s).answers = s.answers := rfl
@[simp] theorem onCmd_readsHeld (id : Nat) (f : Cmd → Cmd) (s : State) : (onCmd id f s).readsHeld = s.readsHeld := rfl
@[simp] theorem onCmd_sidebandOut (id : Nat) (f : Cmd → Cmd) (s : State) : (onCmd id f s).sidebandOut = s.sidebandOut := rfl
@[simp] theorem onCmd_seqs (id : Nat) (f : Cmd → Cmd) (s : State) : (onCmd id f s).seqs = s.seqs := rfl
@[simp] theorem onCmd_crates (id : Nat) (f : Cmd → Cmd) (s : State) : (onCmd id f s).crates = s.crates := rfl
@[simp] theorem onCmd_seals (id : Nat) (f : Cmd → Cmd) (s : State) : (onCmd id f s).seals = s.seals := rfl
@[simp] theorem onCmd_attends (id : Nat) (f : Cmd → Cmd) (s : State) : (onCmd id f s).attends = s.attends := rfl
@[simp] theorem onCmd_forwards (id : Nat) (f : Cmd → Cmd) (s : State) : (onCmd id f s).forwards = s.forwards := rfl
@[simp] theorem onCmd_stalls (id : Nat) (f : Cmd → Cmd) (s : State) : (onCmd id f s).stalls = s.stalls := rfl
@[simp] theorem onCmd_ctxs (id : Nat) (f : Cmd → Cmd) (s : State) : (onCmd id f s).ctxs = s.ctxs := rfl
@[simp] theorem onCmd_unplaced (id : Nat) (f : Cmd → Cmd) (s : State) : (onCmd id f s).unplaced = s.unplaced := rfl
@[simp] theorem onCmd_tills (id : Nat) (f : Cmd → Cmd) (s : State) : (onCmd id f s).tills = s.tills := rfl
@[simp] theorem onCmd_slotStart (id : Nat) (f : Cmd → Cmd) (s : State) : (onCmd id f s).slotStart = s.slotStart := rfl
@[simp] theorem onCmd_ttWaiters (id : Nat) (f : Cmd → Cmd) (s : State) : (onCmd id f s).ttWaiters = s.ttWaiters := rfl
@[simp] theorem onCmd_homes (id : Nat) (f : Cmd → Cmd) (s : State) : (onCmd id f s).homes = s.homes := rfl
@[simp] theorem onCmd_replicas (id : Nat) (f : Cmd → Cmd) (s : State) : (onCmd id f s).replicas = s.replicas := rfl
@[simp] theorem onCmd_pushOwed (id : Nat) (f : Cmd → Cmd) (s : State) : (onCmd id f s).pushOwed = s.pushOwed := rfl
@[simp] theorem onCmd_pubs (id : Nat) (f : Cmd → Cmd) (s : State) : (onCmd id f s).pubs = s.pubs := rfl
@[simp] theorem onCmd_publishes (id : Nat) (f : Cmd → Cmd) (s : State) : (onCmd id f s).publishes = s.publishes := rfl
@[simp] theorem onCmd_drops (id : Nat) (f : Cmd → Cmd) (s : State) : (onCmd id f s).drops = s.drops := rfl
@[simp] theorem onCmd_results (id : Nat) (f : Cmd → Cmd) (s : State) : (onCmd id f s).results = s.results := rfl
@[simp] theorem onCmd_lookups (id : Nat) (f : Cmd → Cmd) (s : State) : (onCmd id f s).lookups = s.lookups := rfl
@[simp] theorem onCmd_holds (id : Nat) (f : Cmd → Cmd) (s : State) : (onCmd id f s).holds = s.holds := rfl
@[simp] theorem onCmd_myHolds (id : Nat) (f : Cmd → Cmd) (s : State) : (onCmd id f s).myHolds = s.myHolds := rfl
@[simp] theorem onCmd_askedHits (id : Nat) (f : Cmd → Cmd) (s : State) : (onCmd id f s).askedHits = s.askedHits := rfl
@[simp] theorem onCmd_leases (id : Nat) (f : Cmd → Cmd) (s : State) : (onCmd id f s).leases = s.leases := rfl
@[simp] theorem onCmd_zones (id : Nat) (f : Cmd → Cmd) (s : State) : (onCmd id f s).zones = s.zones := rfl
@[simp] theorem onCmd_catalogue (id : Nat) (f : Cmd → Cmd) (s : State) : (onCmd id f s).catalogue = s.catalogue := rfl
@[simp] theorem onCmd_journalRecs (id : Nat) (f : Cmd → Cmd) (s : State) : (onCmd id f s).journalRecs = s.journalRecs := rfl
@[simp] theorem onCmd_flashQueue (id : Nat) (f : Cmd → Cmd) (s : State) : (onCmd id f s).flashQueue = s.flashQueue := rfl
@[simp] theorem onCmd_flashHeld (id : Nat) (f : Cmd → Cmd) (s : State) : (onCmd id f s).flashHeld = s.flashHeld := rfl
@[simp] theorem onCmd_deviceCat (id : Nat) (f : Cmd → Cmd) (s : State) : (onCmd id f s).deviceCat = s.deviceCat := rfl
@[simp] theorem onCmd_replaying (id : Nat) (f : Cmd → Cmd) (s : State) : (onCmd id f s).replaying = s.replaying := rfl
@[simp] theorem onCmd_flashTokens (id : Nat) (f : Cmd → Cmd) (s : State) : (onCmd id f s).flashTokens = s.flashTokens := rfl
@[simp] theorem onCmd_flashFilled (id : Nat) (f : Cmd → Cmd) (s : State) : (onCmd id f s).flashFilled = s.flashFilled := rfl
@[simp] theorem onCmd_evicting (id : Nat) (f : Cmd → Cmd) (s : State) : (onCmd id f s).evicting = s.evicting := rfl
@[simp] theorem onCmd_tierWaits (id : Nat) (f : Cmd → Cmd) (s : State) : (onCmd id f s).tierWaits = s.tierWaits := rfl
@[simp] theorem onCmd_channelsFailed (id : Nat) (f : Cmd → Cmd) (s : State) : (onCmd id f s).channelsFailed = s.channelsFailed := rfl
@[simp] theorem onCmd_frames (id : Nat) (f : Cmd → Cmd) (s : State) : (onCmd id f s).frames = s.frames := rfl
@[simp] theorem onCmd_frameErrs (id : Nat) (f : Cmd → Cmd) (s : State) : (onCmd id f s).frameErrs = s.frameErrs := rfl
@[simp] theorem onCmd_leadRun (id : Nat) (f : Cmd → Cmd) (s : State) : (onCmd id f s).leadRun = s.leadRun := rfl
@[simp] theorem onCmd_tables (id : Nat) (f : Cmd → Cmd) (s : State) : (onCmd id f s).tables = s.tables := rfl
@[simp] theorem onCmd_actives (id : Nat) (f : Cmd → Cmd) (s : State) : (onCmd id f s).actives = s.actives := rfl
@[simp] theorem onCmd_pendingTables (id : Nat) (f : Cmd → Cmd) (s : State) : (onCmd id f s).pendingTables = s.pendingTables := rfl
@[simp] theorem onCmd_windows (id : Nat) (f : Cmd → Cmd) (s : State) : (onCmd id f s).windows = s.windows := rfl
@[simp] theorem onCmd_winFreed (id : Nat) (f : Cmd → Cmd) (s : State) : (onCmd id f s).winFreed = s.winFreed := rfl
@[simp] theorem onCmd_winNext (id : Nat) (f : Cmd → Cmd) (s : State) : (onCmd id f s).winNext = s.winNext := rfl
@[simp] theorem onCmd_conns (id : Nat) (f : Cmd → Cmd) (s : State) : (onCmd id f s).conns = s.conns := rfl
@[simp] theorem onCmd_reads (id : Nat) (f : Cmd → Cmd) (s : State) : (onCmd id f s).reads = s.reads := rfl
@[simp] theorem onCmd_peers (id : Nat) (f : Cmd → Cmd) (s : State) : (onCmd id f s).peers = s.peers := rfl
@[simp] theorem onCmd_ports (id : Nat) (f : Cmd → Cmd) (s : State) : (onCmd id f s).ports = s.ports := rfl
@[simp] theorem onCmd_wire (id : Nat) (f : Cmd → Cmd) (s : State) : (onCmd id f s).wire = s.wire := rfl
@[simp] theorem onCmd_svcOut (id : Nat) (f : Cmd → Cmd) (s : State) : (onCmd id f s).svcOut = s.svcOut := rfl
@[simp] theorem onCmd_cxlLines (id : Nat) (f : Cmd → Cmd) (s : State) : (onCmd id f s).cxlLines = s.cxlLines := rfl
@[simp] theorem onCmd_cxlWaiting (id : Nat) (f : Cmd → Cmd) (s : State) : (onCmd id f s).cxlWaiting = s.cxlWaiting := rfl
@[simp] theorem onCmd_ledgerPoison (id : Nat) (f : Cmd → Cmd) (s : State) : (onCmd id f s).ledgerPoison = s.ledgerPoison := rfl
@[simp] theorem onCmd_poison (id : Nat) (f : Cmd → Cmd) (s : State) : (onCmd id f s).poison = s.poison := rfl
@[simp] theorem onCmd_cxlOut (id : Nat) (f : Cmd → Cmd) (s : State) : (onCmd id f s).cxlOut = s.cxlOut := rfl
@[simp] theorem onCmd_keyArea (id : Nat) (f : Cmd → Cmd) (s : State) : (onCmd id f s).keyArea = s.keyArea := rfl
@[simp] theorem onCmd_flashKeys (id : Nat) (f : Cmd → Cmd) (s : State) : (onCmd id f s).flashKeys = s.flashKeys := rfl
@[simp] theorem onCmd_sessions (id : Nat) (f : Cmd → Cmd) (s : State) : (onCmd id f s).sessions = s.sessions := rfl
@[simp] theorem onCmd_serials (id : Nat) (f : Cmd → Cmd) (s : State) : (onCmd id f s).serials = s.serials := rfl
@[simp] theorem onCmd_releases (id : Nat) (f : Cmd → Cmd) (s : State) : (onCmd id f s).releases = s.releases := rfl
@[simp] theorem onCmd_attestWait (id : Nat) (f : Cmd → Cmd) (s : State) : (onCmd id f s).attestWait = s.attestWait := rfl
@[simp] theorem onCmd_certs (id : Nat) (f : Cmd → Cmd) (s : State) : (onCmd id f s).certs = s.certs := rfl
@[simp] theorem onCmd_xspi (id : Nat) (f : Cmd → Cmd) (s : State) : (onCmd id f s).xspi = s.xspi := rfl
@[simp] theorem onCmd_fwRunning (id : Nat) (f : Cmd → Cmd) (s : State) : (onCmd id f s).fwRunning = s.fwRunning := rfl
@[simp] theorem onCmd_rotRunning (id : Nat) (f : Cmd → Cmd) (s : State) : (onCmd id f s).rotRunning = s.rotRunning := rfl
@[simp] theorem onCmd_planImage (id : Nat) (f : Cmd → Cmd) (s : State) : (onCmd id f s).planImage = s.planImage := rfl
@[simp] theorem onCmd_live (id : Nat) (f : Cmd → Cmd) (s : State) : (onCmd id f s).live = s.live := rfl
@[simp] theorem onCmd_cores (id : Nat) (f : Cmd → Cmd) (s : State) : (onCmd id f s).cores = s.cores := rfl
@[simp] theorem onCmd_restarts (id : Nat) (f : Cmd → Cmd) (s : State) : (onCmd id f s).restarts = s.restarts := rfl
@[simp] theorem onCmd_bootedAt (id : Nat) (f : Cmd → Cmd) (s : State) : (onCmd id f s).bootedAt = s.bootedAt := rfl
@[simp] theorem onCmd_bootStep (id : Nat) (f : Cmd → Cmd) (s : State) : (onCmd id f s).bootStep = s.bootStep := rfl
@[simp] theorem onCmd_fatalAt (id : Nat) (f : Cmd → Cmd) (s : State) : (onCmd id f s).fatalAt = s.fatalAt := rfl
@[simp] theorem onCmd_stagedOk (id : Nat) (f : Cmd → Cmd) (s : State) : (onCmd id f s).stagedOk = s.stagedOk := rfl
@[simp] theorem onCmd_power (id : Nat) (f : Cmd → Cmd) (s : State) : (onCmd id f s).power = s.power := rfl
@[simp] theorem onCmd_crier (id : Nat) (f : Cmd → Cmd) (s : State) : (onCmd id f s).crier = s.crier := rfl
@[simp] theorem onCmd_traces (id : Nat) (f : Cmd → Cmd) (s : State) : (onCmd id f s).traces = s.traces := rfl

@[simp] theorem onSeq_pending (uid : Nat) (f : Machine.Seq → Machine.Seq) (s : State) : (onSeq uid f s).pending = s.pending := rfl
@[simp] theorem onSeq_localTime (uid : Nat) (f : Machine.Seq → Machine.Seq) (s : State) : (onSeq uid f s).localTime = s.localTime := rfl
@[simp] theorem onSeq_phase (uid : Nat) (f : Machine.Seq → Machine.Seq) (s : State) : (onSeq uid f s).phase = s.phase := rfl
@[simp] theorem onSeq_plan (uid : Nat) (f : Machine.Seq → Machine.Seq) (s : State) : (onSeq uid f s).plan = s.plan := rfl
@[simp] theorem onSeq_fuses (uid : Nat) (f : Machine.Seq → Machine.Seq) (s : State) : (onSeq uid f s).fuses = s.fuses := rfl
@[simp] theorem onSeq_regs (uid : Nat) (f : Machine.Seq → Machine.Seq) (s : State) : (onSeq uid f s).regs = s.regs := rfl
@[simp] theorem onSeq_raw (uid : Nat) (f : Machine.Seq → Machine.Seq) (s : State) : (onSeq uid f s).raw = s.raw := rfl
@[simp] theorem onSeq_p0Regs (uid : Nat) (f : Machine.Seq → Machine.Seq) (s : State) : (onSeq uid f s).p0Regs = s.p0Regs := rfl
@[simp] theorem onSeq_ownerKeys (uid : Nat) (f : Machine.Seq → Machine.Seq) (s : State) : (onSeq uid f s).ownerKeys = s.ownerKeys := rfl
@[simp] theorem onSeq_shodunRevoked (uid : Nat) (f : Machine.Seq → Machine.Seq) (s : State) : (onSeq uid f s).shodunRevoked = s.shodunRevoked := rfl
@[simp] theorem onSeq_romKeys (uid : Nat) (f : Machine.Seq → Machine.Seq) (s : State) : (onSeq uid f s).romKeys = s.romKeys := rfl
@[simp] theorem onSeq_fresh (uid : Nat) (f : Machine.Seq → Machine.Seq) (s : State) : (onSeq uid f s).fresh = s.fresh := rfl
@[simp] theorem onSeq_order (uid : Nat) (f : Machine.Seq → Machine.Seq) (s : State) : (onSeq uid f s).order = s.order := rfl
@[simp] theorem onSeq_dram (uid : Nat) (f : Machine.Seq → Machine.Seq) (s : State) : (onSeq uid f s).dram = s.dram := rfl
@[simp] theorem onSeq_hall (uid : Nat) (f : Machine.Seq → Machine.Seq) (s : State) : (onSeq uid f s).hall = s.hall := rfl
@[simp] theorem onSeq_hostMem (uid : Nat) (f : Machine.Seq → Machine.Seq) (s : State) : (onSeq uid f s).hostMem = s.hostMem := rfl
@[simp] theorem onSeq_rings (uid : Nat) (f : Machine.Seq → Machine.Seq) (s : State) : (onSeq uid f s).rings = s.rings := rfl
@[simp] theorem onSeq_cmds (uid : Nat) (f : Machine.Seq → Machine.Seq) (s : State) : (onSeq uid f s).cmds = s.cmds := rfl
@[simp] theorem onSeq_chits (uid : Nat) (f : Machine.Seq → Machine.Seq) (s : State) : (onSeq uid f s).chits = s.chits := rfl
@[simp] theorem onSeq_triggers (uid : Nat) (f : Machine.Seq → Machine.Seq) (s : State) : (onSeq uid f s).triggers = s.triggers := rfl
@[simp] theorem onSeq_released (uid : Nat) (f : Machine.Seq → Machine.Seq) (s : State) : (onSeq uid f s).released = s.released := rfl
@[simp] theorem onSeq_chitWork (uid : Nat) (f : Machine.Seq → Machine.Seq) (s : State) : (onSeq uid f s).chitWork = s.chitWork := rfl
@[simp] theorem onSeq_msix (uid : Nat) (f : Machine.Seq → Machine.Seq) (s : State) : (onSeq uid f s).msix = s.msix := rfl
@[simp] theorem onSeq_dmaWait (uid : Nat) (f : Machine.Seq → Machine.Seq) (s : State) : (onSeq uid f s).dmaWait = s.dmaWait := rfl
@[simp] theorem onSeq_dmaSince (uid : Nat) (f : Machine.Seq → Machine.Seq) (s : State) : (onSeq uid f s).dmaSince = s.dmaSince := rfl
@[simp] theorem onSeq_latches (uid : Nat) (f : Machine.Seq → Machine.Seq) (s : State) : (onSeq uid f s).latches = s.latches := rfl
@[simp] theorem onSeq_answers (uid : Nat) (f : Machine.Seq → Machine.Seq) (s : State) : (onSeq uid f s).answers = s.answers := rfl
@[simp] theorem onSeq_readsHeld (uid : Nat) (f : Machine.Seq → Machine.Seq) (s : State) : (onSeq uid f s).readsHeld = s.readsHeld := rfl
@[simp] theorem onSeq_sidebandOut (uid : Nat) (f : Machine.Seq → Machine.Seq) (s : State) : (onSeq uid f s).sidebandOut = s.sidebandOut := rfl
@[simp] theorem onSeq_crates (uid : Nat) (f : Machine.Seq → Machine.Seq) (s : State) : (onSeq uid f s).crates = s.crates := rfl
@[simp] theorem onSeq_seals (uid : Nat) (f : Machine.Seq → Machine.Seq) (s : State) : (onSeq uid f s).seals = s.seals := rfl
@[simp] theorem onSeq_attends (uid : Nat) (f : Machine.Seq → Machine.Seq) (s : State) : (onSeq uid f s).attends = s.attends := rfl
@[simp] theorem onSeq_forwards (uid : Nat) (f : Machine.Seq → Machine.Seq) (s : State) : (onSeq uid f s).forwards = s.forwards := rfl
@[simp] theorem onSeq_stalls (uid : Nat) (f : Machine.Seq → Machine.Seq) (s : State) : (onSeq uid f s).stalls = s.stalls := rfl
@[simp] theorem onSeq_ctxs (uid : Nat) (f : Machine.Seq → Machine.Seq) (s : State) : (onSeq uid f s).ctxs = s.ctxs := rfl
@[simp] theorem onSeq_unplaced (uid : Nat) (f : Machine.Seq → Machine.Seq) (s : State) : (onSeq uid f s).unplaced = s.unplaced := rfl
@[simp] theorem onSeq_tills (uid : Nat) (f : Machine.Seq → Machine.Seq) (s : State) : (onSeq uid f s).tills = s.tills := rfl
@[simp] theorem onSeq_slotStart (uid : Nat) (f : Machine.Seq → Machine.Seq) (s : State) : (onSeq uid f s).slotStart = s.slotStart := rfl
@[simp] theorem onSeq_ttWaiters (uid : Nat) (f : Machine.Seq → Machine.Seq) (s : State) : (onSeq uid f s).ttWaiters = s.ttWaiters := rfl
@[simp] theorem onSeq_homes (uid : Nat) (f : Machine.Seq → Machine.Seq) (s : State) : (onSeq uid f s).homes = s.homes := rfl
@[simp] theorem onSeq_replicas (uid : Nat) (f : Machine.Seq → Machine.Seq) (s : State) : (onSeq uid f s).replicas = s.replicas := rfl
@[simp] theorem onSeq_pushOwed (uid : Nat) (f : Machine.Seq → Machine.Seq) (s : State) : (onSeq uid f s).pushOwed = s.pushOwed := rfl
@[simp] theorem onSeq_pubs (uid : Nat) (f : Machine.Seq → Machine.Seq) (s : State) : (onSeq uid f s).pubs = s.pubs := rfl
@[simp] theorem onSeq_publishes (uid : Nat) (f : Machine.Seq → Machine.Seq) (s : State) : (onSeq uid f s).publishes = s.publishes := rfl
@[simp] theorem onSeq_drops (uid : Nat) (f : Machine.Seq → Machine.Seq) (s : State) : (onSeq uid f s).drops = s.drops := rfl
@[simp] theorem onSeq_results (uid : Nat) (f : Machine.Seq → Machine.Seq) (s : State) : (onSeq uid f s).results = s.results := rfl
@[simp] theorem onSeq_lookups (uid : Nat) (f : Machine.Seq → Machine.Seq) (s : State) : (onSeq uid f s).lookups = s.lookups := rfl
@[simp] theorem onSeq_holds (uid : Nat) (f : Machine.Seq → Machine.Seq) (s : State) : (onSeq uid f s).holds = s.holds := rfl
@[simp] theorem onSeq_myHolds (uid : Nat) (f : Machine.Seq → Machine.Seq) (s : State) : (onSeq uid f s).myHolds = s.myHolds := rfl
@[simp] theorem onSeq_askedHits (uid : Nat) (f : Machine.Seq → Machine.Seq) (s : State) : (onSeq uid f s).askedHits = s.askedHits := rfl
@[simp] theorem onSeq_leases (uid : Nat) (f : Machine.Seq → Machine.Seq) (s : State) : (onSeq uid f s).leases = s.leases := rfl
@[simp] theorem onSeq_zones (uid : Nat) (f : Machine.Seq → Machine.Seq) (s : State) : (onSeq uid f s).zones = s.zones := rfl
@[simp] theorem onSeq_catalogue (uid : Nat) (f : Machine.Seq → Machine.Seq) (s : State) : (onSeq uid f s).catalogue = s.catalogue := rfl
@[simp] theorem onSeq_journalRecs (uid : Nat) (f : Machine.Seq → Machine.Seq) (s : State) : (onSeq uid f s).journalRecs = s.journalRecs := rfl
@[simp] theorem onSeq_flashQueue (uid : Nat) (f : Machine.Seq → Machine.Seq) (s : State) : (onSeq uid f s).flashQueue = s.flashQueue := rfl
@[simp] theorem onSeq_flashHeld (uid : Nat) (f : Machine.Seq → Machine.Seq) (s : State) : (onSeq uid f s).flashHeld = s.flashHeld := rfl
@[simp] theorem onSeq_deviceCat (uid : Nat) (f : Machine.Seq → Machine.Seq) (s : State) : (onSeq uid f s).deviceCat = s.deviceCat := rfl
@[simp] theorem onSeq_replaying (uid : Nat) (f : Machine.Seq → Machine.Seq) (s : State) : (onSeq uid f s).replaying = s.replaying := rfl
@[simp] theorem onSeq_flashTokens (uid : Nat) (f : Machine.Seq → Machine.Seq) (s : State) : (onSeq uid f s).flashTokens = s.flashTokens := rfl
@[simp] theorem onSeq_flashFilled (uid : Nat) (f : Machine.Seq → Machine.Seq) (s : State) : (onSeq uid f s).flashFilled = s.flashFilled := rfl
@[simp] theorem onSeq_evicting (uid : Nat) (f : Machine.Seq → Machine.Seq) (s : State) : (onSeq uid f s).evicting = s.evicting := rfl
@[simp] theorem onSeq_tierWaits (uid : Nat) (f : Machine.Seq → Machine.Seq) (s : State) : (onSeq uid f s).tierWaits = s.tierWaits := rfl
@[simp] theorem onSeq_channelsFailed (uid : Nat) (f : Machine.Seq → Machine.Seq) (s : State) : (onSeq uid f s).channelsFailed = s.channelsFailed := rfl
@[simp] theorem onSeq_frames (uid : Nat) (f : Machine.Seq → Machine.Seq) (s : State) : (onSeq uid f s).frames = s.frames := rfl
@[simp] theorem onSeq_frameErrs (uid : Nat) (f : Machine.Seq → Machine.Seq) (s : State) : (onSeq uid f s).frameErrs = s.frameErrs := rfl
@[simp] theorem onSeq_leadRun (uid : Nat) (f : Machine.Seq → Machine.Seq) (s : State) : (onSeq uid f s).leadRun = s.leadRun := rfl
@[simp] theorem onSeq_tables (uid : Nat) (f : Machine.Seq → Machine.Seq) (s : State) : (onSeq uid f s).tables = s.tables := rfl
@[simp] theorem onSeq_actives (uid : Nat) (f : Machine.Seq → Machine.Seq) (s : State) : (onSeq uid f s).actives = s.actives := rfl
@[simp] theorem onSeq_pendingTables (uid : Nat) (f : Machine.Seq → Machine.Seq) (s : State) : (onSeq uid f s).pendingTables = s.pendingTables := rfl
@[simp] theorem onSeq_windows (uid : Nat) (f : Machine.Seq → Machine.Seq) (s : State) : (onSeq uid f s).windows = s.windows := rfl
@[simp] theorem onSeq_winFreed (uid : Nat) (f : Machine.Seq → Machine.Seq) (s : State) : (onSeq uid f s).winFreed = s.winFreed := rfl
@[simp] theorem onSeq_winNext (uid : Nat) (f : Machine.Seq → Machine.Seq) (s : State) : (onSeq uid f s).winNext = s.winNext := rfl
@[simp] theorem onSeq_conns (uid : Nat) (f : Machine.Seq → Machine.Seq) (s : State) : (onSeq uid f s).conns = s.conns := rfl
@[simp] theorem onSeq_reads (uid : Nat) (f : Machine.Seq → Machine.Seq) (s : State) : (onSeq uid f s).reads = s.reads := rfl
@[simp] theorem onSeq_peers (uid : Nat) (f : Machine.Seq → Machine.Seq) (s : State) : (onSeq uid f s).peers = s.peers := rfl
@[simp] theorem onSeq_ports (uid : Nat) (f : Machine.Seq → Machine.Seq) (s : State) : (onSeq uid f s).ports = s.ports := rfl
@[simp] theorem onSeq_wire (uid : Nat) (f : Machine.Seq → Machine.Seq) (s : State) : (onSeq uid f s).wire = s.wire := rfl
@[simp] theorem onSeq_svcOut (uid : Nat) (f : Machine.Seq → Machine.Seq) (s : State) : (onSeq uid f s).svcOut = s.svcOut := rfl
@[simp] theorem onSeq_cxlLines (uid : Nat) (f : Machine.Seq → Machine.Seq) (s : State) : (onSeq uid f s).cxlLines = s.cxlLines := rfl
@[simp] theorem onSeq_cxlWaiting (uid : Nat) (f : Machine.Seq → Machine.Seq) (s : State) : (onSeq uid f s).cxlWaiting = s.cxlWaiting := rfl
@[simp] theorem onSeq_ledgerPoison (uid : Nat) (f : Machine.Seq → Machine.Seq) (s : State) : (onSeq uid f s).ledgerPoison = s.ledgerPoison := rfl
@[simp] theorem onSeq_poison (uid : Nat) (f : Machine.Seq → Machine.Seq) (s : State) : (onSeq uid f s).poison = s.poison := rfl
@[simp] theorem onSeq_cxlOut (uid : Nat) (f : Machine.Seq → Machine.Seq) (s : State) : (onSeq uid f s).cxlOut = s.cxlOut := rfl
@[simp] theorem onSeq_keyArea (uid : Nat) (f : Machine.Seq → Machine.Seq) (s : State) : (onSeq uid f s).keyArea = s.keyArea := rfl
@[simp] theorem onSeq_flashKeys (uid : Nat) (f : Machine.Seq → Machine.Seq) (s : State) : (onSeq uid f s).flashKeys = s.flashKeys := rfl
@[simp] theorem onSeq_sessions (uid : Nat) (f : Machine.Seq → Machine.Seq) (s : State) : (onSeq uid f s).sessions = s.sessions := rfl
@[simp] theorem onSeq_serials (uid : Nat) (f : Machine.Seq → Machine.Seq) (s : State) : (onSeq uid f s).serials = s.serials := rfl
@[simp] theorem onSeq_releases (uid : Nat) (f : Machine.Seq → Machine.Seq) (s : State) : (onSeq uid f s).releases = s.releases := rfl
@[simp] theorem onSeq_attestWait (uid : Nat) (f : Machine.Seq → Machine.Seq) (s : State) : (onSeq uid f s).attestWait = s.attestWait := rfl
@[simp] theorem onSeq_certs (uid : Nat) (f : Machine.Seq → Machine.Seq) (s : State) : (onSeq uid f s).certs = s.certs := rfl
@[simp] theorem onSeq_xspi (uid : Nat) (f : Machine.Seq → Machine.Seq) (s : State) : (onSeq uid f s).xspi = s.xspi := rfl
@[simp] theorem onSeq_fwRunning (uid : Nat) (f : Machine.Seq → Machine.Seq) (s : State) : (onSeq uid f s).fwRunning = s.fwRunning := rfl
@[simp] theorem onSeq_rotRunning (uid : Nat) (f : Machine.Seq → Machine.Seq) (s : State) : (onSeq uid f s).rotRunning = s.rotRunning := rfl
@[simp] theorem onSeq_planImage (uid : Nat) (f : Machine.Seq → Machine.Seq) (s : State) : (onSeq uid f s).planImage = s.planImage := rfl
@[simp] theorem onSeq_live (uid : Nat) (f : Machine.Seq → Machine.Seq) (s : State) : (onSeq uid f s).live = s.live := rfl
@[simp] theorem onSeq_cores (uid : Nat) (f : Machine.Seq → Machine.Seq) (s : State) : (onSeq uid f s).cores = s.cores := rfl
@[simp] theorem onSeq_restarts (uid : Nat) (f : Machine.Seq → Machine.Seq) (s : State) : (onSeq uid f s).restarts = s.restarts := rfl
@[simp] theorem onSeq_bootedAt (uid : Nat) (f : Machine.Seq → Machine.Seq) (s : State) : (onSeq uid f s).bootedAt = s.bootedAt := rfl
@[simp] theorem onSeq_bootStep (uid : Nat) (f : Machine.Seq → Machine.Seq) (s : State) : (onSeq uid f s).bootStep = s.bootStep := rfl
@[simp] theorem onSeq_fatalAt (uid : Nat) (f : Machine.Seq → Machine.Seq) (s : State) : (onSeq uid f s).fatalAt = s.fatalAt := rfl
@[simp] theorem onSeq_stagedOk (uid : Nat) (f : Machine.Seq → Machine.Seq) (s : State) : (onSeq uid f s).stagedOk = s.stagedOk := rfl
@[simp] theorem onSeq_power (uid : Nat) (f : Machine.Seq → Machine.Seq) (s : State) : (onSeq uid f s).power = s.power := rfl
@[simp] theorem onSeq_crier (uid : Nat) (f : Machine.Seq → Machine.Seq) (s : State) : (onSeq uid f s).crier = s.crier := rfl
@[simp] theorem onSeq_traces (uid : Nat) (f : Machine.Seq → Machine.Seq) (s : State) : (onSeq uid f s).traces = s.traces := rfl

@[simp] theorem onCrate_pending (id : Nat) (f : Crate → Crate) (s : State) : (onCrate id f s).pending = s.pending := rfl
@[simp] theorem onCrate_localTime (id : Nat) (f : Crate → Crate) (s : State) : (onCrate id f s).localTime = s.localTime := rfl
@[simp] theorem onCrate_phase (id : Nat) (f : Crate → Crate) (s : State) : (onCrate id f s).phase = s.phase := rfl
@[simp] theorem onCrate_plan (id : Nat) (f : Crate → Crate) (s : State) : (onCrate id f s).plan = s.plan := rfl
@[simp] theorem onCrate_fuses (id : Nat) (f : Crate → Crate) (s : State) : (onCrate id f s).fuses = s.fuses := rfl
@[simp] theorem onCrate_regs (id : Nat) (f : Crate → Crate) (s : State) : (onCrate id f s).regs = s.regs := rfl
@[simp] theorem onCrate_raw (id : Nat) (f : Crate → Crate) (s : State) : (onCrate id f s).raw = s.raw := rfl
@[simp] theorem onCrate_p0Regs (id : Nat) (f : Crate → Crate) (s : State) : (onCrate id f s).p0Regs = s.p0Regs := rfl
@[simp] theorem onCrate_ownerKeys (id : Nat) (f : Crate → Crate) (s : State) : (onCrate id f s).ownerKeys = s.ownerKeys := rfl
@[simp] theorem onCrate_shodunRevoked (id : Nat) (f : Crate → Crate) (s : State) : (onCrate id f s).shodunRevoked = s.shodunRevoked := rfl
@[simp] theorem onCrate_romKeys (id : Nat) (f : Crate → Crate) (s : State) : (onCrate id f s).romKeys = s.romKeys := rfl
@[simp] theorem onCrate_fresh (id : Nat) (f : Crate → Crate) (s : State) : (onCrate id f s).fresh = s.fresh := rfl
@[simp] theorem onCrate_order (id : Nat) (f : Crate → Crate) (s : State) : (onCrate id f s).order = s.order := rfl
@[simp] theorem onCrate_dram (id : Nat) (f : Crate → Crate) (s : State) : (onCrate id f s).dram = s.dram := rfl
@[simp] theorem onCrate_hall (id : Nat) (f : Crate → Crate) (s : State) : (onCrate id f s).hall = s.hall := rfl
@[simp] theorem onCrate_hostMem (id : Nat) (f : Crate → Crate) (s : State) : (onCrate id f s).hostMem = s.hostMem := rfl
@[simp] theorem onCrate_rings (id : Nat) (f : Crate → Crate) (s : State) : (onCrate id f s).rings = s.rings := rfl
@[simp] theorem onCrate_cmds (id : Nat) (f : Crate → Crate) (s : State) : (onCrate id f s).cmds = s.cmds := rfl
@[simp] theorem onCrate_chits (id : Nat) (f : Crate → Crate) (s : State) : (onCrate id f s).chits = s.chits := rfl
@[simp] theorem onCrate_triggers (id : Nat) (f : Crate → Crate) (s : State) : (onCrate id f s).triggers = s.triggers := rfl
@[simp] theorem onCrate_released (id : Nat) (f : Crate → Crate) (s : State) : (onCrate id f s).released = s.released := rfl
@[simp] theorem onCrate_chitWork (id : Nat) (f : Crate → Crate) (s : State) : (onCrate id f s).chitWork = s.chitWork := rfl
@[simp] theorem onCrate_msix (id : Nat) (f : Crate → Crate) (s : State) : (onCrate id f s).msix = s.msix := rfl
@[simp] theorem onCrate_dmaWait (id : Nat) (f : Crate → Crate) (s : State) : (onCrate id f s).dmaWait = s.dmaWait := rfl
@[simp] theorem onCrate_dmaSince (id : Nat) (f : Crate → Crate) (s : State) : (onCrate id f s).dmaSince = s.dmaSince := rfl
@[simp] theorem onCrate_latches (id : Nat) (f : Crate → Crate) (s : State) : (onCrate id f s).latches = s.latches := rfl
@[simp] theorem onCrate_answers (id : Nat) (f : Crate → Crate) (s : State) : (onCrate id f s).answers = s.answers := rfl
@[simp] theorem onCrate_readsHeld (id : Nat) (f : Crate → Crate) (s : State) : (onCrate id f s).readsHeld = s.readsHeld := rfl
@[simp] theorem onCrate_sidebandOut (id : Nat) (f : Crate → Crate) (s : State) : (onCrate id f s).sidebandOut = s.sidebandOut := rfl
@[simp] theorem onCrate_seqs (id : Nat) (f : Crate → Crate) (s : State) : (onCrate id f s).seqs = s.seqs := rfl
@[simp] theorem onCrate_seals (id : Nat) (f : Crate → Crate) (s : State) : (onCrate id f s).seals = s.seals := rfl
@[simp] theorem onCrate_attends (id : Nat) (f : Crate → Crate) (s : State) : (onCrate id f s).attends = s.attends := rfl
@[simp] theorem onCrate_forwards (id : Nat) (f : Crate → Crate) (s : State) : (onCrate id f s).forwards = s.forwards := rfl
@[simp] theorem onCrate_stalls (id : Nat) (f : Crate → Crate) (s : State) : (onCrate id f s).stalls = s.stalls := rfl
@[simp] theorem onCrate_ctxs (id : Nat) (f : Crate → Crate) (s : State) : (onCrate id f s).ctxs = s.ctxs := rfl
@[simp] theorem onCrate_unplaced (id : Nat) (f : Crate → Crate) (s : State) : (onCrate id f s).unplaced = s.unplaced := rfl
@[simp] theorem onCrate_tills (id : Nat) (f : Crate → Crate) (s : State) : (onCrate id f s).tills = s.tills := rfl
@[simp] theorem onCrate_slotStart (id : Nat) (f : Crate → Crate) (s : State) : (onCrate id f s).slotStart = s.slotStart := rfl
@[simp] theorem onCrate_ttWaiters (id : Nat) (f : Crate → Crate) (s : State) : (onCrate id f s).ttWaiters = s.ttWaiters := rfl
@[simp] theorem onCrate_homes (id : Nat) (f : Crate → Crate) (s : State) : (onCrate id f s).homes = s.homes := rfl
@[simp] theorem onCrate_replicas (id : Nat) (f : Crate → Crate) (s : State) : (onCrate id f s).replicas = s.replicas := rfl
@[simp] theorem onCrate_pushOwed (id : Nat) (f : Crate → Crate) (s : State) : (onCrate id f s).pushOwed = s.pushOwed := rfl
@[simp] theorem onCrate_pubs (id : Nat) (f : Crate → Crate) (s : State) : (onCrate id f s).pubs = s.pubs := rfl
@[simp] theorem onCrate_publishes (id : Nat) (f : Crate → Crate) (s : State) : (onCrate id f s).publishes = s.publishes := rfl
@[simp] theorem onCrate_drops (id : Nat) (f : Crate → Crate) (s : State) : (onCrate id f s).drops = s.drops := rfl
@[simp] theorem onCrate_results (id : Nat) (f : Crate → Crate) (s : State) : (onCrate id f s).results = s.results := rfl
@[simp] theorem onCrate_lookups (id : Nat) (f : Crate → Crate) (s : State) : (onCrate id f s).lookups = s.lookups := rfl
@[simp] theorem onCrate_holds (id : Nat) (f : Crate → Crate) (s : State) : (onCrate id f s).holds = s.holds := rfl
@[simp] theorem onCrate_myHolds (id : Nat) (f : Crate → Crate) (s : State) : (onCrate id f s).myHolds = s.myHolds := rfl
@[simp] theorem onCrate_askedHits (id : Nat) (f : Crate → Crate) (s : State) : (onCrate id f s).askedHits = s.askedHits := rfl
@[simp] theorem onCrate_leases (id : Nat) (f : Crate → Crate) (s : State) : (onCrate id f s).leases = s.leases := rfl
@[simp] theorem onCrate_zones (id : Nat) (f : Crate → Crate) (s : State) : (onCrate id f s).zones = s.zones := rfl
@[simp] theorem onCrate_catalogue (id : Nat) (f : Crate → Crate) (s : State) : (onCrate id f s).catalogue = s.catalogue := rfl
@[simp] theorem onCrate_journalRecs (id : Nat) (f : Crate → Crate) (s : State) : (onCrate id f s).journalRecs = s.journalRecs := rfl
@[simp] theorem onCrate_flashQueue (id : Nat) (f : Crate → Crate) (s : State) : (onCrate id f s).flashQueue = s.flashQueue := rfl
@[simp] theorem onCrate_flashHeld (id : Nat) (f : Crate → Crate) (s : State) : (onCrate id f s).flashHeld = s.flashHeld := rfl
@[simp] theorem onCrate_deviceCat (id : Nat) (f : Crate → Crate) (s : State) : (onCrate id f s).deviceCat = s.deviceCat := rfl
@[simp] theorem onCrate_replaying (id : Nat) (f : Crate → Crate) (s : State) : (onCrate id f s).replaying = s.replaying := rfl
@[simp] theorem onCrate_flashTokens (id : Nat) (f : Crate → Crate) (s : State) : (onCrate id f s).flashTokens = s.flashTokens := rfl
@[simp] theorem onCrate_flashFilled (id : Nat) (f : Crate → Crate) (s : State) : (onCrate id f s).flashFilled = s.flashFilled := rfl
@[simp] theorem onCrate_evicting (id : Nat) (f : Crate → Crate) (s : State) : (onCrate id f s).evicting = s.evicting := rfl
@[simp] theorem onCrate_tierWaits (id : Nat) (f : Crate → Crate) (s : State) : (onCrate id f s).tierWaits = s.tierWaits := rfl
@[simp] theorem onCrate_channelsFailed (id : Nat) (f : Crate → Crate) (s : State) : (onCrate id f s).channelsFailed = s.channelsFailed := rfl
@[simp] theorem onCrate_frames (id : Nat) (f : Crate → Crate) (s : State) : (onCrate id f s).frames = s.frames := rfl
@[simp] theorem onCrate_frameErrs (id : Nat) (f : Crate → Crate) (s : State) : (onCrate id f s).frameErrs = s.frameErrs := rfl
@[simp] theorem onCrate_leadRun (id : Nat) (f : Crate → Crate) (s : State) : (onCrate id f s).leadRun = s.leadRun := rfl
@[simp] theorem onCrate_tables (id : Nat) (f : Crate → Crate) (s : State) : (onCrate id f s).tables = s.tables := rfl
@[simp] theorem onCrate_actives (id : Nat) (f : Crate → Crate) (s : State) : (onCrate id f s).actives = s.actives := rfl
@[simp] theorem onCrate_pendingTables (id : Nat) (f : Crate → Crate) (s : State) : (onCrate id f s).pendingTables = s.pendingTables := rfl
@[simp] theorem onCrate_windows (id : Nat) (f : Crate → Crate) (s : State) : (onCrate id f s).windows = s.windows := rfl
@[simp] theorem onCrate_winFreed (id : Nat) (f : Crate → Crate) (s : State) : (onCrate id f s).winFreed = s.winFreed := rfl
@[simp] theorem onCrate_winNext (id : Nat) (f : Crate → Crate) (s : State) : (onCrate id f s).winNext = s.winNext := rfl
@[simp] theorem onCrate_conns (id : Nat) (f : Crate → Crate) (s : State) : (onCrate id f s).conns = s.conns := rfl
@[simp] theorem onCrate_reads (id : Nat) (f : Crate → Crate) (s : State) : (onCrate id f s).reads = s.reads := rfl
@[simp] theorem onCrate_peers (id : Nat) (f : Crate → Crate) (s : State) : (onCrate id f s).peers = s.peers := rfl
@[simp] theorem onCrate_ports (id : Nat) (f : Crate → Crate) (s : State) : (onCrate id f s).ports = s.ports := rfl
@[simp] theorem onCrate_wire (id : Nat) (f : Crate → Crate) (s : State) : (onCrate id f s).wire = s.wire := rfl
@[simp] theorem onCrate_svcOut (id : Nat) (f : Crate → Crate) (s : State) : (onCrate id f s).svcOut = s.svcOut := rfl
@[simp] theorem onCrate_cxlLines (id : Nat) (f : Crate → Crate) (s : State) : (onCrate id f s).cxlLines = s.cxlLines := rfl
@[simp] theorem onCrate_cxlWaiting (id : Nat) (f : Crate → Crate) (s : State) : (onCrate id f s).cxlWaiting = s.cxlWaiting := rfl
@[simp] theorem onCrate_ledgerPoison (id : Nat) (f : Crate → Crate) (s : State) : (onCrate id f s).ledgerPoison = s.ledgerPoison := rfl
@[simp] theorem onCrate_poison (id : Nat) (f : Crate → Crate) (s : State) : (onCrate id f s).poison = s.poison := rfl
@[simp] theorem onCrate_cxlOut (id : Nat) (f : Crate → Crate) (s : State) : (onCrate id f s).cxlOut = s.cxlOut := rfl
@[simp] theorem onCrate_keyArea (id : Nat) (f : Crate → Crate) (s : State) : (onCrate id f s).keyArea = s.keyArea := rfl
@[simp] theorem onCrate_flashKeys (id : Nat) (f : Crate → Crate) (s : State) : (onCrate id f s).flashKeys = s.flashKeys := rfl
@[simp] theorem onCrate_sessions (id : Nat) (f : Crate → Crate) (s : State) : (onCrate id f s).sessions = s.sessions := rfl
@[simp] theorem onCrate_serials (id : Nat) (f : Crate → Crate) (s : State) : (onCrate id f s).serials = s.serials := rfl
@[simp] theorem onCrate_releases (id : Nat) (f : Crate → Crate) (s : State) : (onCrate id f s).releases = s.releases := rfl
@[simp] theorem onCrate_attestWait (id : Nat) (f : Crate → Crate) (s : State) : (onCrate id f s).attestWait = s.attestWait := rfl
@[simp] theorem onCrate_certs (id : Nat) (f : Crate → Crate) (s : State) : (onCrate id f s).certs = s.certs := rfl
@[simp] theorem onCrate_xspi (id : Nat) (f : Crate → Crate) (s : State) : (onCrate id f s).xspi = s.xspi := rfl
@[simp] theorem onCrate_fwRunning (id : Nat) (f : Crate → Crate) (s : State) : (onCrate id f s).fwRunning = s.fwRunning := rfl
@[simp] theorem onCrate_rotRunning (id : Nat) (f : Crate → Crate) (s : State) : (onCrate id f s).rotRunning = s.rotRunning := rfl
@[simp] theorem onCrate_planImage (id : Nat) (f : Crate → Crate) (s : State) : (onCrate id f s).planImage = s.planImage := rfl
@[simp] theorem onCrate_live (id : Nat) (f : Crate → Crate) (s : State) : (onCrate id f s).live = s.live := rfl
@[simp] theorem onCrate_cores (id : Nat) (f : Crate → Crate) (s : State) : (onCrate id f s).cores = s.cores := rfl
@[simp] theorem onCrate_restarts (id : Nat) (f : Crate → Crate) (s : State) : (onCrate id f s).restarts = s.restarts := rfl
@[simp] theorem onCrate_bootedAt (id : Nat) (f : Crate → Crate) (s : State) : (onCrate id f s).bootedAt = s.bootedAt := rfl
@[simp] theorem onCrate_bootStep (id : Nat) (f : Crate → Crate) (s : State) : (onCrate id f s).bootStep = s.bootStep := rfl
@[simp] theorem onCrate_fatalAt (id : Nat) (f : Crate → Crate) (s : State) : (onCrate id f s).fatalAt = s.fatalAt := rfl
@[simp] theorem onCrate_stagedOk (id : Nat) (f : Crate → Crate) (s : State) : (onCrate id f s).stagedOk = s.stagedOk := rfl
@[simp] theorem onCrate_power (id : Nat) (f : Crate → Crate) (s : State) : (onCrate id f s).power = s.power := rfl
@[simp] theorem onCrate_crier (id : Nat) (f : Crate → Crate) (s : State) : (onCrate id f s).crier = s.crier := rfl
@[simp] theorem onCrate_traces (id : Nat) (f : Crate → Crate) (s : State) : (onCrate id f s).traces = s.traces := rfl

@[simp] theorem putRing_pending (x : Ring) (s : State) : (putRing x s).pending = s.pending := rfl
@[simp] theorem putRing_localTime (x : Ring) (s : State) : (putRing x s).localTime = s.localTime := rfl
@[simp] theorem putRing_phase (x : Ring) (s : State) : (putRing x s).phase = s.phase := rfl
@[simp] theorem putRing_plan (x : Ring) (s : State) : (putRing x s).plan = s.plan := rfl
@[simp] theorem putRing_fuses (x : Ring) (s : State) : (putRing x s).fuses = s.fuses := rfl
@[simp] theorem putRing_regs (x : Ring) (s : State) : (putRing x s).regs = s.regs := rfl
@[simp] theorem putRing_raw (x : Ring) (s : State) : (putRing x s).raw = s.raw := rfl
@[simp] theorem putRing_p0Regs (x : Ring) (s : State) : (putRing x s).p0Regs = s.p0Regs := rfl
@[simp] theorem putRing_ownerKeys (x : Ring) (s : State) : (putRing x s).ownerKeys = s.ownerKeys := rfl
@[simp] theorem putRing_shodunRevoked (x : Ring) (s : State) : (putRing x s).shodunRevoked = s.shodunRevoked := rfl
@[simp] theorem putRing_romKeys (x : Ring) (s : State) : (putRing x s).romKeys = s.romKeys := rfl
@[simp] theorem putRing_fresh (x : Ring) (s : State) : (putRing x s).fresh = s.fresh := rfl
@[simp] theorem putRing_order (x : Ring) (s : State) : (putRing x s).order = s.order := rfl
@[simp] theorem putRing_dram (x : Ring) (s : State) : (putRing x s).dram = s.dram := rfl
@[simp] theorem putRing_hall (x : Ring) (s : State) : (putRing x s).hall = s.hall := rfl
@[simp] theorem putRing_hostMem (x : Ring) (s : State) : (putRing x s).hostMem = s.hostMem := rfl
@[simp] theorem putRing_cmds (x : Ring) (s : State) : (putRing x s).cmds = s.cmds := rfl
@[simp] theorem putRing_chits (x : Ring) (s : State) : (putRing x s).chits = s.chits := rfl
@[simp] theorem putRing_triggers (x : Ring) (s : State) : (putRing x s).triggers = s.triggers := rfl
@[simp] theorem putRing_released (x : Ring) (s : State) : (putRing x s).released = s.released := rfl
@[simp] theorem putRing_chitWork (x : Ring) (s : State) : (putRing x s).chitWork = s.chitWork := rfl
@[simp] theorem putRing_msix (x : Ring) (s : State) : (putRing x s).msix = s.msix := rfl
@[simp] theorem putRing_dmaWait (x : Ring) (s : State) : (putRing x s).dmaWait = s.dmaWait := rfl
@[simp] theorem putRing_dmaSince (x : Ring) (s : State) : (putRing x s).dmaSince = s.dmaSince := rfl
@[simp] theorem putRing_latches (x : Ring) (s : State) : (putRing x s).latches = s.latches := rfl
@[simp] theorem putRing_answers (x : Ring) (s : State) : (putRing x s).answers = s.answers := rfl
@[simp] theorem putRing_readsHeld (x : Ring) (s : State) : (putRing x s).readsHeld = s.readsHeld := rfl
@[simp] theorem putRing_sidebandOut (x : Ring) (s : State) : (putRing x s).sidebandOut = s.sidebandOut := rfl
@[simp] theorem putRing_seqs (x : Ring) (s : State) : (putRing x s).seqs = s.seqs := rfl
@[simp] theorem putRing_crates (x : Ring) (s : State) : (putRing x s).crates = s.crates := rfl
@[simp] theorem putRing_seals (x : Ring) (s : State) : (putRing x s).seals = s.seals := rfl
@[simp] theorem putRing_attends (x : Ring) (s : State) : (putRing x s).attends = s.attends := rfl
@[simp] theorem putRing_forwards (x : Ring) (s : State) : (putRing x s).forwards = s.forwards := rfl
@[simp] theorem putRing_stalls (x : Ring) (s : State) : (putRing x s).stalls = s.stalls := rfl
@[simp] theorem putRing_ctxs (x : Ring) (s : State) : (putRing x s).ctxs = s.ctxs := rfl
@[simp] theorem putRing_unplaced (x : Ring) (s : State) : (putRing x s).unplaced = s.unplaced := rfl
@[simp] theorem putRing_tills (x : Ring) (s : State) : (putRing x s).tills = s.tills := rfl
@[simp] theorem putRing_slotStart (x : Ring) (s : State) : (putRing x s).slotStart = s.slotStart := rfl
@[simp] theorem putRing_ttWaiters (x : Ring) (s : State) : (putRing x s).ttWaiters = s.ttWaiters := rfl
@[simp] theorem putRing_homes (x : Ring) (s : State) : (putRing x s).homes = s.homes := rfl
@[simp] theorem putRing_replicas (x : Ring) (s : State) : (putRing x s).replicas = s.replicas := rfl
@[simp] theorem putRing_pushOwed (x : Ring) (s : State) : (putRing x s).pushOwed = s.pushOwed := rfl
@[simp] theorem putRing_pubs (x : Ring) (s : State) : (putRing x s).pubs = s.pubs := rfl
@[simp] theorem putRing_publishes (x : Ring) (s : State) : (putRing x s).publishes = s.publishes := rfl
@[simp] theorem putRing_drops (x : Ring) (s : State) : (putRing x s).drops = s.drops := rfl
@[simp] theorem putRing_results (x : Ring) (s : State) : (putRing x s).results = s.results := rfl
@[simp] theorem putRing_lookups (x : Ring) (s : State) : (putRing x s).lookups = s.lookups := rfl
@[simp] theorem putRing_holds (x : Ring) (s : State) : (putRing x s).holds = s.holds := rfl
@[simp] theorem putRing_myHolds (x : Ring) (s : State) : (putRing x s).myHolds = s.myHolds := rfl
@[simp] theorem putRing_askedHits (x : Ring) (s : State) : (putRing x s).askedHits = s.askedHits := rfl
@[simp] theorem putRing_leases (x : Ring) (s : State) : (putRing x s).leases = s.leases := rfl
@[simp] theorem putRing_zones (x : Ring) (s : State) : (putRing x s).zones = s.zones := rfl
@[simp] theorem putRing_catalogue (x : Ring) (s : State) : (putRing x s).catalogue = s.catalogue := rfl
@[simp] theorem putRing_journalRecs (x : Ring) (s : State) : (putRing x s).journalRecs = s.journalRecs := rfl
@[simp] theorem putRing_flashQueue (x : Ring) (s : State) : (putRing x s).flashQueue = s.flashQueue := rfl
@[simp] theorem putRing_flashHeld (x : Ring) (s : State) : (putRing x s).flashHeld = s.flashHeld := rfl
@[simp] theorem putRing_deviceCat (x : Ring) (s : State) : (putRing x s).deviceCat = s.deviceCat := rfl
@[simp] theorem putRing_replaying (x : Ring) (s : State) : (putRing x s).replaying = s.replaying := rfl
@[simp] theorem putRing_flashTokens (x : Ring) (s : State) : (putRing x s).flashTokens = s.flashTokens := rfl
@[simp] theorem putRing_flashFilled (x : Ring) (s : State) : (putRing x s).flashFilled = s.flashFilled := rfl
@[simp] theorem putRing_evicting (x : Ring) (s : State) : (putRing x s).evicting = s.evicting := rfl
@[simp] theorem putRing_tierWaits (x : Ring) (s : State) : (putRing x s).tierWaits = s.tierWaits := rfl
@[simp] theorem putRing_channelsFailed (x : Ring) (s : State) : (putRing x s).channelsFailed = s.channelsFailed := rfl
@[simp] theorem putRing_frames (x : Ring) (s : State) : (putRing x s).frames = s.frames := rfl
@[simp] theorem putRing_frameErrs (x : Ring) (s : State) : (putRing x s).frameErrs = s.frameErrs := rfl
@[simp] theorem putRing_leadRun (x : Ring) (s : State) : (putRing x s).leadRun = s.leadRun := rfl
@[simp] theorem putRing_tables (x : Ring) (s : State) : (putRing x s).tables = s.tables := rfl
@[simp] theorem putRing_actives (x : Ring) (s : State) : (putRing x s).actives = s.actives := rfl
@[simp] theorem putRing_pendingTables (x : Ring) (s : State) : (putRing x s).pendingTables = s.pendingTables := rfl
@[simp] theorem putRing_windows (x : Ring) (s : State) : (putRing x s).windows = s.windows := rfl
@[simp] theorem putRing_winFreed (x : Ring) (s : State) : (putRing x s).winFreed = s.winFreed := rfl
@[simp] theorem putRing_winNext (x : Ring) (s : State) : (putRing x s).winNext = s.winNext := rfl
@[simp] theorem putRing_conns (x : Ring) (s : State) : (putRing x s).conns = s.conns := rfl
@[simp] theorem putRing_reads (x : Ring) (s : State) : (putRing x s).reads = s.reads := rfl
@[simp] theorem putRing_peers (x : Ring) (s : State) : (putRing x s).peers = s.peers := rfl
@[simp] theorem putRing_ports (x : Ring) (s : State) : (putRing x s).ports = s.ports := rfl
@[simp] theorem putRing_wire (x : Ring) (s : State) : (putRing x s).wire = s.wire := rfl
@[simp] theorem putRing_svcOut (x : Ring) (s : State) : (putRing x s).svcOut = s.svcOut := rfl
@[simp] theorem putRing_cxlLines (x : Ring) (s : State) : (putRing x s).cxlLines = s.cxlLines := rfl
@[simp] theorem putRing_cxlWaiting (x : Ring) (s : State) : (putRing x s).cxlWaiting = s.cxlWaiting := rfl
@[simp] theorem putRing_ledgerPoison (x : Ring) (s : State) : (putRing x s).ledgerPoison = s.ledgerPoison := rfl
@[simp] theorem putRing_poison (x : Ring) (s : State) : (putRing x s).poison = s.poison := rfl
@[simp] theorem putRing_cxlOut (x : Ring) (s : State) : (putRing x s).cxlOut = s.cxlOut := rfl
@[simp] theorem putRing_keyArea (x : Ring) (s : State) : (putRing x s).keyArea = s.keyArea := rfl
@[simp] theorem putRing_flashKeys (x : Ring) (s : State) : (putRing x s).flashKeys = s.flashKeys := rfl
@[simp] theorem putRing_sessions (x : Ring) (s : State) : (putRing x s).sessions = s.sessions := rfl
@[simp] theorem putRing_serials (x : Ring) (s : State) : (putRing x s).serials = s.serials := rfl
@[simp] theorem putRing_releases (x : Ring) (s : State) : (putRing x s).releases = s.releases := rfl
@[simp] theorem putRing_attestWait (x : Ring) (s : State) : (putRing x s).attestWait = s.attestWait := rfl
@[simp] theorem putRing_certs (x : Ring) (s : State) : (putRing x s).certs = s.certs := rfl
@[simp] theorem putRing_xspi (x : Ring) (s : State) : (putRing x s).xspi = s.xspi := rfl
@[simp] theorem putRing_fwRunning (x : Ring) (s : State) : (putRing x s).fwRunning = s.fwRunning := rfl
@[simp] theorem putRing_rotRunning (x : Ring) (s : State) : (putRing x s).rotRunning = s.rotRunning := rfl
@[simp] theorem putRing_planImage (x : Ring) (s : State) : (putRing x s).planImage = s.planImage := rfl
@[simp] theorem putRing_live (x : Ring) (s : State) : (putRing x s).live = s.live := rfl
@[simp] theorem putRing_cores (x : Ring) (s : State) : (putRing x s).cores = s.cores := rfl
@[simp] theorem putRing_restarts (x : Ring) (s : State) : (putRing x s).restarts = s.restarts := rfl
@[simp] theorem putRing_bootedAt (x : Ring) (s : State) : (putRing x s).bootedAt = s.bootedAt := rfl
@[simp] theorem putRing_bootStep (x : Ring) (s : State) : (putRing x s).bootStep = s.bootStep := rfl
@[simp] theorem putRing_fatalAt (x : Ring) (s : State) : (putRing x s).fatalAt = s.fatalAt := rfl
@[simp] theorem putRing_stagedOk (x : Ring) (s : State) : (putRing x s).stagedOk = s.stagedOk := rfl
@[simp] theorem putRing_power (x : Ring) (s : State) : (putRing x s).power = s.power := rfl
@[simp] theorem putRing_crier (x : Ring) (s : State) : (putRing x s).crier = s.crier := rfl
@[simp] theorem putRing_traces (x : Ring) (s : State) : (putRing x s).traces = s.traces := rfl

@[simp] theorem onStall_pending (k : Nat) (f : Stall → Stall) (s : State) : (onStall k f s).pending = s.pending := rfl
@[simp] theorem onStall_localTime (k : Nat) (f : Stall → Stall) (s : State) : (onStall k f s).localTime = s.localTime := rfl
@[simp] theorem onStall_phase (k : Nat) (f : Stall → Stall) (s : State) : (onStall k f s).phase = s.phase := rfl
@[simp] theorem onStall_plan (k : Nat) (f : Stall → Stall) (s : State) : (onStall k f s).plan = s.plan := rfl
@[simp] theorem onStall_fuses (k : Nat) (f : Stall → Stall) (s : State) : (onStall k f s).fuses = s.fuses := rfl
@[simp] theorem onStall_regs (k : Nat) (f : Stall → Stall) (s : State) : (onStall k f s).regs = s.regs := rfl
@[simp] theorem onStall_raw (k : Nat) (f : Stall → Stall) (s : State) : (onStall k f s).raw = s.raw := rfl
@[simp] theorem onStall_p0Regs (k : Nat) (f : Stall → Stall) (s : State) : (onStall k f s).p0Regs = s.p0Regs := rfl
@[simp] theorem onStall_ownerKeys (k : Nat) (f : Stall → Stall) (s : State) : (onStall k f s).ownerKeys = s.ownerKeys := rfl
@[simp] theorem onStall_shodunRevoked (k : Nat) (f : Stall → Stall) (s : State) : (onStall k f s).shodunRevoked = s.shodunRevoked := rfl
@[simp] theorem onStall_romKeys (k : Nat) (f : Stall → Stall) (s : State) : (onStall k f s).romKeys = s.romKeys := rfl
@[simp] theorem onStall_fresh (k : Nat) (f : Stall → Stall) (s : State) : (onStall k f s).fresh = s.fresh := rfl
@[simp] theorem onStall_order (k : Nat) (f : Stall → Stall) (s : State) : (onStall k f s).order = s.order := rfl
@[simp] theorem onStall_dram (k : Nat) (f : Stall → Stall) (s : State) : (onStall k f s).dram = s.dram := rfl
@[simp] theorem onStall_hall (k : Nat) (f : Stall → Stall) (s : State) : (onStall k f s).hall = s.hall := rfl
@[simp] theorem onStall_hostMem (k : Nat) (f : Stall → Stall) (s : State) : (onStall k f s).hostMem = s.hostMem := rfl
@[simp] theorem onStall_rings (k : Nat) (f : Stall → Stall) (s : State) : (onStall k f s).rings = s.rings := rfl
@[simp] theorem onStall_cmds (k : Nat) (f : Stall → Stall) (s : State) : (onStall k f s).cmds = s.cmds := rfl
@[simp] theorem onStall_chits (k : Nat) (f : Stall → Stall) (s : State) : (onStall k f s).chits = s.chits := rfl
@[simp] theorem onStall_triggers (k : Nat) (f : Stall → Stall) (s : State) : (onStall k f s).triggers = s.triggers := rfl
@[simp] theorem onStall_released (k : Nat) (f : Stall → Stall) (s : State) : (onStall k f s).released = s.released := rfl
@[simp] theorem onStall_chitWork (k : Nat) (f : Stall → Stall) (s : State) : (onStall k f s).chitWork = s.chitWork := rfl
@[simp] theorem onStall_msix (k : Nat) (f : Stall → Stall) (s : State) : (onStall k f s).msix = s.msix := rfl
@[simp] theorem onStall_dmaWait (k : Nat) (f : Stall → Stall) (s : State) : (onStall k f s).dmaWait = s.dmaWait := rfl
@[simp] theorem onStall_dmaSince (k : Nat) (f : Stall → Stall) (s : State) : (onStall k f s).dmaSince = s.dmaSince := rfl
@[simp] theorem onStall_latches (k : Nat) (f : Stall → Stall) (s : State) : (onStall k f s).latches = s.latches := rfl
@[simp] theorem onStall_answers (k : Nat) (f : Stall → Stall) (s : State) : (onStall k f s).answers = s.answers := rfl
@[simp] theorem onStall_readsHeld (k : Nat) (f : Stall → Stall) (s : State) : (onStall k f s).readsHeld = s.readsHeld := rfl
@[simp] theorem onStall_sidebandOut (k : Nat) (f : Stall → Stall) (s : State) : (onStall k f s).sidebandOut = s.sidebandOut := rfl
@[simp] theorem onStall_seqs (k : Nat) (f : Stall → Stall) (s : State) : (onStall k f s).seqs = s.seqs := rfl
@[simp] theorem onStall_crates (k : Nat) (f : Stall → Stall) (s : State) : (onStall k f s).crates = s.crates := rfl
@[simp] theorem onStall_seals (k : Nat) (f : Stall → Stall) (s : State) : (onStall k f s).seals = s.seals := rfl
@[simp] theorem onStall_attends (k : Nat) (f : Stall → Stall) (s : State) : (onStall k f s).attends = s.attends := rfl
@[simp] theorem onStall_forwards (k : Nat) (f : Stall → Stall) (s : State) : (onStall k f s).forwards = s.forwards := rfl
@[simp] theorem onStall_ctxs (k : Nat) (f : Stall → Stall) (s : State) : (onStall k f s).ctxs = s.ctxs := rfl
@[simp] theorem onStall_unplaced (k : Nat) (f : Stall → Stall) (s : State) : (onStall k f s).unplaced = s.unplaced := rfl
@[simp] theorem onStall_tills (k : Nat) (f : Stall → Stall) (s : State) : (onStall k f s).tills = s.tills := rfl
@[simp] theorem onStall_slotStart (k : Nat) (f : Stall → Stall) (s : State) : (onStall k f s).slotStart = s.slotStart := rfl
@[simp] theorem onStall_ttWaiters (k : Nat) (f : Stall → Stall) (s : State) : (onStall k f s).ttWaiters = s.ttWaiters := rfl
@[simp] theorem onStall_homes (k : Nat) (f : Stall → Stall) (s : State) : (onStall k f s).homes = s.homes := rfl
@[simp] theorem onStall_replicas (k : Nat) (f : Stall → Stall) (s : State) : (onStall k f s).replicas = s.replicas := rfl
@[simp] theorem onStall_pushOwed (k : Nat) (f : Stall → Stall) (s : State) : (onStall k f s).pushOwed = s.pushOwed := rfl
@[simp] theorem onStall_pubs (k : Nat) (f : Stall → Stall) (s : State) : (onStall k f s).pubs = s.pubs := rfl
@[simp] theorem onStall_publishes (k : Nat) (f : Stall → Stall) (s : State) : (onStall k f s).publishes = s.publishes := rfl
@[simp] theorem onStall_drops (k : Nat) (f : Stall → Stall) (s : State) : (onStall k f s).drops = s.drops := rfl
@[simp] theorem onStall_results (k : Nat) (f : Stall → Stall) (s : State) : (onStall k f s).results = s.results := rfl
@[simp] theorem onStall_lookups (k : Nat) (f : Stall → Stall) (s : State) : (onStall k f s).lookups = s.lookups := rfl
@[simp] theorem onStall_holds (k : Nat) (f : Stall → Stall) (s : State) : (onStall k f s).holds = s.holds := rfl
@[simp] theorem onStall_myHolds (k : Nat) (f : Stall → Stall) (s : State) : (onStall k f s).myHolds = s.myHolds := rfl
@[simp] theorem onStall_askedHits (k : Nat) (f : Stall → Stall) (s : State) : (onStall k f s).askedHits = s.askedHits := rfl
@[simp] theorem onStall_leases (k : Nat) (f : Stall → Stall) (s : State) : (onStall k f s).leases = s.leases := rfl
@[simp] theorem onStall_zones (k : Nat) (f : Stall → Stall) (s : State) : (onStall k f s).zones = s.zones := rfl
@[simp] theorem onStall_catalogue (k : Nat) (f : Stall → Stall) (s : State) : (onStall k f s).catalogue = s.catalogue := rfl
@[simp] theorem onStall_journalRecs (k : Nat) (f : Stall → Stall) (s : State) : (onStall k f s).journalRecs = s.journalRecs := rfl
@[simp] theorem onStall_flashQueue (k : Nat) (f : Stall → Stall) (s : State) : (onStall k f s).flashQueue = s.flashQueue := rfl
@[simp] theorem onStall_flashHeld (k : Nat) (f : Stall → Stall) (s : State) : (onStall k f s).flashHeld = s.flashHeld := rfl
@[simp] theorem onStall_deviceCat (k : Nat) (f : Stall → Stall) (s : State) : (onStall k f s).deviceCat = s.deviceCat := rfl
@[simp] theorem onStall_replaying (k : Nat) (f : Stall → Stall) (s : State) : (onStall k f s).replaying = s.replaying := rfl
@[simp] theorem onStall_flashTokens (k : Nat) (f : Stall → Stall) (s : State) : (onStall k f s).flashTokens = s.flashTokens := rfl
@[simp] theorem onStall_flashFilled (k : Nat) (f : Stall → Stall) (s : State) : (onStall k f s).flashFilled = s.flashFilled := rfl
@[simp] theorem onStall_evicting (k : Nat) (f : Stall → Stall) (s : State) : (onStall k f s).evicting = s.evicting := rfl
@[simp] theorem onStall_tierWaits (k : Nat) (f : Stall → Stall) (s : State) : (onStall k f s).tierWaits = s.tierWaits := rfl
@[simp] theorem onStall_channelsFailed (k : Nat) (f : Stall → Stall) (s : State) : (onStall k f s).channelsFailed = s.channelsFailed := rfl
@[simp] theorem onStall_frames (k : Nat) (f : Stall → Stall) (s : State) : (onStall k f s).frames = s.frames := rfl
@[simp] theorem onStall_frameErrs (k : Nat) (f : Stall → Stall) (s : State) : (onStall k f s).frameErrs = s.frameErrs := rfl
@[simp] theorem onStall_leadRun (k : Nat) (f : Stall → Stall) (s : State) : (onStall k f s).leadRun = s.leadRun := rfl
@[simp] theorem onStall_tables (k : Nat) (f : Stall → Stall) (s : State) : (onStall k f s).tables = s.tables := rfl
@[simp] theorem onStall_actives (k : Nat) (f : Stall → Stall) (s : State) : (onStall k f s).actives = s.actives := rfl
@[simp] theorem onStall_pendingTables (k : Nat) (f : Stall → Stall) (s : State) : (onStall k f s).pendingTables = s.pendingTables := rfl
@[simp] theorem onStall_windows (k : Nat) (f : Stall → Stall) (s : State) : (onStall k f s).windows = s.windows := rfl
@[simp] theorem onStall_winFreed (k : Nat) (f : Stall → Stall) (s : State) : (onStall k f s).winFreed = s.winFreed := rfl
@[simp] theorem onStall_winNext (k : Nat) (f : Stall → Stall) (s : State) : (onStall k f s).winNext = s.winNext := rfl
@[simp] theorem onStall_conns (k : Nat) (f : Stall → Stall) (s : State) : (onStall k f s).conns = s.conns := rfl
@[simp] theorem onStall_reads (k : Nat) (f : Stall → Stall) (s : State) : (onStall k f s).reads = s.reads := rfl
@[simp] theorem onStall_peers (k : Nat) (f : Stall → Stall) (s : State) : (onStall k f s).peers = s.peers := rfl
@[simp] theorem onStall_ports (k : Nat) (f : Stall → Stall) (s : State) : (onStall k f s).ports = s.ports := rfl
@[simp] theorem onStall_wire (k : Nat) (f : Stall → Stall) (s : State) : (onStall k f s).wire = s.wire := rfl
@[simp] theorem onStall_svcOut (k : Nat) (f : Stall → Stall) (s : State) : (onStall k f s).svcOut = s.svcOut := rfl
@[simp] theorem onStall_cxlLines (k : Nat) (f : Stall → Stall) (s : State) : (onStall k f s).cxlLines = s.cxlLines := rfl
@[simp] theorem onStall_cxlWaiting (k : Nat) (f : Stall → Stall) (s : State) : (onStall k f s).cxlWaiting = s.cxlWaiting := rfl
@[simp] theorem onStall_ledgerPoison (k : Nat) (f : Stall → Stall) (s : State) : (onStall k f s).ledgerPoison = s.ledgerPoison := rfl
@[simp] theorem onStall_poison (k : Nat) (f : Stall → Stall) (s : State) : (onStall k f s).poison = s.poison := rfl
@[simp] theorem onStall_cxlOut (k : Nat) (f : Stall → Stall) (s : State) : (onStall k f s).cxlOut = s.cxlOut := rfl
@[simp] theorem onStall_keyArea (k : Nat) (f : Stall → Stall) (s : State) : (onStall k f s).keyArea = s.keyArea := rfl
@[simp] theorem onStall_flashKeys (k : Nat) (f : Stall → Stall) (s : State) : (onStall k f s).flashKeys = s.flashKeys := rfl
@[simp] theorem onStall_sessions (k : Nat) (f : Stall → Stall) (s : State) : (onStall k f s).sessions = s.sessions := rfl
@[simp] theorem onStall_serials (k : Nat) (f : Stall → Stall) (s : State) : (onStall k f s).serials = s.serials := rfl
@[simp] theorem onStall_releases (k : Nat) (f : Stall → Stall) (s : State) : (onStall k f s).releases = s.releases := rfl
@[simp] theorem onStall_attestWait (k : Nat) (f : Stall → Stall) (s : State) : (onStall k f s).attestWait = s.attestWait := rfl
@[simp] theorem onStall_certs (k : Nat) (f : Stall → Stall) (s : State) : (onStall k f s).certs = s.certs := rfl
@[simp] theorem onStall_xspi (k : Nat) (f : Stall → Stall) (s : State) : (onStall k f s).xspi = s.xspi := rfl
@[simp] theorem onStall_fwRunning (k : Nat) (f : Stall → Stall) (s : State) : (onStall k f s).fwRunning = s.fwRunning := rfl
@[simp] theorem onStall_rotRunning (k : Nat) (f : Stall → Stall) (s : State) : (onStall k f s).rotRunning = s.rotRunning := rfl
@[simp] theorem onStall_planImage (k : Nat) (f : Stall → Stall) (s : State) : (onStall k f s).planImage = s.planImage := rfl
@[simp] theorem onStall_live (k : Nat) (f : Stall → Stall) (s : State) : (onStall k f s).live = s.live := rfl
@[simp] theorem onStall_cores (k : Nat) (f : Stall → Stall) (s : State) : (onStall k f s).cores = s.cores := rfl
@[simp] theorem onStall_restarts (k : Nat) (f : Stall → Stall) (s : State) : (onStall k f s).restarts = s.restarts := rfl
@[simp] theorem onStall_bootedAt (k : Nat) (f : Stall → Stall) (s : State) : (onStall k f s).bootedAt = s.bootedAt := rfl
@[simp] theorem onStall_bootStep (k : Nat) (f : Stall → Stall) (s : State) : (onStall k f s).bootStep = s.bootStep := rfl
@[simp] theorem onStall_fatalAt (k : Nat) (f : Stall → Stall) (s : State) : (onStall k f s).fatalAt = s.fatalAt := rfl
@[simp] theorem onStall_stagedOk (k : Nat) (f : Stall → Stall) (s : State) : (onStall k f s).stagedOk = s.stagedOk := rfl
@[simp] theorem onStall_power (k : Nat) (f : Stall → Stall) (s : State) : (onStall k f s).power = s.power := rfl
@[simp] theorem onStall_crier (k : Nat) (f : Stall → Stall) (s : State) : (onStall k f s).crier = s.crier := rfl
@[simp] theorem onStall_traces (k : Nat) (f : Stall → Stall) (s : State) : (onStall k f s).traces = s.traces := rfl

@[simp] theorem onCtx_pending (id : Nat) (f : Ctx → Ctx) (s : State) : (onCtx id f s).pending = s.pending := rfl
@[simp] theorem onCtx_localTime (id : Nat) (f : Ctx → Ctx) (s : State) : (onCtx id f s).localTime = s.localTime := rfl
@[simp] theorem onCtx_phase (id : Nat) (f : Ctx → Ctx) (s : State) : (onCtx id f s).phase = s.phase := rfl
@[simp] theorem onCtx_plan (id : Nat) (f : Ctx → Ctx) (s : State) : (onCtx id f s).plan = s.plan := rfl
@[simp] theorem onCtx_fuses (id : Nat) (f : Ctx → Ctx) (s : State) : (onCtx id f s).fuses = s.fuses := rfl
@[simp] theorem onCtx_regs (id : Nat) (f : Ctx → Ctx) (s : State) : (onCtx id f s).regs = s.regs := rfl
@[simp] theorem onCtx_raw (id : Nat) (f : Ctx → Ctx) (s : State) : (onCtx id f s).raw = s.raw := rfl
@[simp] theorem onCtx_p0Regs (id : Nat) (f : Ctx → Ctx) (s : State) : (onCtx id f s).p0Regs = s.p0Regs := rfl
@[simp] theorem onCtx_ownerKeys (id : Nat) (f : Ctx → Ctx) (s : State) : (onCtx id f s).ownerKeys = s.ownerKeys := rfl
@[simp] theorem onCtx_shodunRevoked (id : Nat) (f : Ctx → Ctx) (s : State) : (onCtx id f s).shodunRevoked = s.shodunRevoked := rfl
@[simp] theorem onCtx_romKeys (id : Nat) (f : Ctx → Ctx) (s : State) : (onCtx id f s).romKeys = s.romKeys := rfl
@[simp] theorem onCtx_fresh (id : Nat) (f : Ctx → Ctx) (s : State) : (onCtx id f s).fresh = s.fresh := rfl
@[simp] theorem onCtx_order (id : Nat) (f : Ctx → Ctx) (s : State) : (onCtx id f s).order = s.order := rfl
@[simp] theorem onCtx_dram (id : Nat) (f : Ctx → Ctx) (s : State) : (onCtx id f s).dram = s.dram := rfl
@[simp] theorem onCtx_hall (id : Nat) (f : Ctx → Ctx) (s : State) : (onCtx id f s).hall = s.hall := rfl
@[simp] theorem onCtx_hostMem (id : Nat) (f : Ctx → Ctx) (s : State) : (onCtx id f s).hostMem = s.hostMem := rfl
@[simp] theorem onCtx_rings (id : Nat) (f : Ctx → Ctx) (s : State) : (onCtx id f s).rings = s.rings := rfl
@[simp] theorem onCtx_cmds (id : Nat) (f : Ctx → Ctx) (s : State) : (onCtx id f s).cmds = s.cmds := rfl
@[simp] theorem onCtx_chits (id : Nat) (f : Ctx → Ctx) (s : State) : (onCtx id f s).chits = s.chits := rfl
@[simp] theorem onCtx_triggers (id : Nat) (f : Ctx → Ctx) (s : State) : (onCtx id f s).triggers = s.triggers := rfl
@[simp] theorem onCtx_released (id : Nat) (f : Ctx → Ctx) (s : State) : (onCtx id f s).released = s.released := rfl
@[simp] theorem onCtx_chitWork (id : Nat) (f : Ctx → Ctx) (s : State) : (onCtx id f s).chitWork = s.chitWork := rfl
@[simp] theorem onCtx_msix (id : Nat) (f : Ctx → Ctx) (s : State) : (onCtx id f s).msix = s.msix := rfl
@[simp] theorem onCtx_dmaWait (id : Nat) (f : Ctx → Ctx) (s : State) : (onCtx id f s).dmaWait = s.dmaWait := rfl
@[simp] theorem onCtx_dmaSince (id : Nat) (f : Ctx → Ctx) (s : State) : (onCtx id f s).dmaSince = s.dmaSince := rfl
@[simp] theorem onCtx_latches (id : Nat) (f : Ctx → Ctx) (s : State) : (onCtx id f s).latches = s.latches := rfl
@[simp] theorem onCtx_answers (id : Nat) (f : Ctx → Ctx) (s : State) : (onCtx id f s).answers = s.answers := rfl
@[simp] theorem onCtx_readsHeld (id : Nat) (f : Ctx → Ctx) (s : State) : (onCtx id f s).readsHeld = s.readsHeld := rfl
@[simp] theorem onCtx_sidebandOut (id : Nat) (f : Ctx → Ctx) (s : State) : (onCtx id f s).sidebandOut = s.sidebandOut := rfl
@[simp] theorem onCtx_seqs (id : Nat) (f : Ctx → Ctx) (s : State) : (onCtx id f s).seqs = s.seqs := rfl
@[simp] theorem onCtx_crates (id : Nat) (f : Ctx → Ctx) (s : State) : (onCtx id f s).crates = s.crates := rfl
@[simp] theorem onCtx_seals (id : Nat) (f : Ctx → Ctx) (s : State) : (onCtx id f s).seals = s.seals := rfl
@[simp] theorem onCtx_attends (id : Nat) (f : Ctx → Ctx) (s : State) : (onCtx id f s).attends = s.attends := rfl
@[simp] theorem onCtx_forwards (id : Nat) (f : Ctx → Ctx) (s : State) : (onCtx id f s).forwards = s.forwards := rfl
@[simp] theorem onCtx_stalls (id : Nat) (f : Ctx → Ctx) (s : State) : (onCtx id f s).stalls = s.stalls := rfl
@[simp] theorem onCtx_unplaced (id : Nat) (f : Ctx → Ctx) (s : State) : (onCtx id f s).unplaced = s.unplaced := rfl
@[simp] theorem onCtx_tills (id : Nat) (f : Ctx → Ctx) (s : State) : (onCtx id f s).tills = s.tills := rfl
@[simp] theorem onCtx_slotStart (id : Nat) (f : Ctx → Ctx) (s : State) : (onCtx id f s).slotStart = s.slotStart := rfl
@[simp] theorem onCtx_ttWaiters (id : Nat) (f : Ctx → Ctx) (s : State) : (onCtx id f s).ttWaiters = s.ttWaiters := rfl
@[simp] theorem onCtx_homes (id : Nat) (f : Ctx → Ctx) (s : State) : (onCtx id f s).homes = s.homes := rfl
@[simp] theorem onCtx_replicas (id : Nat) (f : Ctx → Ctx) (s : State) : (onCtx id f s).replicas = s.replicas := rfl
@[simp] theorem onCtx_pushOwed (id : Nat) (f : Ctx → Ctx) (s : State) : (onCtx id f s).pushOwed = s.pushOwed := rfl
@[simp] theorem onCtx_pubs (id : Nat) (f : Ctx → Ctx) (s : State) : (onCtx id f s).pubs = s.pubs := rfl
@[simp] theorem onCtx_publishes (id : Nat) (f : Ctx → Ctx) (s : State) : (onCtx id f s).publishes = s.publishes := rfl
@[simp] theorem onCtx_drops (id : Nat) (f : Ctx → Ctx) (s : State) : (onCtx id f s).drops = s.drops := rfl
@[simp] theorem onCtx_results (id : Nat) (f : Ctx → Ctx) (s : State) : (onCtx id f s).results = s.results := rfl
@[simp] theorem onCtx_lookups (id : Nat) (f : Ctx → Ctx) (s : State) : (onCtx id f s).lookups = s.lookups := rfl
@[simp] theorem onCtx_holds (id : Nat) (f : Ctx → Ctx) (s : State) : (onCtx id f s).holds = s.holds := rfl
@[simp] theorem onCtx_myHolds (id : Nat) (f : Ctx → Ctx) (s : State) : (onCtx id f s).myHolds = s.myHolds := rfl
@[simp] theorem onCtx_askedHits (id : Nat) (f : Ctx → Ctx) (s : State) : (onCtx id f s).askedHits = s.askedHits := rfl
@[simp] theorem onCtx_leases (id : Nat) (f : Ctx → Ctx) (s : State) : (onCtx id f s).leases = s.leases := rfl
@[simp] theorem onCtx_zones (id : Nat) (f : Ctx → Ctx) (s : State) : (onCtx id f s).zones = s.zones := rfl
@[simp] theorem onCtx_catalogue (id : Nat) (f : Ctx → Ctx) (s : State) : (onCtx id f s).catalogue = s.catalogue := rfl
@[simp] theorem onCtx_journalRecs (id : Nat) (f : Ctx → Ctx) (s : State) : (onCtx id f s).journalRecs = s.journalRecs := rfl
@[simp] theorem onCtx_flashQueue (id : Nat) (f : Ctx → Ctx) (s : State) : (onCtx id f s).flashQueue = s.flashQueue := rfl
@[simp] theorem onCtx_flashHeld (id : Nat) (f : Ctx → Ctx) (s : State) : (onCtx id f s).flashHeld = s.flashHeld := rfl
@[simp] theorem onCtx_deviceCat (id : Nat) (f : Ctx → Ctx) (s : State) : (onCtx id f s).deviceCat = s.deviceCat := rfl
@[simp] theorem onCtx_replaying (id : Nat) (f : Ctx → Ctx) (s : State) : (onCtx id f s).replaying = s.replaying := rfl
@[simp] theorem onCtx_flashTokens (id : Nat) (f : Ctx → Ctx) (s : State) : (onCtx id f s).flashTokens = s.flashTokens := rfl
@[simp] theorem onCtx_flashFilled (id : Nat) (f : Ctx → Ctx) (s : State) : (onCtx id f s).flashFilled = s.flashFilled := rfl
@[simp] theorem onCtx_evicting (id : Nat) (f : Ctx → Ctx) (s : State) : (onCtx id f s).evicting = s.evicting := rfl
@[simp] theorem onCtx_tierWaits (id : Nat) (f : Ctx → Ctx) (s : State) : (onCtx id f s).tierWaits = s.tierWaits := rfl
@[simp] theorem onCtx_channelsFailed (id : Nat) (f : Ctx → Ctx) (s : State) : (onCtx id f s).channelsFailed = s.channelsFailed := rfl
@[simp] theorem onCtx_frames (id : Nat) (f : Ctx → Ctx) (s : State) : (onCtx id f s).frames = s.frames := rfl
@[simp] theorem onCtx_frameErrs (id : Nat) (f : Ctx → Ctx) (s : State) : (onCtx id f s).frameErrs = s.frameErrs := rfl
@[simp] theorem onCtx_leadRun (id : Nat) (f : Ctx → Ctx) (s : State) : (onCtx id f s).leadRun = s.leadRun := rfl
@[simp] theorem onCtx_tables (id : Nat) (f : Ctx → Ctx) (s : State) : (onCtx id f s).tables = s.tables := rfl
@[simp] theorem onCtx_actives (id : Nat) (f : Ctx → Ctx) (s : State) : (onCtx id f s).actives = s.actives := rfl
@[simp] theorem onCtx_pendingTables (id : Nat) (f : Ctx → Ctx) (s : State) : (onCtx id f s).pendingTables = s.pendingTables := rfl
@[simp] theorem onCtx_windows (id : Nat) (f : Ctx → Ctx) (s : State) : (onCtx id f s).windows = s.windows := rfl
@[simp] theorem onCtx_winFreed (id : Nat) (f : Ctx → Ctx) (s : State) : (onCtx id f s).winFreed = s.winFreed := rfl
@[simp] theorem onCtx_winNext (id : Nat) (f : Ctx → Ctx) (s : State) : (onCtx id f s).winNext = s.winNext := rfl
@[simp] theorem onCtx_conns (id : Nat) (f : Ctx → Ctx) (s : State) : (onCtx id f s).conns = s.conns := rfl
@[simp] theorem onCtx_reads (id : Nat) (f : Ctx → Ctx) (s : State) : (onCtx id f s).reads = s.reads := rfl
@[simp] theorem onCtx_peers (id : Nat) (f : Ctx → Ctx) (s : State) : (onCtx id f s).peers = s.peers := rfl
@[simp] theorem onCtx_ports (id : Nat) (f : Ctx → Ctx) (s : State) : (onCtx id f s).ports = s.ports := rfl
@[simp] theorem onCtx_wire (id : Nat) (f : Ctx → Ctx) (s : State) : (onCtx id f s).wire = s.wire := rfl
@[simp] theorem onCtx_svcOut (id : Nat) (f : Ctx → Ctx) (s : State) : (onCtx id f s).svcOut = s.svcOut := rfl
@[simp] theorem onCtx_cxlLines (id : Nat) (f : Ctx → Ctx) (s : State) : (onCtx id f s).cxlLines = s.cxlLines := rfl
@[simp] theorem onCtx_cxlWaiting (id : Nat) (f : Ctx → Ctx) (s : State) : (onCtx id f s).cxlWaiting = s.cxlWaiting := rfl
@[simp] theorem onCtx_ledgerPoison (id : Nat) (f : Ctx → Ctx) (s : State) : (onCtx id f s).ledgerPoison = s.ledgerPoison := rfl
@[simp] theorem onCtx_poison (id : Nat) (f : Ctx → Ctx) (s : State) : (onCtx id f s).poison = s.poison := rfl
@[simp] theorem onCtx_cxlOut (id : Nat) (f : Ctx → Ctx) (s : State) : (onCtx id f s).cxlOut = s.cxlOut := rfl
@[simp] theorem onCtx_keyArea (id : Nat) (f : Ctx → Ctx) (s : State) : (onCtx id f s).keyArea = s.keyArea := rfl
@[simp] theorem onCtx_flashKeys (id : Nat) (f : Ctx → Ctx) (s : State) : (onCtx id f s).flashKeys = s.flashKeys := rfl
@[simp] theorem onCtx_sessions (id : Nat) (f : Ctx → Ctx) (s : State) : (onCtx id f s).sessions = s.sessions := rfl
@[simp] theorem onCtx_serials (id : Nat) (f : Ctx → Ctx) (s : State) : (onCtx id f s).serials = s.serials := rfl
@[simp] theorem onCtx_releases (id : Nat) (f : Ctx → Ctx) (s : State) : (onCtx id f s).releases = s.releases := rfl
@[simp] theorem onCtx_attestWait (id : Nat) (f : Ctx → Ctx) (s : State) : (onCtx id f s).attestWait = s.attestWait := rfl
@[simp] theorem onCtx_certs (id : Nat) (f : Ctx → Ctx) (s : State) : (onCtx id f s).certs = s.certs := rfl
@[simp] theorem onCtx_xspi (id : Nat) (f : Ctx → Ctx) (s : State) : (onCtx id f s).xspi = s.xspi := rfl
@[simp] theorem onCtx_fwRunning (id : Nat) (f : Ctx → Ctx) (s : State) : (onCtx id f s).fwRunning = s.fwRunning := rfl
@[simp] theorem onCtx_rotRunning (id : Nat) (f : Ctx → Ctx) (s : State) : (onCtx id f s).rotRunning = s.rotRunning := rfl
@[simp] theorem onCtx_planImage (id : Nat) (f : Ctx → Ctx) (s : State) : (onCtx id f s).planImage = s.planImage := rfl
@[simp] theorem onCtx_live (id : Nat) (f : Ctx → Ctx) (s : State) : (onCtx id f s).live = s.live := rfl
@[simp] theorem onCtx_cores (id : Nat) (f : Ctx → Ctx) (s : State) : (onCtx id f s).cores = s.cores := rfl
@[simp] theorem onCtx_restarts (id : Nat) (f : Ctx → Ctx) (s : State) : (onCtx id f s).restarts = s.restarts := rfl
@[simp] theorem onCtx_bootedAt (id : Nat) (f : Ctx → Ctx) (s : State) : (onCtx id f s).bootedAt = s.bootedAt := rfl
@[simp] theorem onCtx_bootStep (id : Nat) (f : Ctx → Ctx) (s : State) : (onCtx id f s).bootStep = s.bootStep := rfl
@[simp] theorem onCtx_fatalAt (id : Nat) (f : Ctx → Ctx) (s : State) : (onCtx id f s).fatalAt = s.fatalAt := rfl
@[simp] theorem onCtx_stagedOk (id : Nat) (f : Ctx → Ctx) (s : State) : (onCtx id f s).stagedOk = s.stagedOk := rfl
@[simp] theorem onCtx_power (id : Nat) (f : Ctx → Ctx) (s : State) : (onCtx id f s).power = s.power := rfl
@[simp] theorem onCtx_crier (id : Nat) (f : Ctx → Ctx) (s : State) : (onCtx id f s).crier = s.crier := rfl
@[simp] theorem onCtx_traces (id : Nat) (f : Ctx → Ctx) (s : State) : (onCtx id f s).traces = s.traces := rfl

@[simp] theorem tell_pending (q : Nat) (m : SvcMsg) (s : State) : (tell q m s).pending = s.pending := by unfold tell; split <;> rfl
@[simp] theorem tell_localTime (q : Nat) (m : SvcMsg) (s : State) : (tell q m s).localTime = s.localTime := by unfold tell; split <;> rfl
@[simp] theorem tell_phase (q : Nat) (m : SvcMsg) (s : State) : (tell q m s).phase = s.phase := by unfold tell; split <;> rfl
@[simp] theorem tell_plan (q : Nat) (m : SvcMsg) (s : State) : (tell q m s).plan = s.plan := by unfold tell; split <;> rfl
@[simp] theorem tell_fuses (q : Nat) (m : SvcMsg) (s : State) : (tell q m s).fuses = s.fuses := by unfold tell; split <;> rfl
@[simp] theorem tell_regs (q : Nat) (m : SvcMsg) (s : State) : (tell q m s).regs = s.regs := by unfold tell; split <;> rfl
@[simp] theorem tell_raw (q : Nat) (m : SvcMsg) (s : State) : (tell q m s).raw = s.raw := by unfold tell; split <;> rfl
@[simp] theorem tell_p0Regs (q : Nat) (m : SvcMsg) (s : State) : (tell q m s).p0Regs = s.p0Regs := by unfold tell; split <;> rfl
@[simp] theorem tell_ownerKeys (q : Nat) (m : SvcMsg) (s : State) : (tell q m s).ownerKeys = s.ownerKeys := by unfold tell; split <;> rfl
@[simp] theorem tell_shodunRevoked (q : Nat) (m : SvcMsg) (s : State) : (tell q m s).shodunRevoked = s.shodunRevoked := by unfold tell; split <;> rfl
@[simp] theorem tell_romKeys (q : Nat) (m : SvcMsg) (s : State) : (tell q m s).romKeys = s.romKeys := by unfold tell; split <;> rfl
@[simp] theorem tell_fresh (q : Nat) (m : SvcMsg) (s : State) : (tell q m s).fresh = s.fresh := by unfold tell; split <;> rfl
@[simp] theorem tell_order (q : Nat) (m : SvcMsg) (s : State) : (tell q m s).order = s.order := by unfold tell; split <;> rfl
@[simp] theorem tell_dram (q : Nat) (m : SvcMsg) (s : State) : (tell q m s).dram = s.dram := by unfold tell; split <;> rfl
@[simp] theorem tell_hall (q : Nat) (m : SvcMsg) (s : State) : (tell q m s).hall = s.hall := by unfold tell; split <;> rfl
@[simp] theorem tell_hostMem (q : Nat) (m : SvcMsg) (s : State) : (tell q m s).hostMem = s.hostMem := by unfold tell; split <;> rfl
@[simp] theorem tell_rings (q : Nat) (m : SvcMsg) (s : State) : (tell q m s).rings = s.rings := by unfold tell; split <;> rfl
@[simp] theorem tell_cmds (q : Nat) (m : SvcMsg) (s : State) : (tell q m s).cmds = s.cmds := by unfold tell; split <;> rfl
@[simp] theorem tell_chits (q : Nat) (m : SvcMsg) (s : State) : (tell q m s).chits = s.chits := by unfold tell; split <;> rfl
@[simp] theorem tell_triggers (q : Nat) (m : SvcMsg) (s : State) : (tell q m s).triggers = s.triggers := by unfold tell; split <;> rfl
@[simp] theorem tell_released (q : Nat) (m : SvcMsg) (s : State) : (tell q m s).released = s.released := by unfold tell; split <;> rfl
@[simp] theorem tell_chitWork (q : Nat) (m : SvcMsg) (s : State) : (tell q m s).chitWork = s.chitWork := by unfold tell; split <;> rfl
@[simp] theorem tell_msix (q : Nat) (m : SvcMsg) (s : State) : (tell q m s).msix = s.msix := by unfold tell; split <;> rfl
@[simp] theorem tell_dmaWait (q : Nat) (m : SvcMsg) (s : State) : (tell q m s).dmaWait = s.dmaWait := by unfold tell; split <;> rfl
@[simp] theorem tell_dmaSince (q : Nat) (m : SvcMsg) (s : State) : (tell q m s).dmaSince = s.dmaSince := by unfold tell; split <;> rfl
@[simp] theorem tell_latches (q : Nat) (m : SvcMsg) (s : State) : (tell q m s).latches = s.latches := by unfold tell; split <;> rfl
@[simp] theorem tell_answers (q : Nat) (m : SvcMsg) (s : State) : (tell q m s).answers = s.answers := by unfold tell; split <;> rfl
@[simp] theorem tell_readsHeld (q : Nat) (m : SvcMsg) (s : State) : (tell q m s).readsHeld = s.readsHeld := by unfold tell; split <;> rfl
@[simp] theorem tell_sidebandOut (q : Nat) (m : SvcMsg) (s : State) : (tell q m s).sidebandOut = s.sidebandOut := by unfold tell; split <;> rfl
@[simp] theorem tell_seqs (q : Nat) (m : SvcMsg) (s : State) : (tell q m s).seqs = s.seqs := by unfold tell; split <;> rfl
@[simp] theorem tell_crates (q : Nat) (m : SvcMsg) (s : State) : (tell q m s).crates = s.crates := by unfold tell; split <;> rfl
@[simp] theorem tell_seals (q : Nat) (m : SvcMsg) (s : State) : (tell q m s).seals = s.seals := by unfold tell; split <;> rfl
@[simp] theorem tell_attends (q : Nat) (m : SvcMsg) (s : State) : (tell q m s).attends = s.attends := by unfold tell; split <;> rfl
@[simp] theorem tell_forwards (q : Nat) (m : SvcMsg) (s : State) : (tell q m s).forwards = s.forwards := by unfold tell; split <;> rfl
@[simp] theorem tell_stalls (q : Nat) (m : SvcMsg) (s : State) : (tell q m s).stalls = s.stalls := by unfold tell; split <;> rfl
@[simp] theorem tell_ctxs (q : Nat) (m : SvcMsg) (s : State) : (tell q m s).ctxs = s.ctxs := by unfold tell; split <;> rfl
@[simp] theorem tell_unplaced (q : Nat) (m : SvcMsg) (s : State) : (tell q m s).unplaced = s.unplaced := by unfold tell; split <;> rfl
@[simp] theorem tell_tills (q : Nat) (m : SvcMsg) (s : State) : (tell q m s).tills = s.tills := by unfold tell; split <;> rfl
@[simp] theorem tell_slotStart (q : Nat) (m : SvcMsg) (s : State) : (tell q m s).slotStart = s.slotStart := by unfold tell; split <;> rfl
@[simp] theorem tell_ttWaiters (q : Nat) (m : SvcMsg) (s : State) : (tell q m s).ttWaiters = s.ttWaiters := by unfold tell; split <;> rfl
@[simp] theorem tell_homes (q : Nat) (m : SvcMsg) (s : State) : (tell q m s).homes = s.homes := by unfold tell; split <;> rfl
@[simp] theorem tell_replicas (q : Nat) (m : SvcMsg) (s : State) : (tell q m s).replicas = s.replicas := by unfold tell; split <;> rfl
@[simp] theorem tell_pushOwed (q : Nat) (m : SvcMsg) (s : State) : (tell q m s).pushOwed = s.pushOwed := by unfold tell; split <;> rfl
@[simp] theorem tell_pubs (q : Nat) (m : SvcMsg) (s : State) : (tell q m s).pubs = s.pubs := by unfold tell; split <;> rfl
@[simp] theorem tell_publishes (q : Nat) (m : SvcMsg) (s : State) : (tell q m s).publishes = s.publishes := by unfold tell; split <;> rfl
@[simp] theorem tell_drops (q : Nat) (m : SvcMsg) (s : State) : (tell q m s).drops = s.drops := by unfold tell; split <;> rfl
@[simp] theorem tell_results (q : Nat) (m : SvcMsg) (s : State) : (tell q m s).results = s.results := by unfold tell; split <;> rfl
@[simp] theorem tell_lookups (q : Nat) (m : SvcMsg) (s : State) : (tell q m s).lookups = s.lookups := by unfold tell; split <;> rfl
@[simp] theorem tell_holds (q : Nat) (m : SvcMsg) (s : State) : (tell q m s).holds = s.holds := by unfold tell; split <;> rfl
@[simp] theorem tell_myHolds (q : Nat) (m : SvcMsg) (s : State) : (tell q m s).myHolds = s.myHolds := by unfold tell; split <;> rfl
@[simp] theorem tell_askedHits (q : Nat) (m : SvcMsg) (s : State) : (tell q m s).askedHits = s.askedHits := by unfold tell; split <;> rfl
@[simp] theorem tell_leases (q : Nat) (m : SvcMsg) (s : State) : (tell q m s).leases = s.leases := by unfold tell; split <;> rfl
@[simp] theorem tell_zones (q : Nat) (m : SvcMsg) (s : State) : (tell q m s).zones = s.zones := by unfold tell; split <;> rfl
@[simp] theorem tell_catalogue (q : Nat) (m : SvcMsg) (s : State) : (tell q m s).catalogue = s.catalogue := by unfold tell; split <;> rfl
@[simp] theorem tell_journalRecs (q : Nat) (m : SvcMsg) (s : State) : (tell q m s).journalRecs = s.journalRecs := by unfold tell; split <;> rfl
@[simp] theorem tell_flashQueue (q : Nat) (m : SvcMsg) (s : State) : (tell q m s).flashQueue = s.flashQueue := by unfold tell; split <;> rfl
@[simp] theorem tell_flashHeld (q : Nat) (m : SvcMsg) (s : State) : (tell q m s).flashHeld = s.flashHeld := by unfold tell; split <;> rfl
@[simp] theorem tell_deviceCat (q : Nat) (m : SvcMsg) (s : State) : (tell q m s).deviceCat = s.deviceCat := by unfold tell; split <;> rfl
@[simp] theorem tell_replaying (q : Nat) (m : SvcMsg) (s : State) : (tell q m s).replaying = s.replaying := by unfold tell; split <;> rfl
@[simp] theorem tell_flashTokens (q : Nat) (m : SvcMsg) (s : State) : (tell q m s).flashTokens = s.flashTokens := by unfold tell; split <;> rfl
@[simp] theorem tell_flashFilled (q : Nat) (m : SvcMsg) (s : State) : (tell q m s).flashFilled = s.flashFilled := by unfold tell; split <;> rfl
@[simp] theorem tell_evicting (q : Nat) (m : SvcMsg) (s : State) : (tell q m s).evicting = s.evicting := by unfold tell; split <;> rfl
@[simp] theorem tell_tierWaits (q : Nat) (m : SvcMsg) (s : State) : (tell q m s).tierWaits = s.tierWaits := by unfold tell; split <;> rfl
@[simp] theorem tell_channelsFailed (q : Nat) (m : SvcMsg) (s : State) : (tell q m s).channelsFailed = s.channelsFailed := by unfold tell; split <;> rfl
@[simp] theorem tell_frames (q : Nat) (m : SvcMsg) (s : State) : (tell q m s).frames = s.frames := by unfold tell; split <;> rfl
@[simp] theorem tell_frameErrs (q : Nat) (m : SvcMsg) (s : State) : (tell q m s).frameErrs = s.frameErrs := by unfold tell; split <;> rfl
@[simp] theorem tell_leadRun (q : Nat) (m : SvcMsg) (s : State) : (tell q m s).leadRun = s.leadRun := by unfold tell; split <;> rfl
@[simp] theorem tell_tables (q : Nat) (m : SvcMsg) (s : State) : (tell q m s).tables = s.tables := by unfold tell; split <;> rfl
@[simp] theorem tell_actives (q : Nat) (m : SvcMsg) (s : State) : (tell q m s).actives = s.actives := by unfold tell; split <;> rfl
@[simp] theorem tell_pendingTables (q : Nat) (m : SvcMsg) (s : State) : (tell q m s).pendingTables = s.pendingTables := by unfold tell; split <;> rfl
@[simp] theorem tell_windows (q : Nat) (m : SvcMsg) (s : State) : (tell q m s).windows = s.windows := by unfold tell; split <;> rfl
@[simp] theorem tell_winFreed (q : Nat) (m : SvcMsg) (s : State) : (tell q m s).winFreed = s.winFreed := by unfold tell; split <;> rfl
@[simp] theorem tell_winNext (q : Nat) (m : SvcMsg) (s : State) : (tell q m s).winNext = s.winNext := by unfold tell; split <;> rfl
@[simp] theorem tell_conns (q : Nat) (m : SvcMsg) (s : State) : (tell q m s).conns = s.conns := by unfold tell; split <;> rfl
@[simp] theorem tell_reads (q : Nat) (m : SvcMsg) (s : State) : (tell q m s).reads = s.reads := by unfold tell; split <;> rfl
@[simp] theorem tell_peers (q : Nat) (m : SvcMsg) (s : State) : (tell q m s).peers = s.peers := by unfold tell; split <;> rfl
@[simp] theorem tell_ports (q : Nat) (m : SvcMsg) (s : State) : (tell q m s).ports = s.ports := by unfold tell; split <;> rfl
@[simp] theorem tell_wire (q : Nat) (m : SvcMsg) (s : State) : (tell q m s).wire = s.wire := by unfold tell; split <;> rfl
@[simp] theorem tell_cxlLines (q : Nat) (m : SvcMsg) (s : State) : (tell q m s).cxlLines = s.cxlLines := by unfold tell; split <;> rfl
@[simp] theorem tell_cxlWaiting (q : Nat) (m : SvcMsg) (s : State) : (tell q m s).cxlWaiting = s.cxlWaiting := by unfold tell; split <;> rfl
@[simp] theorem tell_ledgerPoison (q : Nat) (m : SvcMsg) (s : State) : (tell q m s).ledgerPoison = s.ledgerPoison := by unfold tell; split <;> rfl
@[simp] theorem tell_poison (q : Nat) (m : SvcMsg) (s : State) : (tell q m s).poison = s.poison := by unfold tell; split <;> rfl
@[simp] theorem tell_cxlOut (q : Nat) (m : SvcMsg) (s : State) : (tell q m s).cxlOut = s.cxlOut := by unfold tell; split <;> rfl
@[simp] theorem tell_keyArea (q : Nat) (m : SvcMsg) (s : State) : (tell q m s).keyArea = s.keyArea := by unfold tell; split <;> rfl
@[simp] theorem tell_flashKeys (q : Nat) (m : SvcMsg) (s : State) : (tell q m s).flashKeys = s.flashKeys := by unfold tell; split <;> rfl
@[simp] theorem tell_sessions (q : Nat) (m : SvcMsg) (s : State) : (tell q m s).sessions = s.sessions := by unfold tell; split <;> rfl
@[simp] theorem tell_serials (q : Nat) (m : SvcMsg) (s : State) : (tell q m s).serials = s.serials := by unfold tell; split <;> rfl
@[simp] theorem tell_releases (q : Nat) (m : SvcMsg) (s : State) : (tell q m s).releases = s.releases := by unfold tell; split <;> rfl
@[simp] theorem tell_attestWait (q : Nat) (m : SvcMsg) (s : State) : (tell q m s).attestWait = s.attestWait := by unfold tell; split <;> rfl
@[simp] theorem tell_certs (q : Nat) (m : SvcMsg) (s : State) : (tell q m s).certs = s.certs := by unfold tell; split <;> rfl
@[simp] theorem tell_xspi (q : Nat) (m : SvcMsg) (s : State) : (tell q m s).xspi = s.xspi := by unfold tell; split <;> rfl
@[simp] theorem tell_fwRunning (q : Nat) (m : SvcMsg) (s : State) : (tell q m s).fwRunning = s.fwRunning := by unfold tell; split <;> rfl
@[simp] theorem tell_rotRunning (q : Nat) (m : SvcMsg) (s : State) : (tell q m s).rotRunning = s.rotRunning := by unfold tell; split <;> rfl
@[simp] theorem tell_planImage (q : Nat) (m : SvcMsg) (s : State) : (tell q m s).planImage = s.planImage := by unfold tell; split <;> rfl
@[simp] theorem tell_live (q : Nat) (m : SvcMsg) (s : State) : (tell q m s).live = s.live := by unfold tell; split <;> rfl
@[simp] theorem tell_cores (q : Nat) (m : SvcMsg) (s : State) : (tell q m s).cores = s.cores := by unfold tell; split <;> rfl
@[simp] theorem tell_restarts (q : Nat) (m : SvcMsg) (s : State) : (tell q m s).restarts = s.restarts := by unfold tell; split <;> rfl
@[simp] theorem tell_bootedAt (q : Nat) (m : SvcMsg) (s : State) : (tell q m s).bootedAt = s.bootedAt := by unfold tell; split <;> rfl
@[simp] theorem tell_bootStep (q : Nat) (m : SvcMsg) (s : State) : (tell q m s).bootStep = s.bootStep := by unfold tell; split <;> rfl
@[simp] theorem tell_fatalAt (q : Nat) (m : SvcMsg) (s : State) : (tell q m s).fatalAt = s.fatalAt := by unfold tell; split <;> rfl
@[simp] theorem tell_stagedOk (q : Nat) (m : SvcMsg) (s : State) : (tell q m s).stagedOk = s.stagedOk := by unfold tell; split <;> rfl
@[simp] theorem tell_power (q : Nat) (m : SvcMsg) (s : State) : (tell q m s).power = s.power := by unfold tell; split <;> rfl
@[simp] theorem tell_crier (q : Nat) (m : SvcMsg) (s : State) : (tell q m s).crier = s.crier := by unfold tell; split <;> rfl
@[simp] theorem tell_traces (q : Nat) (m : SvcMsg) (s : State) : (tell q m s).traces = s.traces := by unfold tell; split <;> rfl

@[simp] theorem putPeer_pending (x : Peer) (s : State) : (putPeer x s).pending = s.pending := rfl
@[simp] theorem putPeer_localTime (x : Peer) (s : State) : (putPeer x s).localTime = s.localTime := rfl
@[simp] theorem putPeer_phase (x : Peer) (s : State) : (putPeer x s).phase = s.phase := rfl
@[simp] theorem putPeer_plan (x : Peer) (s : State) : (putPeer x s).plan = s.plan := rfl
@[simp] theorem putPeer_fuses (x : Peer) (s : State) : (putPeer x s).fuses = s.fuses := rfl
@[simp] theorem putPeer_regs (x : Peer) (s : State) : (putPeer x s).regs = s.regs := rfl
@[simp] theorem putPeer_raw (x : Peer) (s : State) : (putPeer x s).raw = s.raw := rfl
@[simp] theorem putPeer_p0Regs (x : Peer) (s : State) : (putPeer x s).p0Regs = s.p0Regs := rfl
@[simp] theorem putPeer_ownerKeys (x : Peer) (s : State) : (putPeer x s).ownerKeys = s.ownerKeys := rfl
@[simp] theorem putPeer_shodunRevoked (x : Peer) (s : State) : (putPeer x s).shodunRevoked = s.shodunRevoked := rfl
@[simp] theorem putPeer_romKeys (x : Peer) (s : State) : (putPeer x s).romKeys = s.romKeys := rfl
@[simp] theorem putPeer_fresh (x : Peer) (s : State) : (putPeer x s).fresh = s.fresh := rfl
@[simp] theorem putPeer_order (x : Peer) (s : State) : (putPeer x s).order = s.order := rfl
@[simp] theorem putPeer_dram (x : Peer) (s : State) : (putPeer x s).dram = s.dram := rfl
@[simp] theorem putPeer_hall (x : Peer) (s : State) : (putPeer x s).hall = s.hall := rfl
@[simp] theorem putPeer_hostMem (x : Peer) (s : State) : (putPeer x s).hostMem = s.hostMem := rfl
@[simp] theorem putPeer_rings (x : Peer) (s : State) : (putPeer x s).rings = s.rings := rfl
@[simp] theorem putPeer_cmds (x : Peer) (s : State) : (putPeer x s).cmds = s.cmds := rfl
@[simp] theorem putPeer_chits (x : Peer) (s : State) : (putPeer x s).chits = s.chits := rfl
@[simp] theorem putPeer_triggers (x : Peer) (s : State) : (putPeer x s).triggers = s.triggers := rfl
@[simp] theorem putPeer_released (x : Peer) (s : State) : (putPeer x s).released = s.released := rfl
@[simp] theorem putPeer_chitWork (x : Peer) (s : State) : (putPeer x s).chitWork = s.chitWork := rfl
@[simp] theorem putPeer_msix (x : Peer) (s : State) : (putPeer x s).msix = s.msix := rfl
@[simp] theorem putPeer_dmaWait (x : Peer) (s : State) : (putPeer x s).dmaWait = s.dmaWait := rfl
@[simp] theorem putPeer_dmaSince (x : Peer) (s : State) : (putPeer x s).dmaSince = s.dmaSince := rfl
@[simp] theorem putPeer_latches (x : Peer) (s : State) : (putPeer x s).latches = s.latches := rfl
@[simp] theorem putPeer_answers (x : Peer) (s : State) : (putPeer x s).answers = s.answers := rfl
@[simp] theorem putPeer_readsHeld (x : Peer) (s : State) : (putPeer x s).readsHeld = s.readsHeld := rfl
@[simp] theorem putPeer_sidebandOut (x : Peer) (s : State) : (putPeer x s).sidebandOut = s.sidebandOut := rfl
@[simp] theorem putPeer_seqs (x : Peer) (s : State) : (putPeer x s).seqs = s.seqs := rfl
@[simp] theorem putPeer_crates (x : Peer) (s : State) : (putPeer x s).crates = s.crates := rfl
@[simp] theorem putPeer_seals (x : Peer) (s : State) : (putPeer x s).seals = s.seals := rfl
@[simp] theorem putPeer_attends (x : Peer) (s : State) : (putPeer x s).attends = s.attends := rfl
@[simp] theorem putPeer_forwards (x : Peer) (s : State) : (putPeer x s).forwards = s.forwards := rfl
@[simp] theorem putPeer_stalls (x : Peer) (s : State) : (putPeer x s).stalls = s.stalls := rfl
@[simp] theorem putPeer_ctxs (x : Peer) (s : State) : (putPeer x s).ctxs = s.ctxs := rfl
@[simp] theorem putPeer_unplaced (x : Peer) (s : State) : (putPeer x s).unplaced = s.unplaced := rfl
@[simp] theorem putPeer_tills (x : Peer) (s : State) : (putPeer x s).tills = s.tills := rfl
@[simp] theorem putPeer_slotStart (x : Peer) (s : State) : (putPeer x s).slotStart = s.slotStart := rfl
@[simp] theorem putPeer_ttWaiters (x : Peer) (s : State) : (putPeer x s).ttWaiters = s.ttWaiters := rfl
@[simp] theorem putPeer_homes (x : Peer) (s : State) : (putPeer x s).homes = s.homes := rfl
@[simp] theorem putPeer_replicas (x : Peer) (s : State) : (putPeer x s).replicas = s.replicas := rfl
@[simp] theorem putPeer_pushOwed (x : Peer) (s : State) : (putPeer x s).pushOwed = s.pushOwed := rfl
@[simp] theorem putPeer_pubs (x : Peer) (s : State) : (putPeer x s).pubs = s.pubs := rfl
@[simp] theorem putPeer_publishes (x : Peer) (s : State) : (putPeer x s).publishes = s.publishes := rfl
@[simp] theorem putPeer_drops (x : Peer) (s : State) : (putPeer x s).drops = s.drops := rfl
@[simp] theorem putPeer_results (x : Peer) (s : State) : (putPeer x s).results = s.results := rfl
@[simp] theorem putPeer_lookups (x : Peer) (s : State) : (putPeer x s).lookups = s.lookups := rfl
@[simp] theorem putPeer_holds (x : Peer) (s : State) : (putPeer x s).holds = s.holds := rfl
@[simp] theorem putPeer_myHolds (x : Peer) (s : State) : (putPeer x s).myHolds = s.myHolds := rfl
@[simp] theorem putPeer_askedHits (x : Peer) (s : State) : (putPeer x s).askedHits = s.askedHits := rfl
@[simp] theorem putPeer_leases (x : Peer) (s : State) : (putPeer x s).leases = s.leases := rfl
@[simp] theorem putPeer_zones (x : Peer) (s : State) : (putPeer x s).zones = s.zones := rfl
@[simp] theorem putPeer_catalogue (x : Peer) (s : State) : (putPeer x s).catalogue = s.catalogue := rfl
@[simp] theorem putPeer_journalRecs (x : Peer) (s : State) : (putPeer x s).journalRecs = s.journalRecs := rfl
@[simp] theorem putPeer_flashQueue (x : Peer) (s : State) : (putPeer x s).flashQueue = s.flashQueue := rfl
@[simp] theorem putPeer_flashHeld (x : Peer) (s : State) : (putPeer x s).flashHeld = s.flashHeld := rfl
@[simp] theorem putPeer_deviceCat (x : Peer) (s : State) : (putPeer x s).deviceCat = s.deviceCat := rfl
@[simp] theorem putPeer_replaying (x : Peer) (s : State) : (putPeer x s).replaying = s.replaying := rfl
@[simp] theorem putPeer_flashTokens (x : Peer) (s : State) : (putPeer x s).flashTokens = s.flashTokens := rfl
@[simp] theorem putPeer_flashFilled (x : Peer) (s : State) : (putPeer x s).flashFilled = s.flashFilled := rfl
@[simp] theorem putPeer_evicting (x : Peer) (s : State) : (putPeer x s).evicting = s.evicting := rfl
@[simp] theorem putPeer_tierWaits (x : Peer) (s : State) : (putPeer x s).tierWaits = s.tierWaits := rfl
@[simp] theorem putPeer_channelsFailed (x : Peer) (s : State) : (putPeer x s).channelsFailed = s.channelsFailed := rfl
@[simp] theorem putPeer_frames (x : Peer) (s : State) : (putPeer x s).frames = s.frames := rfl
@[simp] theorem putPeer_frameErrs (x : Peer) (s : State) : (putPeer x s).frameErrs = s.frameErrs := rfl
@[simp] theorem putPeer_leadRun (x : Peer) (s : State) : (putPeer x s).leadRun = s.leadRun := rfl
@[simp] theorem putPeer_tables (x : Peer) (s : State) : (putPeer x s).tables = s.tables := rfl
@[simp] theorem putPeer_actives (x : Peer) (s : State) : (putPeer x s).actives = s.actives := rfl
@[simp] theorem putPeer_pendingTables (x : Peer) (s : State) : (putPeer x s).pendingTables = s.pendingTables := rfl
@[simp] theorem putPeer_windows (x : Peer) (s : State) : (putPeer x s).windows = s.windows := rfl
@[simp] theorem putPeer_winFreed (x : Peer) (s : State) : (putPeer x s).winFreed = s.winFreed := rfl
@[simp] theorem putPeer_winNext (x : Peer) (s : State) : (putPeer x s).winNext = s.winNext := rfl
@[simp] theorem putPeer_conns (x : Peer) (s : State) : (putPeer x s).conns = s.conns := rfl
@[simp] theorem putPeer_reads (x : Peer) (s : State) : (putPeer x s).reads = s.reads := rfl
@[simp] theorem putPeer_ports (x : Peer) (s : State) : (putPeer x s).ports = s.ports := rfl
@[simp] theorem putPeer_wire (x : Peer) (s : State) : (putPeer x s).wire = s.wire := rfl
@[simp] theorem putPeer_svcOut (x : Peer) (s : State) : (putPeer x s).svcOut = s.svcOut := rfl
@[simp] theorem putPeer_cxlLines (x : Peer) (s : State) : (putPeer x s).cxlLines = s.cxlLines := rfl
@[simp] theorem putPeer_cxlWaiting (x : Peer) (s : State) : (putPeer x s).cxlWaiting = s.cxlWaiting := rfl
@[simp] theorem putPeer_ledgerPoison (x : Peer) (s : State) : (putPeer x s).ledgerPoison = s.ledgerPoison := rfl
@[simp] theorem putPeer_poison (x : Peer) (s : State) : (putPeer x s).poison = s.poison := rfl
@[simp] theorem putPeer_cxlOut (x : Peer) (s : State) : (putPeer x s).cxlOut = s.cxlOut := rfl
@[simp] theorem putPeer_keyArea (x : Peer) (s : State) : (putPeer x s).keyArea = s.keyArea := rfl
@[simp] theorem putPeer_flashKeys (x : Peer) (s : State) : (putPeer x s).flashKeys = s.flashKeys := rfl
@[simp] theorem putPeer_sessions (x : Peer) (s : State) : (putPeer x s).sessions = s.sessions := rfl
@[simp] theorem putPeer_serials (x : Peer) (s : State) : (putPeer x s).serials = s.serials := rfl
@[simp] theorem putPeer_releases (x : Peer) (s : State) : (putPeer x s).releases = s.releases := rfl
@[simp] theorem putPeer_attestWait (x : Peer) (s : State) : (putPeer x s).attestWait = s.attestWait := rfl
@[simp] theorem putPeer_certs (x : Peer) (s : State) : (putPeer x s).certs = s.certs := rfl
@[simp] theorem putPeer_xspi (x : Peer) (s : State) : (putPeer x s).xspi = s.xspi := rfl
@[simp] theorem putPeer_fwRunning (x : Peer) (s : State) : (putPeer x s).fwRunning = s.fwRunning := rfl
@[simp] theorem putPeer_rotRunning (x : Peer) (s : State) : (putPeer x s).rotRunning = s.rotRunning := rfl
@[simp] theorem putPeer_planImage (x : Peer) (s : State) : (putPeer x s).planImage = s.planImage := rfl
@[simp] theorem putPeer_live (x : Peer) (s : State) : (putPeer x s).live = s.live := rfl
@[simp] theorem putPeer_cores (x : Peer) (s : State) : (putPeer x s).cores = s.cores := rfl
@[simp] theorem putPeer_restarts (x : Peer) (s : State) : (putPeer x s).restarts = s.restarts := rfl
@[simp] theorem putPeer_bootedAt (x : Peer) (s : State) : (putPeer x s).bootedAt = s.bootedAt := rfl
@[simp] theorem putPeer_bootStep (x : Peer) (s : State) : (putPeer x s).bootStep = s.bootStep := rfl
@[simp] theorem putPeer_fatalAt (x : Peer) (s : State) : (putPeer x s).fatalAt = s.fatalAt := rfl
@[simp] theorem putPeer_stagedOk (x : Peer) (s : State) : (putPeer x s).stagedOk = s.stagedOk := rfl
@[simp] theorem putPeer_power (x : Peer) (s : State) : (putPeer x s).power = s.power := rfl
@[simp] theorem putPeer_crier (x : Peer) (s : State) : (putPeer x s).crier = s.crier := rfl
@[simp] theorem putPeer_traces (x : Peer) (s : State) : (putPeer x s).traces = s.traces := rfl

@[simp] theorem onPort_pending (p : Nat) (f : Port → Port) (s : State) : (onPort p f s).pending = s.pending := rfl
@[simp] theorem onPort_localTime (p : Nat) (f : Port → Port) (s : State) : (onPort p f s).localTime = s.localTime := rfl
@[simp] theorem onPort_phase (p : Nat) (f : Port → Port) (s : State) : (onPort p f s).phase = s.phase := rfl
@[simp] theorem onPort_plan (p : Nat) (f : Port → Port) (s : State) : (onPort p f s).plan = s.plan := rfl
@[simp] theorem onPort_fuses (p : Nat) (f : Port → Port) (s : State) : (onPort p f s).fuses = s.fuses := rfl
@[simp] theorem onPort_regs (p : Nat) (f : Port → Port) (s : State) : (onPort p f s).regs = s.regs := rfl
@[simp] theorem onPort_raw (p : Nat) (f : Port → Port) (s : State) : (onPort p f s).raw = s.raw := rfl
@[simp] theorem onPort_p0Regs (p : Nat) (f : Port → Port) (s : State) : (onPort p f s).p0Regs = s.p0Regs := rfl
@[simp] theorem onPort_ownerKeys (p : Nat) (f : Port → Port) (s : State) : (onPort p f s).ownerKeys = s.ownerKeys := rfl
@[simp] theorem onPort_shodunRevoked (p : Nat) (f : Port → Port) (s : State) : (onPort p f s).shodunRevoked = s.shodunRevoked := rfl
@[simp] theorem onPort_romKeys (p : Nat) (f : Port → Port) (s : State) : (onPort p f s).romKeys = s.romKeys := rfl
@[simp] theorem onPort_fresh (p : Nat) (f : Port → Port) (s : State) : (onPort p f s).fresh = s.fresh := rfl
@[simp] theorem onPort_order (p : Nat) (f : Port → Port) (s : State) : (onPort p f s).order = s.order := rfl
@[simp] theorem onPort_dram (p : Nat) (f : Port → Port) (s : State) : (onPort p f s).dram = s.dram := rfl
@[simp] theorem onPort_hall (p : Nat) (f : Port → Port) (s : State) : (onPort p f s).hall = s.hall := rfl
@[simp] theorem onPort_hostMem (p : Nat) (f : Port → Port) (s : State) : (onPort p f s).hostMem = s.hostMem := rfl
@[simp] theorem onPort_rings (p : Nat) (f : Port → Port) (s : State) : (onPort p f s).rings = s.rings := rfl
@[simp] theorem onPort_cmds (p : Nat) (f : Port → Port) (s : State) : (onPort p f s).cmds = s.cmds := rfl
@[simp] theorem onPort_chits (p : Nat) (f : Port → Port) (s : State) : (onPort p f s).chits = s.chits := rfl
@[simp] theorem onPort_triggers (p : Nat) (f : Port → Port) (s : State) : (onPort p f s).triggers = s.triggers := rfl
@[simp] theorem onPort_released (p : Nat) (f : Port → Port) (s : State) : (onPort p f s).released = s.released := rfl
@[simp] theorem onPort_chitWork (p : Nat) (f : Port → Port) (s : State) : (onPort p f s).chitWork = s.chitWork := rfl
@[simp] theorem onPort_msix (p : Nat) (f : Port → Port) (s : State) : (onPort p f s).msix = s.msix := rfl
@[simp] theorem onPort_dmaWait (p : Nat) (f : Port → Port) (s : State) : (onPort p f s).dmaWait = s.dmaWait := rfl
@[simp] theorem onPort_dmaSince (p : Nat) (f : Port → Port) (s : State) : (onPort p f s).dmaSince = s.dmaSince := rfl
@[simp] theorem onPort_latches (p : Nat) (f : Port → Port) (s : State) : (onPort p f s).latches = s.latches := rfl
@[simp] theorem onPort_answers (p : Nat) (f : Port → Port) (s : State) : (onPort p f s).answers = s.answers := rfl
@[simp] theorem onPort_readsHeld (p : Nat) (f : Port → Port) (s : State) : (onPort p f s).readsHeld = s.readsHeld := rfl
@[simp] theorem onPort_sidebandOut (p : Nat) (f : Port → Port) (s : State) : (onPort p f s).sidebandOut = s.sidebandOut := rfl
@[simp] theorem onPort_seqs (p : Nat) (f : Port → Port) (s : State) : (onPort p f s).seqs = s.seqs := rfl
@[simp] theorem onPort_crates (p : Nat) (f : Port → Port) (s : State) : (onPort p f s).crates = s.crates := rfl
@[simp] theorem onPort_seals (p : Nat) (f : Port → Port) (s : State) : (onPort p f s).seals = s.seals := rfl
@[simp] theorem onPort_attends (p : Nat) (f : Port → Port) (s : State) : (onPort p f s).attends = s.attends := rfl
@[simp] theorem onPort_forwards (p : Nat) (f : Port → Port) (s : State) : (onPort p f s).forwards = s.forwards := rfl
@[simp] theorem onPort_stalls (p : Nat) (f : Port → Port) (s : State) : (onPort p f s).stalls = s.stalls := rfl
@[simp] theorem onPort_ctxs (p : Nat) (f : Port → Port) (s : State) : (onPort p f s).ctxs = s.ctxs := rfl
@[simp] theorem onPort_unplaced (p : Nat) (f : Port → Port) (s : State) : (onPort p f s).unplaced = s.unplaced := rfl
@[simp] theorem onPort_tills (p : Nat) (f : Port → Port) (s : State) : (onPort p f s).tills = s.tills := rfl
@[simp] theorem onPort_slotStart (p : Nat) (f : Port → Port) (s : State) : (onPort p f s).slotStart = s.slotStart := rfl
@[simp] theorem onPort_ttWaiters (p : Nat) (f : Port → Port) (s : State) : (onPort p f s).ttWaiters = s.ttWaiters := rfl
@[simp] theorem onPort_homes (p : Nat) (f : Port → Port) (s : State) : (onPort p f s).homes = s.homes := rfl
@[simp] theorem onPort_replicas (p : Nat) (f : Port → Port) (s : State) : (onPort p f s).replicas = s.replicas := rfl
@[simp] theorem onPort_pushOwed (p : Nat) (f : Port → Port) (s : State) : (onPort p f s).pushOwed = s.pushOwed := rfl
@[simp] theorem onPort_pubs (p : Nat) (f : Port → Port) (s : State) : (onPort p f s).pubs = s.pubs := rfl
@[simp] theorem onPort_publishes (p : Nat) (f : Port → Port) (s : State) : (onPort p f s).publishes = s.publishes := rfl
@[simp] theorem onPort_drops (p : Nat) (f : Port → Port) (s : State) : (onPort p f s).drops = s.drops := rfl
@[simp] theorem onPort_results (p : Nat) (f : Port → Port) (s : State) : (onPort p f s).results = s.results := rfl
@[simp] theorem onPort_lookups (p : Nat) (f : Port → Port) (s : State) : (onPort p f s).lookups = s.lookups := rfl
@[simp] theorem onPort_holds (p : Nat) (f : Port → Port) (s : State) : (onPort p f s).holds = s.holds := rfl
@[simp] theorem onPort_myHolds (p : Nat) (f : Port → Port) (s : State) : (onPort p f s).myHolds = s.myHolds := rfl
@[simp] theorem onPort_askedHits (p : Nat) (f : Port → Port) (s : State) : (onPort p f s).askedHits = s.askedHits := rfl
@[simp] theorem onPort_leases (p : Nat) (f : Port → Port) (s : State) : (onPort p f s).leases = s.leases := rfl
@[simp] theorem onPort_zones (p : Nat) (f : Port → Port) (s : State) : (onPort p f s).zones = s.zones := rfl
@[simp] theorem onPort_catalogue (p : Nat) (f : Port → Port) (s : State) : (onPort p f s).catalogue = s.catalogue := rfl
@[simp] theorem onPort_journalRecs (p : Nat) (f : Port → Port) (s : State) : (onPort p f s).journalRecs = s.journalRecs := rfl
@[simp] theorem onPort_flashQueue (p : Nat) (f : Port → Port) (s : State) : (onPort p f s).flashQueue = s.flashQueue := rfl
@[simp] theorem onPort_flashHeld (p : Nat) (f : Port → Port) (s : State) : (onPort p f s).flashHeld = s.flashHeld := rfl
@[simp] theorem onPort_deviceCat (p : Nat) (f : Port → Port) (s : State) : (onPort p f s).deviceCat = s.deviceCat := rfl
@[simp] theorem onPort_replaying (p : Nat) (f : Port → Port) (s : State) : (onPort p f s).replaying = s.replaying := rfl
@[simp] theorem onPort_flashTokens (p : Nat) (f : Port → Port) (s : State) : (onPort p f s).flashTokens = s.flashTokens := rfl
@[simp] theorem onPort_flashFilled (p : Nat) (f : Port → Port) (s : State) : (onPort p f s).flashFilled = s.flashFilled := rfl
@[simp] theorem onPort_evicting (p : Nat) (f : Port → Port) (s : State) : (onPort p f s).evicting = s.evicting := rfl
@[simp] theorem onPort_tierWaits (p : Nat) (f : Port → Port) (s : State) : (onPort p f s).tierWaits = s.tierWaits := rfl
@[simp] theorem onPort_channelsFailed (p : Nat) (f : Port → Port) (s : State) : (onPort p f s).channelsFailed = s.channelsFailed := rfl
@[simp] theorem onPort_frames (p : Nat) (f : Port → Port) (s : State) : (onPort p f s).frames = s.frames := rfl
@[simp] theorem onPort_frameErrs (p : Nat) (f : Port → Port) (s : State) : (onPort p f s).frameErrs = s.frameErrs := rfl
@[simp] theorem onPort_leadRun (p : Nat) (f : Port → Port) (s : State) : (onPort p f s).leadRun = s.leadRun := rfl
@[simp] theorem onPort_tables (p : Nat) (f : Port → Port) (s : State) : (onPort p f s).tables = s.tables := rfl
@[simp] theorem onPort_actives (p : Nat) (f : Port → Port) (s : State) : (onPort p f s).actives = s.actives := rfl
@[simp] theorem onPort_pendingTables (p : Nat) (f : Port → Port) (s : State) : (onPort p f s).pendingTables = s.pendingTables := rfl
@[simp] theorem onPort_windows (p : Nat) (f : Port → Port) (s : State) : (onPort p f s).windows = s.windows := rfl
@[simp] theorem onPort_winFreed (p : Nat) (f : Port → Port) (s : State) : (onPort p f s).winFreed = s.winFreed := rfl
@[simp] theorem onPort_winNext (p : Nat) (f : Port → Port) (s : State) : (onPort p f s).winNext = s.winNext := rfl
@[simp] theorem onPort_conns (p : Nat) (f : Port → Port) (s : State) : (onPort p f s).conns = s.conns := rfl
@[simp] theorem onPort_reads (p : Nat) (f : Port → Port) (s : State) : (onPort p f s).reads = s.reads := rfl
@[simp] theorem onPort_peers (p : Nat) (f : Port → Port) (s : State) : (onPort p f s).peers = s.peers := rfl
@[simp] theorem onPort_wire (p : Nat) (f : Port → Port) (s : State) : (onPort p f s).wire = s.wire := rfl
@[simp] theorem onPort_svcOut (p : Nat) (f : Port → Port) (s : State) : (onPort p f s).svcOut = s.svcOut := rfl
@[simp] theorem onPort_cxlLines (p : Nat) (f : Port → Port) (s : State) : (onPort p f s).cxlLines = s.cxlLines := rfl
@[simp] theorem onPort_cxlWaiting (p : Nat) (f : Port → Port) (s : State) : (onPort p f s).cxlWaiting = s.cxlWaiting := rfl
@[simp] theorem onPort_ledgerPoison (p : Nat) (f : Port → Port) (s : State) : (onPort p f s).ledgerPoison = s.ledgerPoison := rfl
@[simp] theorem onPort_poison (p : Nat) (f : Port → Port) (s : State) : (onPort p f s).poison = s.poison := rfl
@[simp] theorem onPort_cxlOut (p : Nat) (f : Port → Port) (s : State) : (onPort p f s).cxlOut = s.cxlOut := rfl
@[simp] theorem onPort_keyArea (p : Nat) (f : Port → Port) (s : State) : (onPort p f s).keyArea = s.keyArea := rfl
@[simp] theorem onPort_flashKeys (p : Nat) (f : Port → Port) (s : State) : (onPort p f s).flashKeys = s.flashKeys := rfl
@[simp] theorem onPort_sessions (p : Nat) (f : Port → Port) (s : State) : (onPort p f s).sessions = s.sessions := rfl
@[simp] theorem onPort_serials (p : Nat) (f : Port → Port) (s : State) : (onPort p f s).serials = s.serials := rfl
@[simp] theorem onPort_releases (p : Nat) (f : Port → Port) (s : State) : (onPort p f s).releases = s.releases := rfl
@[simp] theorem onPort_attestWait (p : Nat) (f : Port → Port) (s : State) : (onPort p f s).attestWait = s.attestWait := rfl
@[simp] theorem onPort_certs (p : Nat) (f : Port → Port) (s : State) : (onPort p f s).certs = s.certs := rfl
@[simp] theorem onPort_xspi (p : Nat) (f : Port → Port) (s : State) : (onPort p f s).xspi = s.xspi := rfl
@[simp] theorem onPort_fwRunning (p : Nat) (f : Port → Port) (s : State) : (onPort p f s).fwRunning = s.fwRunning := rfl
@[simp] theorem onPort_rotRunning (p : Nat) (f : Port → Port) (s : State) : (onPort p f s).rotRunning = s.rotRunning := rfl
@[simp] theorem onPort_planImage (p : Nat) (f : Port → Port) (s : State) : (onPort p f s).planImage = s.planImage := rfl
@[simp] theorem onPort_live (p : Nat) (f : Port → Port) (s : State) : (onPort p f s).live = s.live := rfl
@[simp] theorem onPort_cores (p : Nat) (f : Port → Port) (s : State) : (onPort p f s).cores = s.cores := rfl
@[simp] theorem onPort_restarts (p : Nat) (f : Port → Port) (s : State) : (onPort p f s).restarts = s.restarts := rfl
@[simp] theorem onPort_bootedAt (p : Nat) (f : Port → Port) (s : State) : (onPort p f s).bootedAt = s.bootedAt := rfl
@[simp] theorem onPort_bootStep (p : Nat) (f : Port → Port) (s : State) : (onPort p f s).bootStep = s.bootStep := rfl
@[simp] theorem onPort_fatalAt (p : Nat) (f : Port → Port) (s : State) : (onPort p f s).fatalAt = s.fatalAt := rfl
@[simp] theorem onPort_stagedOk (p : Nat) (f : Port → Port) (s : State) : (onPort p f s).stagedOk = s.stagedOk := rfl
@[simp] theorem onPort_power (p : Nat) (f : Port → Port) (s : State) : (onPort p f s).power = s.power := rfl
@[simp] theorem onPort_crier (p : Nat) (f : Port → Port) (s : State) : (onPort p f s).crier = s.crier := rfl
@[simp] theorem onPort_traces (p : Nat) (f : Port → Port) (s : State) : (onPort p f s).traces = s.traces := rfl

@[simp] theorem putConn_pending (x : Conn) (s : State) : (putConn x s).pending = s.pending := rfl
@[simp] theorem putConn_localTime (x : Conn) (s : State) : (putConn x s).localTime = s.localTime := rfl
@[simp] theorem putConn_phase (x : Conn) (s : State) : (putConn x s).phase = s.phase := rfl
@[simp] theorem putConn_plan (x : Conn) (s : State) : (putConn x s).plan = s.plan := rfl
@[simp] theorem putConn_fuses (x : Conn) (s : State) : (putConn x s).fuses = s.fuses := rfl
@[simp] theorem putConn_regs (x : Conn) (s : State) : (putConn x s).regs = s.regs := rfl
@[simp] theorem putConn_raw (x : Conn) (s : State) : (putConn x s).raw = s.raw := rfl
@[simp] theorem putConn_p0Regs (x : Conn) (s : State) : (putConn x s).p0Regs = s.p0Regs := rfl
@[simp] theorem putConn_ownerKeys (x : Conn) (s : State) : (putConn x s).ownerKeys = s.ownerKeys := rfl
@[simp] theorem putConn_shodunRevoked (x : Conn) (s : State) : (putConn x s).shodunRevoked = s.shodunRevoked := rfl
@[simp] theorem putConn_romKeys (x : Conn) (s : State) : (putConn x s).romKeys = s.romKeys := rfl
@[simp] theorem putConn_fresh (x : Conn) (s : State) : (putConn x s).fresh = s.fresh := rfl
@[simp] theorem putConn_order (x : Conn) (s : State) : (putConn x s).order = s.order := rfl
@[simp] theorem putConn_dram (x : Conn) (s : State) : (putConn x s).dram = s.dram := rfl
@[simp] theorem putConn_hall (x : Conn) (s : State) : (putConn x s).hall = s.hall := rfl
@[simp] theorem putConn_hostMem (x : Conn) (s : State) : (putConn x s).hostMem = s.hostMem := rfl
@[simp] theorem putConn_rings (x : Conn) (s : State) : (putConn x s).rings = s.rings := rfl
@[simp] theorem putConn_cmds (x : Conn) (s : State) : (putConn x s).cmds = s.cmds := rfl
@[simp] theorem putConn_chits (x : Conn) (s : State) : (putConn x s).chits = s.chits := rfl
@[simp] theorem putConn_triggers (x : Conn) (s : State) : (putConn x s).triggers = s.triggers := rfl
@[simp] theorem putConn_released (x : Conn) (s : State) : (putConn x s).released = s.released := rfl
@[simp] theorem putConn_chitWork (x : Conn) (s : State) : (putConn x s).chitWork = s.chitWork := rfl
@[simp] theorem putConn_msix (x : Conn) (s : State) : (putConn x s).msix = s.msix := rfl
@[simp] theorem putConn_dmaWait (x : Conn) (s : State) : (putConn x s).dmaWait = s.dmaWait := rfl
@[simp] theorem putConn_dmaSince (x : Conn) (s : State) : (putConn x s).dmaSince = s.dmaSince := rfl
@[simp] theorem putConn_latches (x : Conn) (s : State) : (putConn x s).latches = s.latches := rfl
@[simp] theorem putConn_answers (x : Conn) (s : State) : (putConn x s).answers = s.answers := rfl
@[simp] theorem putConn_readsHeld (x : Conn) (s : State) : (putConn x s).readsHeld = s.readsHeld := rfl
@[simp] theorem putConn_sidebandOut (x : Conn) (s : State) : (putConn x s).sidebandOut = s.sidebandOut := rfl
@[simp] theorem putConn_seqs (x : Conn) (s : State) : (putConn x s).seqs = s.seqs := rfl
@[simp] theorem putConn_crates (x : Conn) (s : State) : (putConn x s).crates = s.crates := rfl
@[simp] theorem putConn_seals (x : Conn) (s : State) : (putConn x s).seals = s.seals := rfl
@[simp] theorem putConn_attends (x : Conn) (s : State) : (putConn x s).attends = s.attends := rfl
@[simp] theorem putConn_forwards (x : Conn) (s : State) : (putConn x s).forwards = s.forwards := rfl
@[simp] theorem putConn_stalls (x : Conn) (s : State) : (putConn x s).stalls = s.stalls := rfl
@[simp] theorem putConn_ctxs (x : Conn) (s : State) : (putConn x s).ctxs = s.ctxs := rfl
@[simp] theorem putConn_unplaced (x : Conn) (s : State) : (putConn x s).unplaced = s.unplaced := rfl
@[simp] theorem putConn_tills (x : Conn) (s : State) : (putConn x s).tills = s.tills := rfl
@[simp] theorem putConn_slotStart (x : Conn) (s : State) : (putConn x s).slotStart = s.slotStart := rfl
@[simp] theorem putConn_ttWaiters (x : Conn) (s : State) : (putConn x s).ttWaiters = s.ttWaiters := rfl
@[simp] theorem putConn_homes (x : Conn) (s : State) : (putConn x s).homes = s.homes := rfl
@[simp] theorem putConn_replicas (x : Conn) (s : State) : (putConn x s).replicas = s.replicas := rfl
@[simp] theorem putConn_pushOwed (x : Conn) (s : State) : (putConn x s).pushOwed = s.pushOwed := rfl
@[simp] theorem putConn_pubs (x : Conn) (s : State) : (putConn x s).pubs = s.pubs := rfl
@[simp] theorem putConn_publishes (x : Conn) (s : State) : (putConn x s).publishes = s.publishes := rfl
@[simp] theorem putConn_drops (x : Conn) (s : State) : (putConn x s).drops = s.drops := rfl
@[simp] theorem putConn_results (x : Conn) (s : State) : (putConn x s).results = s.results := rfl
@[simp] theorem putConn_lookups (x : Conn) (s : State) : (putConn x s).lookups = s.lookups := rfl
@[simp] theorem putConn_holds (x : Conn) (s : State) : (putConn x s).holds = s.holds := rfl
@[simp] theorem putConn_myHolds (x : Conn) (s : State) : (putConn x s).myHolds = s.myHolds := rfl
@[simp] theorem putConn_askedHits (x : Conn) (s : State) : (putConn x s).askedHits = s.askedHits := rfl
@[simp] theorem putConn_leases (x : Conn) (s : State) : (putConn x s).leases = s.leases := rfl
@[simp] theorem putConn_zones (x : Conn) (s : State) : (putConn x s).zones = s.zones := rfl
@[simp] theorem putConn_catalogue (x : Conn) (s : State) : (putConn x s).catalogue = s.catalogue := rfl
@[simp] theorem putConn_journalRecs (x : Conn) (s : State) : (putConn x s).journalRecs = s.journalRecs := rfl
@[simp] theorem putConn_flashQueue (x : Conn) (s : State) : (putConn x s).flashQueue = s.flashQueue := rfl
@[simp] theorem putConn_flashHeld (x : Conn) (s : State) : (putConn x s).flashHeld = s.flashHeld := rfl
@[simp] theorem putConn_deviceCat (x : Conn) (s : State) : (putConn x s).deviceCat = s.deviceCat := rfl
@[simp] theorem putConn_replaying (x : Conn) (s : State) : (putConn x s).replaying = s.replaying := rfl
@[simp] theorem putConn_flashTokens (x : Conn) (s : State) : (putConn x s).flashTokens = s.flashTokens := rfl
@[simp] theorem putConn_flashFilled (x : Conn) (s : State) : (putConn x s).flashFilled = s.flashFilled := rfl
@[simp] theorem putConn_evicting (x : Conn) (s : State) : (putConn x s).evicting = s.evicting := rfl
@[simp] theorem putConn_tierWaits (x : Conn) (s : State) : (putConn x s).tierWaits = s.tierWaits := rfl
@[simp] theorem putConn_channelsFailed (x : Conn) (s : State) : (putConn x s).channelsFailed = s.channelsFailed := rfl
@[simp] theorem putConn_frames (x : Conn) (s : State) : (putConn x s).frames = s.frames := rfl
@[simp] theorem putConn_frameErrs (x : Conn) (s : State) : (putConn x s).frameErrs = s.frameErrs := rfl
@[simp] theorem putConn_leadRun (x : Conn) (s : State) : (putConn x s).leadRun = s.leadRun := rfl
@[simp] theorem putConn_tables (x : Conn) (s : State) : (putConn x s).tables = s.tables := rfl
@[simp] theorem putConn_actives (x : Conn) (s : State) : (putConn x s).actives = s.actives := rfl
@[simp] theorem putConn_pendingTables (x : Conn) (s : State) : (putConn x s).pendingTables = s.pendingTables := rfl
@[simp] theorem putConn_windows (x : Conn) (s : State) : (putConn x s).windows = s.windows := rfl
@[simp] theorem putConn_winFreed (x : Conn) (s : State) : (putConn x s).winFreed = s.winFreed := rfl
@[simp] theorem putConn_winNext (x : Conn) (s : State) : (putConn x s).winNext = s.winNext := rfl
@[simp] theorem putConn_reads (x : Conn) (s : State) : (putConn x s).reads = s.reads := rfl
@[simp] theorem putConn_peers (x : Conn) (s : State) : (putConn x s).peers = s.peers := rfl
@[simp] theorem putConn_ports (x : Conn) (s : State) : (putConn x s).ports = s.ports := rfl
@[simp] theorem putConn_wire (x : Conn) (s : State) : (putConn x s).wire = s.wire := rfl
@[simp] theorem putConn_svcOut (x : Conn) (s : State) : (putConn x s).svcOut = s.svcOut := rfl
@[simp] theorem putConn_cxlLines (x : Conn) (s : State) : (putConn x s).cxlLines = s.cxlLines := rfl
@[simp] theorem putConn_cxlWaiting (x : Conn) (s : State) : (putConn x s).cxlWaiting = s.cxlWaiting := rfl
@[simp] theorem putConn_ledgerPoison (x : Conn) (s : State) : (putConn x s).ledgerPoison = s.ledgerPoison := rfl
@[simp] theorem putConn_poison (x : Conn) (s : State) : (putConn x s).poison = s.poison := rfl
@[simp] theorem putConn_cxlOut (x : Conn) (s : State) : (putConn x s).cxlOut = s.cxlOut := rfl
@[simp] theorem putConn_keyArea (x : Conn) (s : State) : (putConn x s).keyArea = s.keyArea := rfl
@[simp] theorem putConn_flashKeys (x : Conn) (s : State) : (putConn x s).flashKeys = s.flashKeys := rfl
@[simp] theorem putConn_sessions (x : Conn) (s : State) : (putConn x s).sessions = s.sessions := rfl
@[simp] theorem putConn_serials (x : Conn) (s : State) : (putConn x s).serials = s.serials := rfl
@[simp] theorem putConn_releases (x : Conn) (s : State) : (putConn x s).releases = s.releases := rfl
@[simp] theorem putConn_attestWait (x : Conn) (s : State) : (putConn x s).attestWait = s.attestWait := rfl
@[simp] theorem putConn_certs (x : Conn) (s : State) : (putConn x s).certs = s.certs := rfl
@[simp] theorem putConn_xspi (x : Conn) (s : State) : (putConn x s).xspi = s.xspi := rfl
@[simp] theorem putConn_fwRunning (x : Conn) (s : State) : (putConn x s).fwRunning = s.fwRunning := rfl
@[simp] theorem putConn_rotRunning (x : Conn) (s : State) : (putConn x s).rotRunning = s.rotRunning := rfl
@[simp] theorem putConn_planImage (x : Conn) (s : State) : (putConn x s).planImage = s.planImage := rfl
@[simp] theorem putConn_live (x : Conn) (s : State) : (putConn x s).live = s.live := rfl
@[simp] theorem putConn_cores (x : Conn) (s : State) : (putConn x s).cores = s.cores := rfl
@[simp] theorem putConn_restarts (x : Conn) (s : State) : (putConn x s).restarts = s.restarts := rfl
@[simp] theorem putConn_bootedAt (x : Conn) (s : State) : (putConn x s).bootedAt = s.bootedAt := rfl
@[simp] theorem putConn_bootStep (x : Conn) (s : State) : (putConn x s).bootStep = s.bootStep := rfl
@[simp] theorem putConn_fatalAt (x : Conn) (s : State) : (putConn x s).fatalAt = s.fatalAt := rfl
@[simp] theorem putConn_stagedOk (x : Conn) (s : State) : (putConn x s).stagedOk = s.stagedOk := rfl
@[simp] theorem putConn_power (x : Conn) (s : State) : (putConn x s).power = s.power := rfl
@[simp] theorem putConn_crier (x : Conn) (s : State) : (putConn x s).crier = s.crier := rfl
@[simp] theorem putConn_traces (x : Conn) (s : State) : (putConn x s).traces = s.traces := rfl

@[simp] theorem reach_localTime (t : Nat) (s : State) : (reach t s).localTime = max s.localTime t := rfl
@[simp] theorem freshen_fresh (s : State) : (freshen s).fresh = s.fresh + 1 := rfl
@[simp] theorem ordered_order (s : State) : (ordered s).order = s.order + 1 := rfl
@[simp] theorem tell_svcOut (q : Nat) (m : SvcMsg) (s : State) :
    (tell q m s).svcOut = if m.onService && (serviceConn s q).isNone then s.svcOut else s.svcOut ++ [(q, m)] := by
  unfold tell; split <;> simp_all
@[simp] theorem onCmd_cmds (id : Nat) (f : Cmd → Cmd) (s : State) : (onCmd id f s).cmds = upd (fun c => c.id == id) f s.cmds := rfl
@[simp] theorem onSeq_seqs (uid : Nat) (f : Machine.Seq → Machine.Seq) (s : State) :
    (onSeq uid f s).seqs = upd (fun q => q.uid == uid) f s.seqs := rfl
@[simp] theorem onCrate_crates (id : Nat) (f : Crate → Crate) (s : State) :
    (onCrate id f s).crates = upd (fun c => c.id == id) f s.crates := rfl

end Sys2Proof.Machine
end

