-- ==== Sys2Proof/Laws/Tables.lean ====
section
/-! SUPPORT. Tables of the state: what an update of one member, a new member and a repeated operation come to. -/
namespace Sys2Proof.Machine

/-- Repeating nothing. -/
@[simp] theorem each_nil {α : Type} (f : α → State → State) (s : State) : each [] f s = s := rfl

/-- Repeating over a first member and the rest. -/
@[simp] theorem each_cons {α : Type} (x : α) (l : List α) (f : α → State → State) (s : State) :
    each (x :: l) f s = each l f (f x s) := rfl

/-- What every repetition keeps, the whole keeps. -/
theorem each_keeps {α β : Type} (view : State → β) (f : α → State → State) :
    ∀ (l : List α) (s : State), (∀ x ∈ l, ∀ u, view (f x u) = view u) → view (each l f s) = view s := by
  intro l
  induction l with
  | nil => exact fun s _ => rfl
  | cons x t ih =>
    intro s h
    rw [each_cons, ih (f x s) (fun y hy => h y (List.mem_cons_of_mem _ hy)), h x (List.mem_cons_self ..)]

/-- What holds at first and after every repetition, holds at the end. -/
theorem each_invariant {α : Type} (inv : State → Prop) (f : α → State → State) :
    ∀ (l : List α) (s : State), inv s → (∀ x ∈ l, ∀ u, inv u → inv (f x u)) → inv (each l f s) := by
  intro l
  induction l with
  | nil => exact fun s h _ => h
  | cons x t ih =>
    intro s h k
    exact ih (f x s) (k x (List.mem_cons_self ..) s h) (fun y hy => k y (List.mem_cons_of_mem _ hy))

/-- A table keeps its size under an update. -/
@[simp] theorem upd_length {α : Type} (p : α → Bool) (f : α → α) (l : List α) : (upd p f l).length = l.length := by
  simp [upd]

/-- Members that an update does not pick stay; a picked one is found changed. -/
theorem find_upd {α : Type} (p : α → Bool) (f : α → α) (l : List α) (keeps : ∀ x ∈ l, p x = true → p (f x) = true) :
    (upd p f l).find? p = (l.find? p).map f := by
  induction l with
  | nil => rfl
  | cons x t ih =>
    have ih := ih (fun y hy => keeps y (List.mem_cons_of_mem _ hy))
    by_cases h : p x = true
    · simp [upd, h, keeps x (List.mem_cons_self ..) h]
    · have h : p x = false := by simpa using h
      simpa [upd, h] using ih

/-- A crate after its change. -/
theorem crateOf_onCrate (id : Nat) (f : Crate → Crate) (s : State) (hf : ∀ c, (f c).id = c.id) :
    crateOf (onCrate id f s) id = (crateOf s id).map f :=
  find_upd _ _ _ (fun x _ h => by simpa [hf] using h)

/-- A sequence after its change. -/
theorem seqOf_onSeq (uid : Nat) (f : Seq → Seq) (s : State) (hf : ∀ q, (f q).uid = q.uid) :
    seqOf (onSeq uid f s) uid = (seqOf s uid).map f :=
  find_upd _ _ _ (fun x _ h => by simpa [hf] using h)

/-- A command after its change. -/
theorem cmdOf_onCmd (id : Nat) (f : Cmd → Cmd) (s : State) (hf : ∀ c, (f c).id = c.id) :
    cmdOf (onCmd id f s) id = (cmdOf s id).map f :=
  find_upd _ _ _ (fun x _ h => by simpa [hf] using h)

/-- What a ring holds after its change. -/
theorem ringOf_onRing (r : Nat) (f : Ring → Ring) (s : State) (hf : ∀ x, (f x).num = x.num) :
    ringOf (onRing r f s) r = f (ringOf s r) := by
  have num : (ringOf s r).num = r := by
    unfold ringOf
    cases h : s.rings.find? (fun x => x.num == r) with
    | none => rfl
    | some x => simpa using List.find?_some h
  have same : (f (ringOf s r)).num = r := by rw [hf, num]
  show ((if s.rings.any (fun y => y.num == (f (ringOf s r)).num) then
      upd (fun y => y.num == (f (ringOf s r)).num) (fun _ => f (ringOf s r)) s.rings
    else s.rings ++ [f (ringOf s r)]).find? (fun x => x.num == r)).getD (Ring.fresh r) = f (ringOf s r)
  rw [same]
  by_cases h : s.rings.any (fun y => y.num == r) = true
  · rw [if_pos h, find_upd _ _ _ (fun _ _ _ => by simp [same])]
    obtain ⟨x, hx, e⟩ := List.any_eq_true.mp h
    have : (s.rings.find? (fun x => x.num == r)).isSome = true := List.find?_isSome.mpr ⟨x, hx, e⟩
    obtain ⟨y, hy⟩ := Option.isSome_iff_exists.mp this
    rw [hy]; rfl
  · rw [if_neg h, List.find?_append]
    have : s.rings.find? (fun x => x.num == r) = none := by
      rw [List.find?_eq_none]
      intro x hx e
      exact h (List.any_eq_true.mpr ⟨x, hx, e⟩)
    simp [this, same]

/-- A command just fetched is found by its number. -/
theorem cmdOf_fetched (s : State) (c : Cmd) (r : Nat) (g : Ring → Ring) (h : s.cmds.any (fun x => x.id == c.id) = false) :
    cmdOf (onRing r g { s with cmds := s.cmds ++ [c] }) c.id = some c := by
  have : s.cmds.find? (fun x => x.id == c.id) = none := by
    rw [List.find?_eq_none]
    intro x hx e
    have := List.any_eq_false.mp h x hx
    exact this e
  show (s.cmds ++ [c]).find? (fun x => x.id == c.id) = some c
  rw [List.find?_append, this]
  simp

/-- A command that is listed and ready runs its operation. -/
theorem tryStart_ready {id : Nat} {s : State} {c : Cmd} (h : cmdOf s id = some c) (k : cmdReady s c = true) :
    tryStart id s = runOp c (startedCmd id s) := by simp only [tryStart, h, k, if_true]

/-- A row that submits a command, while the device runs: the entry is fetched, and the block settles. -/
theorem submit_up {op : Opcode} {r : Nat} {e : Entry} {s : State} (h : running s = true) (hr : ringOk r = true) :
    submit op r e s = .next (keepQueue s (settle (fetchEntry (some op) r (withOpcode op.code e) s))) := work_up h hr

end Sys2Proof.Machine
end

