-- ==== Sys2Proof/Tests/Slice0.lean ====
section
/-! SUPPORT. Tests: states that meet the premises of the statements, ill-formed operands, and single commands against values
of the manual. -/
namespace Sys2Proof.Tests

open Sys2Proof Sys2Proof.Machine Sys2Proof.Claims

set_option Elab.async false

/-! The states the tests start from. -/

/-- A pitch of three granules on two stacks, with sixteen rings. -/
def row0 : PitchPlan :=
  { laidOut := true, granules := [0, 1, 0], hallBase := 0, ringLo := 16, ringCount := 16, half := 0, dies := [(0, 0)],
    zones := 2, zoneUnits := 64, segments := [] }

/-- Two peers of this market: an LY-9 that does everything, and a client. -/
def peers0 : List PeerPlan :=
  [{ kind := .ly9, deviceId := 7, market := 0, stripes := true, stock := true, lends := true, fetches := true },
   { kind := .client, deviceId := 8, market := 0, stripes := false, stock := false, lends := false, fetches := false }]

/-- A plan of one pitch. -/
def plan0 : Plan :=
  { Plan.empty with planFmt := 1, pitches := [row0], pf0Rings := 16, peers := peers0, replicaEntries := 1, stockEntries := 4 }

/-- A device that runs, with pitch 0 bound. -/
def up : State := wr .pciLinkUp 0 1 (wr .secPitchStateState 0 2 { State.reset with phase := .running, plan := plan0 })

/-- The state with some register fields set. -/
def fill (l : List (Fld × Nat × Nat)) (s : State) : State := l.foldl (fun s x => wr x.1 x.2.1 x.2.2 s) s

/-- Pitch 0 with a client, ledger slots, chits, result slots, windows, triggers and a small crate area. -/
def roomy : State :=
  fill [(.pitchClientValid, 0, 1), (.pitchLedgerQuota, 0, 4), (.pitchTierCapCrateGib, 0, 1), (.pitchTierCapFlashGib, 0, 1), (.pciChitRangeCount, 1, 64),
    (.pciChitRangeTrigQuota, 1, 2), (.pitchPrefixCfgScope, 0, 1), (.pitchPrefixCfgResultSlots, 0, 2),
    (.pitchPrefixCfgResultKib, 0, 64), (.fabWinUseQuota, 0, 4)] up

/-- A ring that runs and has accepted one entry. -/
def ringAt (r : Nat) (s : State) : State :=
  onRing r (fun x => { x with accepted := [{ slot := 0, order := 5, at_ := 0, stageD := false }] }) (wr .pciRingStateState r 1 s)

/-- A running device with an accepted entry in ring 0 of PF0 and in ring 16 of pitch 0. -/
def live : State := ringAt 16 (ringAt 0 roomy)

/-- An entry with the given fields (offset, value) and no chit. -/
def entryOf (l : List (Nat × Nat)) : Entry :=
  BitVec.ofNat 512 ((l.map (fun x => x.2 * 2 ^ (8 * x.1))).foldl (fun a b => a + b) (0xFFFFFFFF * 2 ^ 32))

/-- The command that starts meets a test. -/
def starts (op : Opcode) (r : Nat) (l : List (Nat × Nat)) (s : State) (f : Cmd → State → Bool) : Bool :=
  match started op r (entryOf l) s with
  | some (c, t) => f c t
  | none => false

/-- A next state that meets a test. -/
def answers (o : Out State) (f : State → Bool) : Bool :=
  match o with
  | .next t => f t
  | _ => false

/-- A DRAM window of pitch 0 over its first MiB, with every permission. -/
def window0 : Window := { newWindow 0 0 15 0xFFFF noChit 0 1048576 with index := 0, gen := 1 }

/-- The shape of one layer with one KV head of 32 elements. -/
def shape0 : Shape := { layers := 1, format := 2, latent := false, kvHeads := 1, headDim32 := 1 }

/-- A sequence of pitch 0 with the id 9. -/
def seq0 : Seq := { newSeq 3 0 0 9 0 0 77 0 shape0 [0] 0 false with st := .active }

/-- The device with a window and a sequence. -/
def held : State := { live with windows := [window0], winNext := 1, seqs := [seq0] }

/-- The plan with connections to the peers: 1 of pitch 0 and 2 a service connection to the LY-9, 3 of pitch 0 to the client. -/
def plan1 : Plan :=
  { plan0 with fields := [(⟨.fabConnCfgValid, 1⟩, 1), (⟨.fabConnCfgPeer, 1⟩, 0), (⟨.fabConnCfgPitch, 1⟩, 0),
      (⟨.fabConnCfgValid, 2⟩, 1), (⟨.fabConnCfgPeer, 2⟩, 0), (⟨.fabConnCfgService, 2⟩, 1),
      (⟨.fabConnCfgValid, 3⟩, 1), (⟨.fabConnCfgPeer, 3⟩, 1), (⟨.fabConnCfgPitch, 3⟩, 0)] }

/-- The device with the connections and a window that lists this device and the LY-9 as the members of a stripe. -/
def striping : State := { held with plan := plan1, dram := Memory.writeN [] (dramKey 0 0) [0, 0, 7] }

/-- The device with a CXL 2.0 link and a DATA segment in its window. -/
def cxl : State :=
  wr .pciLinkCxl 0 2 { live with
    plan := { plan0 with pitches := [{ row0 with segments := [{ half := 0, base := 0, size := 2097152, data := some 0 }] }] },
    cxlLines := [{ half := 0, line := 3, exclusive := true, used := 0, snooped := true, snoopAt := 0, image := [] }] }

/-- That device, with the host holding the first line of the segment. -/
def tracked : State :=
  { cxl with cxlLines := [{ half := 0, line := 0, exclusive := true, used := 0, snooped := false, snoopAt := 0, image := [] }] }


/-! Ring commands: states that meet the premises of their statements. -/

theorem wit_chitValues : starts .chitSet 16 [(0x10, 63), (0x18, 2 ^ 64 - 1)] live (fun c t =>
    chitOwned t (cmdOwner t c) (fieldOf c.entry 0x10 4) && zeroAt c.entry 0x14 4 && zeroAt c.entry 0x20 32) = true
  ∧ starts .chitAdd 16 [(0x10, 0), (0x18, 1)] live (fun c t =>
    chitOwned t (cmdOwner t c) (fieldOf c.entry 0x10 4) && zeroAt c.entry 0x14 4 && zeroAt c.entry 0x20 32) = true := by decide +kernel

theorem wit_chitRefused : starts .chitSet 16 [(0x10, 64)] live (fun c t => !(chitOwned t (cmdOwner t c) (fieldOf c.entry 0x10 4))) = true
  ∧ starts .chitAdd 16 [(0x10, 63), (0x3F, 1)] live (fun c t =>
    chitOwned t (cmdOwner t c) (fieldOf c.entry 0x10 4) && !(zeroAt c.entry 0x20 32)) = true := by decide +kernel

theorem wit_chitWait : starts .chitWait 16 [(0x10, 63), (0x18, 1), (0x20, 60000000)] live (fun c t =>
    let g := triggerOf c (cmdOwner t c) t.localTime
    chitOwned t g.owner g.index && decide (g.action ≤ 3) && zeroAt c.entry 0x15 1 && zeroAt c.entry 0x26 2 && zeroAt c.entry 0x36 2
      && decide (fieldOf c.entry 0x20 4 ≤ 60000000) && actionOk t g.owner g (fieldOf c.entry 0x28 4)
      && decide (countBy (fun (x : Trigger) => x.owner == g.owner) t.triggers < rd t .pciChitRangeTrigQuota g.owner)
      && decide (chitVal t g.index < g.threshold)) = true := by decide +kernel

/-- The premises of a SEQ_OPEN. -/
def opens (l : List (Nat × Nat)) (s : State) (slot : Nat) : Bool :=
  starts .seqOpen 16 l s (fun c t =>
    let striped := bit (fieldOf c.entry 0x16 1) 5
    let probe := newSeq 0 0 0 0 0 0 0 0 (shapeOf c.entry) (List.replicate (fieldOf c.entry 0x25 1 + 1) 0) 0 striped
    let u := holdRoom c 0 (if bit (fieldOf c.entry 0x16 1) 6 then startPool (shapeOf c.entry) (ownCount probe (openTokens c.entry)) else 0) t
    match openInputs c u 0 with
    | some (devices, _) => openFields c t 0 && hasRoom u c.id
        && ledgerSlot (useRoom c.id (if striped then forwardCmd c devices u else u)) 0 == some slot && !c.stageD
    | none => false)

theorem wit_seqOpen : opens [(0x10, 10), (0x17, 1), (0x22, 32), (0x23, 1), (0x24, 1)] live 0 = true
  ∧ opens [(0x10, 10), (0x16, 64), (0x17, 1), (0x22, 32), (0x23, 1), (0x24, 1), (0x28, window0.handle), (0x2C, 1)] held 1 = true
  ∧ opens [(0x10, 10), (0x16, 32), (0x17, 1), (0x22, 32), (0x23, 1), (0x24, 1), (0x25, 1), (0x28, window0.handle)] striping 1 = true := by
  decide +kernel

/-- A seal of page 1 of the layer, from its full barrow slot. -/
def seal0 (k : Option Nat) : Seal :=
  { id := 4, seq := 3, layer := 0, page := 1, toks := [], fromSlot := true, crate := k }

/-- The sequence as the lead of a stripe of two members. -/
def lead0 : Seq := { seq0 with striped := true, members := [0, 7] }

theorem wit_seqCloseAndPark : ([seq0, lead0].all (fun q =>
    starts .seqClose 16 [(0x10, 9)] { striping with seqs := [q] } (fun c t => namedSeq c t == some q && zeroAt c.entry 0x14 44
      && q.st != .open_ && q.st != .closing)
    && starts .seqPark 16 [(0x10, 9), (0x14, 1)] { striping with seqs := [q] } (fun c t => namedSeq c t == some q
      && decide (fieldOf c.entry 0x14 1 ≤ 1) && zeroAt c.entry 0x15 43
      && (let u := if leads c q then forwardCmd c q.members t else t
          !(attendBefore u q c.order) && !(seqSealing u q.uid) && q.layers.all (fun l => l.tent == 0) && seqTent q == 0))
    && starts .seqPark 16 [(0x10, 9)] { striping with seqs := [q], seals := [seal0 none] } (fun c t =>
      namedSeq c t == some q && decide (fieldOf c.entry 0x14 1 ≤ 1) && zeroAt c.entry 0x15 43
        && seqSealing (if leads c q then forwardCmd c q.members t else t) q.uid))) = true := by decide +kernel

/-- A sequence with two tentative tokens after one committed. -/
def seq2 : Seq :=
  { seq0 with layers := [{ Layer.fresh with len := 1, tent := 2, slot0 := { BSlot.empty with alloc := true, toks := List.replicate 3 [] } }] }

theorem wit_accept : ([seq2, { seq2 with striped := true, members := [0, 7] }].all (fun q =>
    starts .accept 16 [(0x10, 9), (0x18, 3)] { striping with seqs := [q] } (fun c t => namedSeq c t == some q
      && zeroAt c.entry 0x14 4 && zeroAt c.entry 0x20 32 && q.layers.all (fun l => l.tent == seqTent q)
      && decide (fieldOf c.entry 0x18 8 < 2 ^ seqTent q) && q.st == .active))) = true := by decide +kernel

theorem wit_acceptLayer : seq2.layers.all (fun l => decide (l.cur ≤ 1) && ownCount seq2 (l.len + l.tent) == ownLen seq2 l + l.tent
    && decide (l.tent ≤ (barrowToks l).length)) = true
  ∧ (let q := { seq2 with striped := true, members := [7, 0], ownIndex := 1 }
     seq2.layers.all (fun l => decide (l.cur ≤ 1) && ownCount q (l.len + l.tent) != ownLen q l + l.tent)) = true := by decide +kernel

theorem wit_hintStep : ([(seq0, 0), (lead0, 1)].all (fun x =>
    starts .hintStep 16 [(0x10, 9), (0x14, 60000000), (0x18, 5), (0x1C, x.2)] { striping with seqs := [x.1] } (fun c t =>
      namedSeq c t == some x.1 && decide (fieldOf c.entry 0x14 4 ≤ 60000000) && decide (fieldOf c.entry 0x1C 1 ≤ 1)
        && zeroAt c.entry 0x1D 35 && x.1.st == .active))) = true
  ∧ starts .hintStep 16 [(0x10, 9)] { held with seqs := [{ seq0 with st := .damaged }] } (fun c t =>
      (namedSeq c t).map (fun q => q.st) == some .damaged && fieldOf c.entry 0x1C 1 == 0 && zeroAt c.entry 0x1D 35) = true := by decide +kernel

/-- A result of one page in slot 0. -/
def result0 : Result :=
  { pitch := 0, slot := 0, modelFp := 77, adapter := 0, keyed := 1, shape := shape0, truncated := false, shardLost := false, shown := [],
    pages := [{ key := [1], digest := [2], holder := 0, refs := [] }] }

theorem wit_fork : ([seq0, lead0].all (fun q => starts .seqFork 16 [(0x10, 10), (0x18, 9), (0x1C, 0)] { striping with seqs := [q] } (fun c t =>
      let n := bits (fieldOf c.entry 0x1C 4) 0 22
      forkable c t 0 1 && !(bit (fieldOf c.entry 0x16 1) 4) && seqById t 0 (fieldOf c.entry 0x18 4) == some q
        && q.st == .active && !(unlinked t c q) && decide (n ≤ seqLength q) && poolRoomFor t 0 (startPool q.shape (ownCount q n))))) = true
  ∧ ([([result0], 256), ([], 0)].all (fun x => starts .seqFork 16 [(0x10, 10), (0x16, 16), (0x1C, x.2)] { held with results := x.1 } (fun c t =>
      let n := bits (fieldOf c.entry 0x1C 4) 0 22
      let res := resultIn t 0 0
      forkable c t 0 1 && bit (fieldOf c.entry 0x16 1) 4 && slotAt t 0 (fieldOf c.entry 0x20 8) == some 0
        && res == x.1.head? && n % 256 == 0 && decide (n ≤ 256 * ((res.map (fun x => x.pages.length)).getD 0))
        && poolRoomFor t 0 (startPool (slotHead t (fieldOf c.entry 0x20 8) res).2.2 n)))) = true := by decide +kernel

/-- The first sequence entry in the window names the sequence and asks for one query token. -/
def asked : State := { held with dram := Memory.writeN [] (dramKey 0 0) [9, 0, 0, 0, 1, 0, 0, 0, 64, 0, 0, 0, 0, 0, 0, 0, 0, 0, 0, 0, 64], order := 6 }

theorem wit_attend : starts .attend 16 [(0x12, 1), (0x14, 0x3F800000), (0x1C, window0.handle), (0x30, window0.handle), (0x34, 4096)]
    asked (fun c t => (attendTakes c t 0).isSome) = true := by decide +kernel

theorem wit_lookup : starts .prefixLookup 16 [(0x1C, 1), (0x20, window0.handle), (0x24, 1)] held (fun c t =>
    ringPitch t c.ring == some 0 && lookupOf t c.id == none && scopeOf t 0 != 0 && lookupOk t 0 c.entry
      && (bodyRead c t (4 * fieldOf c.entry 0x1C 4) (fieldOf c.entry 0x20 4) (fieldOf c.entry 0x28 6)).isSome
      && outputOk c t 64 (fieldOf c.entry 0x30 4) (fieldOf c.entry 0x34 6)) = true := by decide +kernel

/-- A sequence of one full page whose key is listed. -/
def seq1 : Seq := { seq0 with keys := [[5]], layers := [{ Layer.fresh with len := 256, pages := [some 1], sealed := 1 }] }

theorem wit_publish : ([(0, seq1), (window0.handle, { seq1 with keys := [] })].all (fun x =>
    starts .prefixPublish 16 [(0x10, 9), (0x16, 1), (0x1C, x.1)] { held with seqs := [x.2] } (fun c t =>
    ringPitch t c.ring == some 0 && scopeOf t 0 != 0 && publishOk c.entry && seqById t 0 (fieldOf c.entry 0x10 4) == some x.2
      && outputOk c t (16 * fieldOf c.entry 0x16 2) (fieldOf c.entry 0x28 4) (fieldOf c.entry 0x30 6)
      && (publishInput c t).isSome
      && (publishKeys x.2 (bits (fieldOf c.entry 0x14 2) 0 13) (fieldOf c.entry 0x16 2) ((publishInput c t).getD none)).isSome
      && x.2.st == .active && !x.2.striped))) = true := by
  decide +kernel

theorem wit_prefixDrop : starts .prefixDrop 16 [(0x10, 1), (0x12, 1)] held (fun c t => ringPitch t c.ring == some 0
      && scopeOf t 0 != 0 && fieldOf c.entry 0x10 1 == 1 && dropFieldsOk c.entry
      && decide (fieldOf c.entry 0x12 2 < rd t .pitchPrefixCfgResultSlots 0)) = true
  ∧ starts .prefixDrop 16 [(0x14, 1), (0x18, window0.handle)] held (fun c t => ringPitch t c.ring == some 0 && scopeOf t 0 != 0
      && fieldOf c.entry 0x10 1 == 0 && dropFieldsOk c.entry && fieldOf c.entry 0x14 4 == 1
      && fieldOf c.entry 0x20 6 % 16 == 0 && (bodyRead c t 16 (fieldOf c.entry 0x18 4) (fieldOf c.entry 0x20 6)).isSome) = true := by
  decide +kernel

/-- The device with ring 16 on the fabric, over connection 1. -/
def fabricked : State := fill [(.secPitchLayoutHallBanks, 0, 1), (.pciRingCfgFabric, 16, 1), (.pciRingCfgConn, 16, 1)] { striping with seqs := [seq1] }

theorem wit_operandOnPeer : starts .prefixLookup 16 [(0x1C, 1), (0x20, 2 ^ 31), (0x24, 1)] fabricked (fun c t =>
      ringPitch t c.ring == some 0 && lookupOf t c.id == none && scopeOf t 0 != 0 && lookupOk t 0 c.entry
        && outputOk c t 64 (fieldOf c.entry 0x30 4) (fieldOf c.entry 0x34 6)
        && operandOnPeer c t (4 * fieldOf c.entry 0x1C 4) (fieldOf c.entry 0x20 4) (fieldOf c.entry 0x28 6) == some (1, 2 ^ 31, 0)) = true
  ∧ starts .prefixPublish 16 [(0x10, 9), (0x16, 1), (0x1C, 2 ^ 31)] fabricked (fun c t => publishOk c.entry
      && seqById t 0 (fieldOf c.entry 0x10 4) == some seq1 && outputOk c t (16 * fieldOf c.entry 0x16 2) (fieldOf c.entry 0x28 4) (fieldOf c.entry 0x30 6)
      && operandOnPeer c t (1024 * fieldOf c.entry 0x16 2) (fieldOf c.entry 0x1C 4) (fieldOf c.entry 0x20 6) == some (1, 2 ^ 31, 0)) = true
  ∧ starts .prefixDrop 16 [(0x14, 8192), (0x18, 2 ^ 31)] fabricked (fun c t => fieldOf c.entry 0x10 1 == 0 && dropFieldsOk c.entry
      && operandOnPeer c t (16 * fieldOf c.entry 0x14 4) (fieldOf c.entry 0x18 4) (fieldOf c.entry 0x20 6) == some (1, 2 ^ 31, 0)) = true := by
  decide +kernel

theorem wit_winOpen : ([[(0x11, 15), (0x12, 0xFFFF), (0x14, 63), (0x20, 64)], [(0x10, 1), (0x12, 1), (0x14, 0xFFFFFFFF), (0x18, 65536), (0x20, 64)],
      [(0x10, 2), (0x11, 8), (0x12, 1), (0x14, 0xFFFFFFFF), (0x18, 16), (0x20, 64 * ringSize fabricked 16)],
      [(0x10, 3), (0x11, 1), (0x12, 0xFFFF), (0x14, 0xFFFFFFFF), (0x18, 0), (0x20, 512)]].all (fun l =>
    starts .winOpen 16 l fabricked (fun c t =>
    ringPitch t c.ring == some 0 && winFieldsOk t c.entry
      && regionOk t 0 (fieldOf c.entry 0x10 1) (fieldOf c.entry 0x12 2) (fieldOf c.entry 0x18 6) (fieldOf c.entry 0x20 6)
      && (fieldOf c.entry 0x12 2 == 0xFFFF || connOfPitch t (fieldOf c.entry 0x12 2) 0)
      && (fieldOf c.entry 0x14 4 == noChit || chitOwned t 1 (fieldOf c.entry 0x14 4)) && decide (windowsOf t 0 < rd t .fabWinUseQuota 0)
      && (openWindow (newWindow 0 (fieldOf c.entry 0x10 1) (fieldOf c.entry 0x11 1) (fieldOf c.entry 0x12 2) (fieldOf c.entry 0x14 4)
        (fieldOf c.entry 0x18 6) (fieldOf c.entry 0x20 6)) t).isSome))) = true := by decide +kernel

theorem wit_winRevoke : starts .winRevoke 16 [(0x10, window0.handle)] held (fun c t => ringPitch t c.ring == some 0
      && windowAt t (bits (fieldOf c.entry 0x10 4) 0 18) == some window0 && zeroAt c.entry 0x14 44 && !(bit (fieldOf c.entry 0x10 4) 31)
      && window0.gen == bits (fieldOf c.entry 0x10 4) 18 13) = true
  ∧ running held = true ∧ windowOk 0 = true
  ∧ ((windowAt { held with windows := [{ window0 with revoking := true }] } 0).map (fun w => w.revoking)) = some true := by decide +kernel

/-- A trigger with a deadline. -/
def trigger0 : Trigger :=
  { cmd := 5, owner := 1, index := 0, threshold := 1, action := 0, vector := 0, deadline := some 70, conn := 0, window := 0,
    releaseId := 0, offset := 0, value := 0 }

theorem wit_chitDeadline : running live = true
    ∧ ([trigger0].find? (fun t => t.cmd == 5)).map (fun g => g.deadline) = some (some 70) := by decide +kernel

theorem wit_selectAndShape :
    starts .timetableSelect 0 [(0x10, 1)] live (fun c _ => decide (fieldOf c.entry 0x10 1 ≤ 1) && zeroAt c.entry 0x11 47) = true
  ∧ starts .shaperSet 0 [(0x10, 1), (0x11, 31), (0x14, 100000), (0x18, 9216)] (wr .fabPortCfgSpeed 0 1 live) (fun c t =>
      (portsOf (fieldOf c.entry 0x10 1)).all (fun p => rd t .fabPortCfgSpeed p != 0
        && decide (fieldOf c.entry 0x14 4 ≤ speedMbps (rd t .fabPortCfgSpeed p))) && portsOf (fieldOf c.entry 0x10 1) != []
      && decide (fieldOf c.entry 0x11 1 ≤ 31) && zeroAt c.entry 0x12 2 && zeroAt c.entry 0x1C 36
      && decide (9216 ≤ fieldOf c.entry 0x18 4)) = true := by decide +kernel

theorem wit_attest : ([0, 2].all (fun k => starts .attest 16 [(0x10, k), (0x14, window0.handle)] held (fun c t => attestOk t c
      && ringPitch t c.ring == some (fieldOf c.entry 0x11 1) && !(attestHeld t c)
      && (match attestOut { t with attestWait := t.attestWait.erase c.id } c with
        | .val _ => true
        | _ => false)))) = true
  ∧ starts .attest 0 [(0x10, 1), (0x24, 376)] held (fun c t => attestOk t c && ringPitch t c.ring == none && !(attestHeld t c)
      && (match attestOut { t with attestWait := t.attestWait.erase c.id } c, attestIn { t with attestWait := t.attestWait.erase c.id } c with
        | .val _, .val _ => true
        | _, _ => false)) = true
  ∧ starts .attest 16 [(0x14, window0.handle)] { held with live := { held.live with active := true, copied := true } } (fun c t =>
      attestOk t c && ringPitch t c.ring == some (fieldOf c.entry 0x11 1) && attestHeld t c && !(t.attestWait.contains c.id)) = true := by
  decide +kernel

theorem wit_fullReset : starts .fullReset 0 [(0x10, 0x4C595253)] live (fun c _ => fieldOf c.entry 0x10 4 == 0x4C595253
    && zeroAt c.entry 0x14 44) = true := by decide +kernel

/-- A command that waits in ATTEST while a live activation runs, and a session key. -/
def waits : State :=
  { live with cmds := [cmdOfEntry live (some .attest) 16 1 { slot := 0, order := 5, at_ := 0, stageD := false } 0], attestWait := [5],
              live := { live.live with active := true, copied := true }, sessions := [{ scope := 0, serial := [], bornAt := 0 }] }

theorem wit_attestTimeout : running waits = true ∧ (cmdOf waits 5).isSome = true ∧ waits.attestWait.contains 5 = true ∧ waits.live.active = true
    ∧ waits.live.copied = true ∧ (waits.sessions.find? (fun k => k.scope == 0)).isSome = true := by decide +kernel

theorem wit_badOpcode : running live = true ∧ ringFn live 16 = some 1 ∧ (ringOf live 16).accepted.length = 1 ∧ mayFetch live 16 = true
    ∧ entryThere live 16 0 (badOpcode (entryOf [])) = true := by decide +kernel

theorem wit_pitchBind : starts .pitchBind 0 [(0x10, 0), (0x18, 3)] (wr .secPitchStateState 0 0 live) (fun c t =>
      decide (fieldOf c.entry 0x10 1 ≤ 15) && laidOut t 0 && zeroAt c.entry 0x11 7 && zeroAt c.entry 0x38 8 && pitchState t 0 == 0) = true := by
  decide +kernel

/-- A release of pitch 0. -/
def release0 (drained scrubbed : Bool) : Release :=
  { pitch := 0, startAt := 0, startOrder := 0, drained := drained, scrubbed := scrubbed, waiters := [5] }

theorem wit_pitchRelease : starts .pitchRelease 0 [] live (fun c t => laidOut t 0 && zeroAt c.entry 0x11 47 && pitchState t 0 != 0
      && releaseOf t 0 == none) = true
  ∧ starts .pitchRelease 0 [] { live with releases := [release0 false false] } (fun c t => laidOut t 0 && zeroAt c.entry 0x11 47
      && pitchState t 0 != 0 && releaseOf t 0 == some (release0 false false)) = true := by decide +kernel

theorem wit_releaseSteps : ([(false, false), (true, false), (true, true)].all (fun x =>
    let s : State := { live with releases := [release0 x.1 x.2] }
    running s && pitchOk 0 && releaseOf s 0 == some (release0 x.1 x.2) && coreThere s 0 && !(s.leases.any (fun l => l.pitch == 0)))) = true := by decide +kernel

/-! Seals, crates and stalls: states that meet the premises of their statements. -/

/-- A handle in a tier. -/
def handle0 (tier : Nat) : Handle := { tier := tier, device := 1, pitch := 0, format := 2, location := 5 }

/-- A crate of pitch 0 in tier 1. -/
def crate0 : Crate := { newCrate seq1 1 0 0 0 0 [] [] with dram := some (handle0 1) }

theorem wit_sealSteps : let s : State := { live with seqs := [seq1], seals := [seal0 none] }
    (running s && s.seals.find? (fun y => y.id == 4) == some (seal0 none) && seqOf s 3 == some seq1 && (seal0 none).fromSlot
      && (structFinding .ok s).1 && !((structFinding .lost s).1) && (ReadResult.lost).wf
      && decide (charge (newCrate seq1 s.order 0 (globalPage seq1 1) (stackOf s 0 1) s.localTime (quantPage shape0 []) []) ≤ areaFree s 0 (stackOf s 0 1))) = true
  ∧ ([[], [[]]].all (fun l =>
      let x : Seal := { seal0 none with fromSlot := false, toks := l }
      let s : State := { live with seqs := [seq1], seals := [x] }
      (each (importBefore s x) takeImportPage s).seals.find? (fun z => z.id == 4) == some x)) = true
  ∧ (seqOf { live with seqs := [seq1], seals := [seal0 (some 1)] } 3).bind (fun q => layerOf q 0) =
      some { Layer.fresh with len := 256, pages := [some 1], sealed := 1 } := by decide +kernel

theorem wit_sealWaits : let s : State := wr .pitchTierCapCrateGib 0 0 { live with seqs := [seq1] }
    areaFree s 0 (stackOf s 0 1) < charge (newCrate seq1 s.order 0 (globalPage seq1 1) (stackOf s 0 1) s.localTime (quantPage shape0 []) []) := by
  decide +kernel

/-- A run of one tile. -/
def work0 (src : TileSrc) : Work :=
  { cmd := 5, pitch := 0, cls := 0, prio := 0, entry := 0, first := 0, heads := 1, fp8 := false,
    runs := [{ part := 0, index := 0, rows := 1, tiles := [{ page := 0, src := src }] }], order := 5 }

/-- A context that runs on stall 31. -/
def ctx0 (src : TileSrc) : Ctx :=
  { id := 8, cmd := 5, pitch := 0, cls := 0, slots := 1, prio := 0, order := 5, place := .resident 31, base := 0, work := some (work0 src),
    tile := 0, head := 0, pass := 0, done := false, stop := none, why := .preempt, since := 0, savedOrder := 0 }

/-- The device with that context running. -/
def busy (src : TileSrc) : State :=
  onStall 31 (fun a => { a with running := some 8, cls := 0 }) { live with ctxs := [ctx0 src], crates := [crate0] }

theorem wit_tileBarrow : ([TileSrc.barrow 0 [], .awaitSwap].all (fun t => running (busy t) && stallOk 31
    && (stallAt (busy t) 31).running.bind (ctxOf (busy t)) == some (ctx0 t) && nextTile (ctx0 t) == some { page := 0, src := t }
    && !((ctx0 t).done))) = true
  ∧ (structFinding .ok live).1 = true ∧ (structFinding (.lostFrame 7 3 []) live).1 = false := by decide +kernel

theorem wit_tileCrate : (stallAt (busy (.crate 1 (handle0 1))) 31).running.bind (ctxOf (busy (.crate 1 (handle0 1)))) = some (ctx0 (.crate 1 (handle0 1)))
    ∧ (readFinding 1 1 .ok (busy (.crate 1 (handle0 1)))).1 = true
    ∧ (readFinding 1 1 (.corrected 7 3 []) (busy (.crate 1 (handle0 1)))).1 = true
    ∧ (readFinding 1 1 (.undecodable 16) (busy (.crate 1 (handle0 1)))).1 = false := by decide +kernel

theorem wit_runComplete : let s := onCtx 8 (fun x => { x with done := true }) (busy (.barrow 0 []))
    ((residents s 31).find? (fun x => x.done)).isSome = true := by decide +kernel

/-- A part that ended with NO_SEQ. -/
def part0 : Part :=
  { seq := 3, seqId := 9, qtok := 1, newtok := 0, tentative := false, outOff := 64, status := some .noSeq, narrow := false, barrowRead := false,
    qBase := 0, qStep := false, held := 0, query := [], mask := { rule := 0, bitmap := false, rowBase := 0, bmRows := 0, windowN := 0, spanStart := 0, spanLen := 0, bmWin := 0, bmOffset := 0, bits := [] },
    bmErr := none, newToks := [], waiting := false, taken := false, stallMemo := [], checked := true, segs := [], runs := [], folded := 0, arrived := [], acc := [], mem := [],
    stripe := [], keysRead := 0, lenAfter := 0, tentAfter := 0, raw := ([], [], []) }

/-- An ATTEND of one part, listed, with its results in the window. -/
def attend0 : Attend :=
  { cmd := 5, pitch := 0, layer := 0, qgroup := 1, fp8 := false, fp32Out := false, minkp := 0, strict := false, scale := 0x3F800000, cap := 0,
    outWin := window0.handle, outOffset := 0, parts := [part0], listed := true, counted := [], lead := none, listedAt := 0, firstAt := none, mergedAt := 0 }

/-- The command of that ATTEND. -/
def cmd0 (op : Opcode) : Cmd := cmdOfEntry live (some op) 16 1 { slot := 0, order := 5, at_ := 0, stageD := false } (entryOf [])

/-- The device with that ATTEND. -/
def attending : State := { held with cmds := [cmd0 .attend], attends := [attend0] }

/-- Where the results of the ATTEND go. -/
def placesOf (s : State) (a : Attend) : List (Except Status Place) :=
  (attendWrites s a).map (fun w => locate s 16 a.outWin (a.outOffset + w.1) w.2.length true)

theorem wit_attendResult : (running attending && (attending.attends.find? (fun a => a.cmd == 5)) == some attend0 && (cmdOf attending 5).isSome
    && attend0.listed && attend0.parts.all partReady && attend0.lead == none && worstCheck (placesOf attending attend0) == none
    && (placesOf attending attend0).all
      (fun x => match x with
        | .ok (.dram p o) => !(mustSnoop attending p o 16 true)
        | _ => false)) = true
  ∧ worstCheck (placesOf { attending with windows := [] } { attend0 with outWin := 0 }) ≠ none
  ∧ ({ attend0 with lead := some (0, 1) } : Attend).lead.isSome = true ∧ mustSnoop tracked 0 0 16 true = true := by decide +kernel

/-- A context on its way. -/
def moving (p : CtxPlace) (w : SaveWhy) : State := onCtx 8 (fun x => { x with place := p, why := w }) (busy (.barrow 0 []))

theorem wit_contextMoves : ([SaveWhy.preempt, .handover, .blocked].all (fun w => (ctxOf (moving (.saving 31) w) 8).map (fun x => (x.place, x.why))
      == some (.saving 31, w))) = true
  ∧ (ctxOf (moving (.restoring 31) .preempt) 8).map (fun x => x.place) = some (.restoring 31)
  ∧ (stallAt (bump .stallCtxStatRestores 31 1 (onCtx 8 (fun y => { y with place := .resident 31 })
      (countSaveTime (ctx0 (.barrow 0 [])) (moving (.restoring 31) .preempt)))) 31).cls = 0 := by decide +kernel

theorem wit_slotBoundary : let s : State := { live with plan := { plan0 with tableA := [{ duration := 1, classMap := 0, reserved := 0 }] } }
    (ttTable s)[rd s .hallTtStatusSlot 0]? = some { duration := 1, classMap := 0, reserved := 0 } := by decide +kernel

theorem wit_graceExpiry : let s := onStall 31 (fun a => { a with grace := [(8, 100)] }) (busy (.barrow 0 []))
    leastBy (fun g => g.2) (stallAt s 31).grace = some (8, 100)
    ∧ (ctxOf (onStall 31 (fun x => { x with grace := drop (fun g => g.1 == 8) x.grace }) (reach 100 s)) 8).map (fun x => (x.place, x.done))
      = some (.resident 31, false)
    ∧ ctxOf { s with ctxs := [] } 8 = none := by decide +kernel

theorem wit_stallFail : running live = true ∧ stallOk 31 = true ∧ stallRetired live 31 = false := by decide +kernel

/-- A fetch that runs. -/
def fetch0 (tier : Nat) : Fetch := { kind := .demand, tier := tier, order := 0, useTime := 0, queuedAt := 0, started := true }

/-- The device with one crate. -/
def crated (c : Crate) : State := { live with crates := [c] }

/-- A crate that a fetch brings from flash. -/
def crate3 : Crate := { crate0 with dram := none, flash := some (handle0 3), fetch := some (fetch0 3) }

theorem wit_fetchSchedule : let q : Seq := { seq1 with hint := some { next := 70, gap := 1 }, nextHint := 70 }
    seqOf { held with seqs := [q] } 3 = some q ∧ q.planned = false ∧ q.nextHint ≠ 0 := by decide +kernel

/-- A packed copy of two blocks, raw: its header, its index, zeros; or the first coded with a table. -/
def packed0 (coded : Bool) : Bytes :=
  [1, 2, 0, 2] ++ List.replicate 12 0 ++ (if coded then [0, 16, 16] else [0, 0, 0]) ++ List.replicate 45 0 ++ [2] ++ List.replicate 8500 0

/-- The answer to a crate read of another device. -/
def came (bs : Bytes) : Read :=
  { id := 1, conn := 2, msgId := 0, want := .crate 1, len := 9000, base := 0, data := [(0, bs)], endAt := some 1, done := true }

theorem wit_fetchDone : crateOf (crated crate3) 1 = some crate3 ∧ crate3.fetch = some (fetch0 3)
    ∧ (readFinding 1 3 (.retried 2 false 0) (crated crate3)).1 = true ∧ (readFinding 1 3 (.lostBlock 0) (crated crate3)).1 = false
    ∧ (crateOf (crated { crate3 with fetch := some (fetch0 4) }) 1).bind (fun c => c.fetch) = some (fetch0 4)
    ∧ cameBack (.lostBlock 0) = false ∧ cameBack .ok = true
    ∧ ((crated crate3).pendingTables.any (fun t => t.1 == 1 && t.2.2.isNone)) = false := by decide +kernel

theorem wit_remoteCopy : (came (packed0 false)).done = true ∧ (packIndex shape0 []).isNone = true
    ∧ ([packed0 false, packed0 true].map (fun b => ((packIndex shape0 (readBytes (came b))).isSome,
        (unpackBody shape0 (readBytes (came b)) (fun _ _ => none)).isSome))) = [(true, true), (true, false)] := by decide +kernel

/-- A lease of this device on the LY-9. -/
def borrowed : Lease := { id := 2, lent := false, peer := 0, pitch := 0, window := 1, granule := 0, st := .live, deadline := 0 }

/-- A crate that is to leave its stack, and the lease. -/
def leavesFor (x : CopyDown) : State := { crated { crate0 with copying := x } with leases := [borrowed] }

theorem wit_evictionCopies :
    (crateOf (leavesFor .dropDram) 1).map (fun c => c.copying) = some .dropDram
  ∧ (let s := leavesFor (.toLease 2)
     (s.leases.find? (fun x => x.id == 2 && x.st == .live)).isSome && ((leavesFor (.toLease 3)).leases.find? (fun x => x.id == 3 && x.st == .live)).isNone
       && (readFinding 1 1 .ok (onCrate 1 (fun c => { c with copying := .none }) s)).1
       && !((readFinding 1 1 (.lostFrame 0 0 []) (onCrate 1 (fun c => { c with copying := .none }) s)).1)) = true
  ∧ (let s := leavesFor .toFlash
     let t := onCrate 1 (fun c => { c with copying := .none }) s
     !(stageOn s 2) && flashRoom s { crate0 with copying := .toFlash } && (programFlash 1 (standalone 1 (readFinding 1 1 .ok t).2)).isSome
       && (programFlash 1 (standalone 1 { t with plan := { t.plan with pitches := [{ row0 with zones := 0 }] } })).isNone
       && !((readFinding 1 1 .lost t).1)) = true := by decide +kernel

/-- Two crates of tier 1, the first queued for recoding or not. -/
def pair (b : Option Nat) : State :=
  { live with crates := [{ crate0 with recoding := b }, { crate0 with id := 2 }] }

theorem wit_recodings :
    (crateOf (crated { crate0 with promoting := true }) 1).map (fun c => c.promoting && inDram c) = some true
  ∧ (crateOf (crated { crate3 with promoting := true }) 1).map (fun c => c.promoting && !(inDram c)) = some true
  ∧ (readFinding 1 1 .ok (crated crate0)).1 = true ∧ (readFinding 1 1 .lost (crated crate0)).1 = false
  ∧ (crateOf (pair (some 2)) 1).map (fun c => c.recoding == some 2 && inDram c && c.base.isNone && !(isBase (pair none) 1)
      && c.copying == .none && !(stageOn (pair none) 2)) = some true
  ∧ (crateOf (pair none) 2).map (fun c => inDram c && c.base.isNone && c.hall.isNone) = some true ∧ (crateOf (pair none) 3).isNone = true
  ∧ (let x := readFinding 2 1 .ok (pair none)
     (x.1 && (readFinding 1 1 .ok x.2).1 && !((readFinding 1 1 .lost x.2).1))) = true
  ∧ (crateOf (crated { crate0 with rebasing := true, base := some 2 }) 1).map (fun c => c.rebasing && c.base.isSome) = some true := by
  decide +kernel

/-- A crate that waits for its flash copy. -/
def wanted : Crate := { crate0 with flashWanted := 2 }

theorem wit_flashCopy : (flashAllowed (crated wanted) wanted && inDram wanted && wanted.flash.isNone && !(heldBehind (crated wanted) 1)
    && (readFinding 1 1 .ok (crated wanted)).1 && !((readFinding 1 1 .lost (crated wanted)).1)
    && (programFlash 1 (standalone 1 (readFinding 1 1 .ok (crated wanted)).2)).isSome
    && (programFlash 1 (standalone 1 { crated wanted with plan := { plan0 with pitches := [{ row0 with zones := 0 }] } })).isNone) = true := by
  decide +kernel

/-- A full zone marked for collection. -/
def zone0 (l : List Nat) : Zone :=
  { pitch := 0, id := 1, state := 3, crates := l, places := [], units := 1, filledAt := 0, erases := 0, marked := true, blocks := [], old := false }

theorem wit_gcZone : ([[], [1]].all (fun l =>
      let s : State := { crated crate3 with zones := [zone0 l] }
      gcRuns s 0 && isVictim s (zone0 l) && (s.zones.find? (fun y => y.pitch == 0 && y.id == 1)) == some (zone0 l) && liveIn s (zone0 l) == l)) = true
  ∧ (let s : State := { crated crate3 with zones := [zone0 [1]] }
     (appendZone 2 0 (placeOf s crate3 (newHandle s crate3 3)) s).isSome
       && (appendZone 2 0 (placeOf s crate3 (newHandle s crate3 3)) { s with plan := { plan0 with pitches := [{ row0 with zones := 1 }] } }).isNone) = true := by
  decide +kernel

theorem wit_catalogueReplay : let s : State := { live with replaying := [0], catalogue := [(0, Catalogue.empty)] }
    s.replaying.contains 0 = true ∧ s.catalogue.find? (fun x => x.1 == 0) = some (0, Catalogue.empty)
    ∧ live.catalogue.find? (fun x => x.1 == 0) = none := by decide +kernel

/-! Peers: leases, the stock book, holds, stripes, packets, timers. -/

/-- The device with both peers associated and ports 0 and 7 up. -/
def linked : State :=
  fill [(.fabAssocStateState, 0, 2), (.fabAssocStateState, 1, 2), (.fabPortCfgSpeed, 0, 4), (.fabPortStatusState, 0, 2),
    (.fabPortCfgSpeed, 7, 4), (.fabPortStatusState, 7, 2), (.fabConnStateState, 1, 1), (.pitchTierCfgLendGib, 0, 1),
    (.pitchTierCapCrateGib, 0, 3)] { held with plan := plan1 }

/-- A lease with the LY-9. -/
def lease0 (lent : Bool) (st : LeaseSt) : Lease :=
  { id := 2, lent := lent, peer := 0, pitch := 0, window := window0.handle, granule := 2, st := st, deadline := 90 }

/-- The device with that lease. -/
def leased (lent : Bool) (st : LeaseSt) : State := { linked with leases := [lease0 lent st] }

/-- The window that the lender would open. -/
def lendWindow (s : State) : Window :=
  newWindow 0 0 3 (((connsOfPeer s 0).find? (fun c => connOfPitch s c 0)).getD 0xFFFF) noChit (2 * gib) gib

theorem wit_leaseAsk : (openWindow (lendWindow linked) { linked with winNext := windowMax }).isNone = true
  ∧ ([linked, { linked with winNext := windowMax }].all (fun s => sameMarket s 0 && !(stageOn s 1) && rd s .secPitchStateState 0 == 2
      && decide (lentCount s 0 < rd s .pitchTierCfgLendGib 0)
      && decide (dramUsed s 0 + gib * (lentCount s 0 + 2) < gib * rd s .pitchTierCapCrateGib 0)
      && ((List.range (pitchPlan s 0).granules.length).filter (mayLend s 0)).getLast? == some 2)) = true
  ∧ (openWindow (lendWindow linked) linked).isSome = true
  ∧ sameMarket linked 1 = false
  ∧ rd (leased true .live) .pitchTierCfgLendGib 0 ≤ lentCount (leased true .live) 0
  ∧ ((List.range 1).filter (mayLend linked 0)).getLast? = none := by decide +kernel

theorem wit_leaseEvents : ((leased false .live).leases.find? (fun l => !l.lent && l.peer == 0 && l.window == window0.handle && l.st == .live)) =
      some (lease0 false .live)
  ∧ (leaseOf (leased true .live) 2).map (fun l => l.lent) = some true ∧ (leaseOf (leased true .recalled) 2).map (fun l => l.st) = some .recalled
  ∧ (leaseOf (leased false .dropAsked) 2).map (fun l => l.st) = some .dropAsked
  ∧ (peerOf (onPeer 0 (fun x => { x with reachable := false }) linked) 0).reachable = false := by decide +kernel

/-- An entry of the stock book. -/
def entry0 : StockEntry :=
  { key := [1], scope := 1, page := 0, shape := shape0, hot := false, pageDigest := [], modelFp := 77, adapter := 0, pop := 3,
    copies := [some { device := 7, pitch := 0, durable := false, record := 6 }, none, none, none] }

/-- The device that knows the entry, at home and as a replica, with a lookup, a drop and a record. -/
def stocked : State :=
  { linked with
    plan := { plan1 with shard := List.replicate 17 { market := 0, home := 0 } ++ [{ market := 0, home := 7 }] }
    homes := [entry0], replicas := [(entry0, 0)],
    lookups := [{ cmd := 5, keys := [[1]], pages := [], past := 0, shape := none, shardLost := false, tryEntry := none, tryCopies := [], ended := false }],
    pubs := [{ id := 6, pitch := 0, seq := 3, cmd := none, page := 0, key := [1], digest := [], scope := 1, modelFp := 77, adapter := 0,
               crates := [1], st := .retry, durable := true, wantFlash := false, since := 0, retryAt := 0, sentDurable := false }],
    crates := [crate3], cmds := [cmd0 .prefixLookup] }

theorem wit_stock : localEntry stocked 1 [1] = some entry0 ∧ localEntry stocked 1 [2] = none ∧ entryIn stocked.homes 1 [1] = some entry0
    ∧ (lookupOf stocked 5).map (fun l => (l.tryEntry, l.ended, l.keys[l.at_]?)) = some (none, false, some entry0.key)
    ∧ stocked.pubs.any (fun r => r.id == 6 && (r.st == .sent || r.st == .retry)) = true ∧ coreThere stocked 2 = true
    ∧ 1 ≠ rd stocked .hallStockCfgEpoch 0 := by decide +kernel

theorem wit_homes : homeOf stocked entry0.key = some (deviceId stocked) ∧ homeOf stocked [1, 16] ≠ some (deviceId stocked)
    ∧ entryIn stocked.homes 1 [1, 0] = none ∧ homeOf stocked [1, 0] = some (deviceId stocked) ∧ stocked.homes.length < stocked.plan.stockEntries
    ∧ 4 ≤ (List.replicate 4 entry0).length := by decide +kernel

theorem wit_insertSettles : (stocked.pubs.find? (fun r => r.id == 6)).map (fun r => r.cmd) = some none
    ∧ (({ stocked with pubs := stocked.pubs.map (fun r => { r with cmd := some 5 }) } : State).pubs.find? (fun r => r.id == 6)).map (fun r => r.cmd)
      = some (some 5) := by decide +kernel

theorem wit_replicas : stocked.replicas.any (fun x => x.1.scope == 1 && x.1.key == [1]) = true
    ∧ linked.replicas.length < linked.plan.replicaEntries ∧ stocked.plan.replicaEntries ≤ stocked.replicas.length
    ∧ stocked.replicas.any (fun x => x.1.scope == 1 && x.1.key == [9]) = false
    ∧ leastBy (fun (x : StockEntry × Nat) => x.1.pop) stocked.replicas = some (entry0, 0)
    ∧ stocked.replicas.all (fun x => x.2 == 0) = true ∧ stocked.homes.all (fun e => !e.hot) = true ∧ stageOn stocked 1 = false := by
  decide +kernel

theorem wit_holds : (stocked.pubs.find? (fun r => r.id == 6 && r.pitch == 0 && r.durable)).isSome = true
    ∧ [1].filterMap (fun id => (crateOf stocked id).bind (fun c => c.flash)) = [handle0 3]
    ∧ [1].filterMap (fun id => (crateOf ({ stocked with crates := [crate0] }) id).bind (fun c => c.flash)) = []
    ∧ linked.pubs.find? (fun r => r.id == 6 && r.pitch == 0 && r.durable) = none
    ∧ ([{ peer := 0, pitch := 0, record := 6, crates := [1] }].find? (fun (h : RemoteHold) => h.peer == 0 && h.pitch == 0 && h.record == 6)).isSome = true
    ∧ ([(handle0 3).word].filterMap handleOf).length = entry0.shape.layers
    ∧ (lookupOf { stocked with lookups := stocked.lookups.map (fun l => { l with tryEntry := some entry0, tryCopies := entry0.copies.filterMap (fun x => x) }) } 5).map
      (fun l => (l.tryEntry, l.tryCopies.length)) = some (some entry0, 1) := by decide +kernel

theorem wit_tables : let s : State := { live with pendingTables := [(1, leBytes 8 3, none)] }
    s.pendingTables.any (fun x => x.1 == 1 && x.2.1 == leBytes 8 3 && x.2.2.isNone) = true := by decide +kernel

theorem wit_stripeForward : (!(notBound linked 1) && (connBetween linked 0 0).isSome && (connBetween linked 0 2).isNone
    && (Opcode.ofCode (fieldOf (entryOf [(0, Opcode.code .attend)]) 0 1)).filter (fun o => forwardedOps.contains o) == some .attend
    && (Opcode.ofCode (fieldOf (entryOf [(0, Opcode.code .winOpen)]) 0 1)).filter (fun o => forwardedOps.contains o) == none) = true := by
  decide +kernel

/-- A part of a stripe that awaits member 1. -/
def part1 : Part := { part0 with status := none, mem := [(1, 0xFF)] }

theorem wit_stripePartial : let s : State := { attending with attends := [{ attend0 with parts := [part1] }] }
    (partOf s 5 0).map (fun x => x.2) = some part1 ∧ part1.mem.contains (1, 0xFF) = true ∧ part1.segs.head?.map (fun g => g.1) ≠ some 1
    ∧ ({ part1 with segs := [(1, 0, [[]])] } : Part).segs = (1, 0, [[]]) :: []
    ∧ s.attends.any (fun a => a.cmd == 5) = true ∧ live.attends.any (fun a => a.cmd == 5) = false := by decide +kernel

/-- A frame from the LY-9 on connection 1. -/
def frame0 : Frame :=
  { port := 7, src := some 0, udpSrc := 0, keyPhase := 0, counter := 1, tagOk := true, ver := 2, opcode := 1, first := true, last := true,
    final := false, ackreq := true, ordered := false, conn := 1, psn := 0, msgId := 0, pktIndex := 0, window := window0.handle, offset := 0,
    length := 0, sendTs := 0, epoch := 0, payload := [] }

theorem wit_packets : running linked = true ∧ frame0.wf = true ∧ portUsable linked 7 = true
    ∧ ([asWrite frame0, asPacket opNak 0 frame0, asCtrl 1 frame0].all (fun f => match admission f linked with
      | .ok r => r.1 == 0
      | .error _ => false)) = true := by decide +kernel

theorem wit_admitted : ([({ frame0 with ver := 9 }, true), (frame0, false)].all (fun x =>
      decide (x.1.ver ≠ versionFor linked 0 ∨ x.1.opcode = 0 ∨ 6 < x.1.opcode) == x.2)) = true
    ∧ on linked .fabConnCfgValid 9 = false ∧ on linked .fabConnCfgValid frame0.conn = true ∧ connPeer linked frame0.conn = 0
    ∧ frame0.ordered = on linked .fabConnCfgMode frame0.conn ∧ ({ frame0 with ordered := true } : Frame).ordered ≠ on linked .fabConnCfgMode 1
    ∧ rd (touch 1 (bump .fabRxStatFrames 7 1 linked)) .fabConnStateState 1 = 1
    ∧ frame0.epoch = (connOf (touch 1 (bump .fabRxStatFrames 7 1 linked)) 1).epoch
    ∧ ({ frame0 with epoch := 3 } : Frame).epoch ≠ (connOf (touch 1 (bump .fabRxStatFrames 7 1 linked)) 1).epoch := by decide +kernel

theorem wit_dataInP2 : let s := wr .pwrStateState 0 2 linked
    (running s && frame0.wf && decide (7 < s.ports.length) && portUsable s 7 && rd s .pwrStateState 0 == 2
      && decide (sumBy (frameLen s) (portOf s 7).ingress + frameLen s (asWrite frame0) ≤ 1048576)
      && (asWrite frame0).opcode != opAck && (asWrite frame0).opcode != opCtrl) = true := by decide +kernel

/-- A packet sent and not acknowledged. -/
def sent0 : TxPkt := { conn := 1, frame := frame0, purpose := .none, path := none, sentAt := 0, later := 0 }

theorem wit_timers : ((connOf (putConn { Conn.fresh 1 with unacked := [sent0], ackFrame := some frame0 } linked) 1).unacked.find?
      (fun k => k.frame.psn == 0)) = some sent0
    ∧ (connOf (putConn { Conn.fresh 1 with ackFrame := some frame0 } linked) 1).ackFrame = some frame0
    ∧ (peerOf (onPeer 0 (fun x => { x with reachable := true }) linked) 0).reachable = true ∧ (peerOf linked 0).probeAt = none
    ∧ (peerOf (onPeer 0 (fun x => { x with probeAt := some 3, reachable := false }) linked) 0).probeAt = some 3
    ∧ bit (rd (wr .fabConnCcAvoided 1 128 linked) .fabConnCcAvoided 1) 7 = true := by decide +kernel

/-- The device with a frame in queue 0 of port 0. -/
def queued : State :=
  onPort 0 (fun x => { x with egress := { EgressQ.empty with frames := [frame0] } :: x.egress.tail }) linked

theorem wit_egress : (match choose queued 0 (portOf queued 0) with
    | some (k, l, _) => portUsable queued 0 && (queueAt l k).frames == [frame0] && assocUp queued 0 && frame0.src == some 0
        && !(assocUp (wr .fabAssocStateState 0 1 queued) 0)
    | none => false) = true
  ∧ (choose linked 0 (portOf linked 0)).isNone = true ∧ portUsable linked 3 = false := by decide +kernel

theorem wit_rekey : let s := wr .fabAssocCfgRekeyAt 0 0 linked
    (assocUp s 0 && rd s .fabAssocStateRekeying 0 == 0 && decide (2 ^ rd s .fabAssocCfgRekeyAt 0 ≤ (peerOf (onPeer 0 (fun x => { x with txCounter := 1 }) s) 0).txCounter)
      && exchanging (wr .fabAssocStateRekeying 0 1 s) 0 && !(switched (wr .fabAssocStateRekeying 0 1 s) 0) && (peerOf (onPeer 0 (fun x => { x with failSaid := some 3 }) s) 0).failSaid.isSome
      && (peerOf (onPeer 0 (fun x => { x with oldPhase := true, rekeyAt := some 4 }) s) 0).oldPhase
      && !(assocUp up 0) && rd up .secPeerTrustTrusted 0 == 0) = true := by decide +kernel

theorem wit_ports : (rd linked .fabPortCfgSpeed 0 != 0 && rd (wr .fabPortStatusState 0 0 linked) .fabPortStatusState 0 == 0
    && rd linked .fabPortStatusState 0 == 2 && decide (0 < lanesOf (rd linked .fabPortCfgSpeed 0) (rd linked .fabPortCfgLaneClass 0))
    && rd linked .fabPortCfgSpeed 0 != 3) = true := by decide +kernel

/-! The host port, the crier, power, resets and boot. -/

theorem wit_rings : let s := wr .pciRingCfgSizeLog2 0 6 live
    (fnOk 0 && ringOk 0 && ringFn s 0 == some 0 && !(fabricRing s 0) && ringRunning s 0 && decide (63 < ringSize s 0) && bits 63 14 18 == 0
      && rd s .pciRingStateTail 0 != 63 && decide ((slotsFrom (ringSize s 0) (rd s .pciRingStateTail 0) 63).length ≤ ringRoom s 0)
      && decide (ringSize s 0 ≤ 64) && writable s 0 && !(on s .pciRingCfgEnable 0)
      && on (wr .pciRingCfgEnable 0 1 s) .pciRingCfgEnable 0) = true
  ∧ (let s := onRing 0 (fun x => { x with unread := 3 }) (wr .pciRingStateCompTail 0 3 (wr .pciRingCfgSizeLog2 0 6 live))
     let n := (3 + ringSize s 0 - compHead s 0) % ringSize s 0
     (decide (1 ≤ n) && decide (n ≤ (ringOf s 0).unread)) = true) := by decide +kernel

theorem wit_ringErrors : let s := wr .pciRingStateHead 0 1 (wr .pciRingCfgSizeLog2 0 6 live)
    ringRoom s 0 < (slotsFrom (ringSize s 0) (rd s .pciRingStateTail 0) 63).length ∧ 63 < ringSize s 0 ∧ rd s .pciRingStateTail 0 < ringSize s 0
    ∧ ringSize s 0 ≤ 64 ∧ bits 16384 14 18 ≠ 0 := by decide +kernel

theorem wit_enabledRing : (rd (enableRing 0 0 (storeRingCfg 0 (1 + 6 * 16 + 2047 * 256) (fill [(.pciRingAddrSubAddr, 0, 4096), (.pciRingAddrCompAddr, 0, 8192)]
    (wr .pciRingStateState 0 0 live)))) .pciRingStateState 0) = 1 := by decide +kernel

theorem wit_dmaAndTimers : (fnOk 16 && !(on live .pciFnStatusWedged 16) && on (wr .pciFnStatusWedged 16 1 live) .pciFnStatusWedged 16) = true
  ∧ (let s := onRing 16 (fun x => { x with coalCount := 1 }) (wr .pciRingCfgCoalUs 16 1 live)
     (ringOf s 16).coalCount ≠ 0 ∧ rd s .pciRingCfgCoalUs 16 ≠ 0) := by decide +kernel

theorem wit_chitPages : (chitOwned live 1 63 && !(chitOwned live 1 64) && hostAnswers live && fnOk 1 && awake (startWake live)
    && !(awake (startWake { live with power := { live.power with move := .entering 1 } }))) = true := by decide +kernel

theorem wit_registers : (mayAnswer (wakeFor 0 live) 0 && mayAnswer (wakeFor bar2 live) bar2 && hostAnswers live && decide (0 < bar2)
    && !(mayAnswer (wakeFor 0 { live with power := { live.power with move := .entering 1 } }) 0)) = true := by decide +kernel

theorem wit_links : on live .pciLinkUp 0 = true ∧ halfOk 0 = true ∧ halfOk 1 = true ∧ hostAnswers live = true ∧ hostAnswers State.reset = false
    ∧ ({ Power.off with tileOn := true, perst := false }).tileOn = true ∧ on (wr .pciLinkBif 0 1 live) .pciLinkBif 0 = true
    ∧ bit ({ Power.off with straps := 6 } : Power).straps 2 = true := by decide +kernel

theorem wit_cxl : windowShown cxl 0 = true ∧ (segmentAt cxl 0 2097151).map (fun x => (x.1, x.2.data)) = some (0, some 0)
    ∧ rd cxl .pciLinkCxl 0 ≠ 3 ∧ rd cxl .pciLinkCxl 0 ≠ 0
    ∧ cxl.cxlLines.any (fun x => x.half == 0 && x.line == 3 && x.snooped) = true ∧ lineData cxl 0 3 = some (0, 192) := by decide +kernel

theorem wit_cxlPremises : trackWaits { half := 0, addr := 0, isWrite := false, exclusive := false, data := [] } { half := 0, base := 0, size := 2097152, data := some 0 }
      cxl = false
    ∧ on cxl .pciLinkUp 0 = true ∧ lineData { cxl with plan := plan0 } 0 3 = none := by decide +kernel

/-- The device with CXL 3.0 and a full snoop filter. -/
def fullFilter : State :=
  { wr .pciLinkCxl 0 3 cxl with
    cxlLines := List.replicate filterMax { half := 1, line := 0, exclusive := false, used := 0, snooped := false, snoopAt := 0, image := [] } }

theorem wit_cxlWaits : trackWaits { half := 0, addr := 0, isWrite := false, exclusive := false, data := [] }
    { half := 0, base := 0, size := 2097152, data := some 0 } fullFilter = true := by
  have h : rd fullFilter .pciLinkCxl 0 = 3 := by decide +kernel
  simp [trackWaits, h]
  simp [fullFilter]

theorem wit_eventsAndTills : (hostAnswers live && writable live 1 && !(on live .errEvtCfgEnable 1)
    && on (wr .errEvtCfgEnable 1 1 live) .errEvtCfgEnable 1 && tillAllowed live 1 0 && tillAllowed live 0 0) = true := by decide +kernel

/-- An image of a kind with keys of the slots in ROM or of the owner. -/
def image0 (kind : Nat) (p : Option Plan) : Image :=
  { kind := kind, svn := 0, version := 1, bodyLen := 4096, parts := 1, commitSvn := false, liveOk := true, keySlot := 0, ecdsaOk := true, lmsOk := true,
    keyDigest := if kind = 3 then 5 else 1, digestOk := true, bodyDigest := 0, buildId := 0, plan := p }

/-- The device with VAUX, and a stallholder image staged for live activation. -/
def staged : State :=
  { live with power := { live.power with vauxOk := true }, stagedOk := [1], xspi := { Xspi.blank with slots := [(1, 1, image0 2 none)] } }

theorem wit_pldm : staged.power.vauxOk = true ∧ (sensorReading staged 0).isSome = true ∧ sensorReading staged 7 = none ∧ running staged = true
    ∧ (image0 3 none).kind = 3 ∧ ({ image0 3 none with kind := 4 } : Image).kind = 4 ∧ imageValid staged (image0 3 none) = true
    ∧ imageValid staged { image0 2 none with ecdsaOk := false } = false ∧ liveImage staged = some (image0 2 none)
    ∧ staged.live.active = false := by decide +kernel

theorem wit_crier : sourceOk 0x5E = true ∧ sourceNamed 0x5E = true ∧ live.phase ≠ .stopped ∧ alwaysOnWrite (.fn 0) = true
    ∧ alwaysOnWrite .sideband = true ∧ alwaysOnWrite (.fn 1) = false ∧ Requester.wf .sideband = true
    ∧ (let s := wr .errLogPtrWrite 0 3 live; (3 + 2048 - rd s .errLogPtrRead 0) % 2048 ≤ logUnread s ∧ logUnread s < (4 + 2048 - rd s .errLogPtrRead 0) % 2048)
    ∧ (let s := wr .errTelemCtrlLevel 0 1 live; hostAnswers s = true ∧ telemLevel s ≠ 0 ∧ telemRuns s = true
      ∧ rd s .errTelemAddrTelemAddr 0 = 0 ∧ rd (wr .errTelemAddrTelemAddr 0 65536 s) .errTelemAddrTelemAddr 0 ≠ 0) := by decide +kernel

theorem wit_cores : inTurnCore live 3 = false ∧ wentBack live 3 = false
    ∧ wentBack (wr .hallCoreState 3 1 { live with cores := live.cores.set 3 { Core.fresh with cause := 4 } }) 3 = true
    ∧ rd (wr .hallCoreState 3 1 live) .hallCoreState 3 ≠ 0
    ∧ inTurnCore (wr .hallCoreState 3 1 { live with live := { live.live with active := true, copied := true, turn := 3 } }) 3 = true
    ∧ (List.range 3).any (fun k => on (wr .secImageTrial 2 1 live) .secImageTrial k) = true := by decide +kernel

theorem wit_firmware : ((List.range 3).any (fun k => on live .secImageTrial k)) = false ∧ staged.live.active = false ∧ (liveImage staged).isSome = true
    ∧ (let s := { staged with live := { staged.live with active := true } }
       s.live.active = true ∧ s.live.copied = false ∧ running s = true ∧ (liveImage s).isSome = true)
    ∧ (liveImage live).isNone = true ∧ inTurnCore { wr .hallCoreState 0 1 live with live := { live.live with active := true, copied := true, turn := 0 } } 0 = true
    ∧ ({ live with phase := .fatalHold } : State).phase = .fatalHold
    ∧ ([0, 0].filter (fun t => decide (live.localTime ≤ t + 1000000000)) ++ [live.localTime]).length = 3 := by decide +kernel

theorem wit_supply : (hostAnswers live && stageOk 1 && stageOk 4 && decide (35000 ≤ stageMv 4) && decide (rd live .pwrStageStage 0 < 1)
    && rd (wr .pwrStageStage 0 4 live) .pwrStageStage 0 == 4 && decide (stageMv 4 + 1000 ≤ 36000)) = true := by decide +kernel

theorem wit_powerLimits : rateFloor < rd (wr .hallRateRateTarget 0 2000 live) .hallRateRateTarget 0
    ∧ rd (wr .hallRateRateTarget 0 1950 live) .hallRateRateTarget 0 + 50 ≤ min 2000 live.power.tempLimit
    ∧ live.power.throttle = 0 ∧ ({ live.power with tempLimit := 1950 } : Power).tempLimit < 2000 ∧ live.power.tripped = false := by
  decide +kernel

theorem wit_powerStates : isQuiet up = true ∧ rd up .pwrStateState 0 = 0 ∧ up.power.move = .none ∧ up.power.holdUntil ≤ up.localTime
    ∧ nextEvent up = none ∧ nextEvent { up with triggers := [trigger0] } = some 70
    ∧ (let s := { wr .pwrStateState 0 3 up with power := { up.power with pollAt := 9 } }; resting s = true ∧ (nextEvent s).isSome = true)
    ∧ up.ports.all (fun p => p.ingress.isEmpty) = true := by decide +kernel

theorem wit_powerMoves : isQuiet { up with seals := [seal0 none] } = false
    ∧ ({ up with power := { up.power with move := .quiet } } : State).power.move = .quiet
    ∧ ({ up with power := { up.power with move := .entering 3 } } : State).power.move = .entering 3
    ∧ ({ up with power := { up.power with move := .waking } } : State).power.move = .waking
    ∧ ({ up with power := { up.power with holdUntil := 1 } } : State).power.holdUntil ≠ 0 ∧ portOk 7 = true ∧ frame0.wf = true := by decide +kernel

/-- A plan with one pitch that passes every check. -/
def plan2 : Plan :=
  { plan0 with
    peers := [], dies := [(0, 0)],
    fields := [(⟨.secPitchLayoutStalls, 0⟩, 1), (⟨.pitchClientValid, 0⟩, 1), (⟨.pitchLedgerQuota, 0⟩, 4)],
    tableA := [{ duration := 1, classMap := 2 ^ 128 - 16, reserved := 0 }], tableB := [{ duration := 10, classMap := 2 ^ 128 - 16, reserved := 0 }] }

/-- The device in reset with power, its images in their first slots. -/
def ready : State :=
  { State.reset with
    power := { Power.off with vauxOk := true, tileOn := true, perst := false }
    xspi := { hdr0 := some { active := [0, 0, 0], trial := [false, false, false], count := [0, 0, 0], seqNo := 1, crcOk := true }, hdr1 := none,
              slots := [(0, 0, image0 1 none), (1, 0, image0 2 none), (2, 0, image0 3 (some plan2))] } }

theorem wit_boot : released ready = true ∧ (hdrOf ready.xspi).isSome = true
    ∧ answers (exec (.boot { stacksTrained := 3, silentChannels := 0, unlistedDie := false, stallsFailed := 0, framesFailed := [], bootMs := 1 }) ready)
      running = true
    ∧ planCheck { ready with plan := loadPlan plan2 } = none ∧ assignedStacks { ready with plan := loadPlan plan2 } = [0, 1]
    ∧ hdrOf ({ ready with xspi := Xspi.blank } : State).xspi = none := by decide +kernel

/-- That device with no valid image of one kind. -/
def lacking (kind : Nat) : State := { ready with xspi := { ready.xspi with slots := ready.xspi.slots.filter (fun x => x.1 != kind) } }

/-- How a boot of that device ends: its phase, step and code. -/
def bootEnd (trained : Nat) (s : State) : List Nat :=
  match exec (.boot { stacksTrained := trained, silentChannels := 0, unlistedDie := false, stallsFailed := 0, framesFailed := [], bootMs := 1 }) s with
  | .next t => [b2n (t.phase == .stopped), t.bootStep, rd t .secBootCode 0]
  | _ => []

theorem wit_bootStops : [0, 1, 2].map (fun k => bootEnd 3 (lacking k)) = [[1, 1, 0x10], [1, 3, 0x11], [1, 3, 0x12]]
    ∧ bootEnd 1 ready = [1, 5, 0x30]
    ∧ bootEnd 3 { ready with xspi := { ready.xspi with slots := [(0, 0, image0 1 none), (1, 0, image0 2 none),
        (2, 0, image0 3 (some { plan2 with planFmt := 2 }))] } } = [1, 4, 0x20] := by decide +kernel

theorem wit_clocks : on (fill [(.pciLinkBif, 0, 1), (.pciLinkUp, 1, 1)] live) .pciLinkBif 0 = true
    ∧ on (fill [(.pciLinkBif, 0, 1), (.pciLinkUp, 1, 1)] live) .pciLinkUp 1 = true ∧ live.power.onfiOff = false := by decide +kernel

/-! What is left of the premises: the queue, remote copies, and rules of single operations. -/

/-- A command at the front of the queue. -/
def queuedUp : State := { live with pending := [.macControlFrame 7, .popHalving] }

theorem wit_queue : queuedUp.pending = .macControlFrame 7 :: [.popHalving] ∧ (queuedUp.pending.all (fun c => c.wf)) = true
    ∧ State.reset.pending = [] ∧ (Instr.macControlFrame 8).wf = false := by decide

theorem wit_resting : running ready = false ∧ (Instr.popHalving).wf = true ∧ actsAtRest .popHalving = false
    ∧ answers (exec (.boot { stacksTrained := 3, silentChannels := 0, unlistedDie := false, stallsFailed := 0, framesFailed := [], bootMs := 1 }) ready)
      running = true := by decide +kernel

theorem wit_headerChecks : (live.pending.isEmpty && mayFetch live 0 && entryThere live 0 0 (withOpcode (Opcode.code .attend) (entryOf []))
    && ((headerFailures live .attend 0 (entryOf [])).find? (fun x => x.1)).map (fun x => x.2) == some .access
    && ((headerFailures live .chitSet 1 (entryOf [(8, 1)])).find? (fun x => x.1)).map (fun x => x.2) == some .badParam
    && ((headerFailures (wr .secPitchStateState 0 3 live) .chitSet 1 (entryOf [])).find? (fun x => x.1)).map (fun x => x.2) == some .closing) = true := by
  decide +kernel

theorem wit_stacks : pitchStacks up 0 = [0, 1] ∧ stackOf up 0 0 = 0 ∧ stackOf up 0 3 = 1 := by decide +kernel

theorem wit_openedSequence : (cmdOf { live with cmds := [cmd0 .seqOpen] } 5).isSome = true ∧ (cmd0 .seqOpen).members = []
    ∧ (live.seqs.all (fun q => q.uid != live.order)) = true := by decide +kernel

theorem wit_handle : (handle0 4).tier < 8 ∧ (handle0 4).device < 1024 ∧ (handle0 4).pitch < 16 ∧ (handle0 4).format < 8
    ∧ (handle0 4).word ≠ nullHandle := by decide

theorem wit_fullReset2 : live.phase ≠ .reset ∧ ready.phase = .reset ∧ (15 < 16) := by decide


/-! Ill-formed operands: a command for each check that the check refuses (R14, R335, R402, R412, R419, R423, R534, R563). -/

theorem wf_refuses :
    ([.seqOpen 1024 0, .coalTimer 1024, .winRevokeDone 262144, .pitchClean 16, .leaseAsk 0 16 0, .stallFail 32,
      .tileBoundary 0 { read := .corrected 8 0 [], starve := 0, laneBound := 0 }, .fetchDone 0 (.lostFrame 8 0 []), .gcZoneDone 16 0 [],
      .leaseRecall 4096 0, .rtoExpiry 65536 0, .avoidHoldExpiry 65536 0, .egressFrameStart 8, .portLaneFail 0 4, .portReset 17 0,
      .subTailWrite 17 0 0, .dmaTimeout 17, .pcieHotReset 2, .coreReady 4, .supplyStageEnter 0 0, .supplyStageEnd 5 0, .captureClear (.fn 0) 128,
      .alertClear (.fn 17), .wakeArrival (.controlPacket 8), .registerRead (.fn 17) 0 8, .registerWrite 17 0 8 0, .chitHostWrite 17 0 8 0,
      .rxWrite { frame0 with port := 8 }, .cxlSnoopTimeout 2 0, .tillSnap 0 16] : List Instr).all (fun c => !c.wf) = true := by decide

theorem exec_refuses : exec (.stallFail 32) State.reset = .fault .noSuchUnit := rfl

/-! Single commands, against values of the manual. -/

/-- R442: CHIT_ADD adds modulo 2^64: 2^64 - 1 and 3 give 2. -/
theorem test_chitAdd : answers (exec (.chitAdd 16 (entryOf [(0x10, 5), (0x18, 3)])) { live with chits := [(5, 2 ^ 64 - 1)] })
    (fun t => chitVal t 5 == 2 && t.cmds.isEmpty && (ringOf t 16).unread == 1) = true := by decide +kernel

/-- R442: CHIT_SET of a chit outside the pitch's range changes nothing. -/
theorem test_chitSet_access : answers (exec (.chitSet 16 (entryOf [(0x10, 64), (0x18, 3)])) live)
    (fun t => chitVal t 64 == 0 && (ringOf t 16).unread == 1) = true := by decide +kernel

/-- R36, R41, R77: SEQ_OPEN takes the lowest free ledger slot, and its sequence is ACTIVE and empty. -/
theorem test_seqOpen : answers (exec (.seqOpen 16 (entryOf [(0x10, 9), (0x17, 3), (0x22, 64), (0x23, 8), (0x24, 4)])) live)
    (fun t => t.seqs.map (fun q => (q.id, q.slot, q.layers.length, seqLength q)) == [(9, 0, 64, 0)]
      && t.seqs.all (fun q => q.st == .active)) = true := by decide +kernel

/-- R68: a mask of 0b01 keeps the first of two tentative tokens. -/
theorem test_accept : answers (exec (.accept 16 (entryOf [(0x10, 9), (0x18, 1)])) { held with seqs := [seq2] })
    (fun t => t.seqs.map (fun q => (seqLength q, seqTent q)) == [(2, 0)]) = true := by decide +kernel

/-- R428, R432: a SUB_TAIL of the ring's size is an error with cause 1. -/
theorem test_subTail : answers (exec (.subTailWrite 0 0 64) live)
    (fun t => rd t .pciRingStateState 0 == 2 && rd t .pciRingStateCause 0 == 1) = true := by decide +kernel

/-- R446: an aligned 8-byte write sets the chit; one of 4 bytes sets nothing. -/
theorem test_chitHostWrite : answers (exec (.chitHostWrite 1 0x400008 8 77) live) (fun t => chitVal t 1 == 77) = true
    ∧ answers (exec (.chitHostWrite 1 0x400008 4 77) live) (fun t => chitVal t 1 == 0) = true := by decide +kernel

/-- R535, and the worked example of the supply stages: 35.4 V enters A, B and C but not D; C ends at 37.0 V. -/
theorem test_supplyStages : answers (exec (.supplyStageEnter 3 35400) live) (fun t => rd t .pwrStageStage 0 == 3) = true
    ∧ answers (exec (.supplyStageEnter 4 35400) live) (fun t => rd t .pwrStageStage 0 == 0) = true
    ∧ answers (exec (.supplyStageEnd 3 37000) (wr .pwrStageStage 0 3 live)) (fun t => rd t .pwrStageStage 0 == 2) = true
    ∧ answers (exec (.supplyStageEnd 3 36999) (wr .pwrStageStage 0 3 live)) (fun t => rd t .pwrStageStage 0 == 3) = true := by
  decide +kernel

/-- R541: at 100 °C the target falls by 50; below 97 °C it rises again. -/
theorem test_thermal : answers (exec (.thermalStep 100) (wr .hallRateRateTarget 0 2000 live))
      (fun t => rd t .hallRateRateTarget 0 == 1950) = true
    ∧ answers (exec (.thermalRecover 96) (wr .hallRateRateTarget 0 1950 { live with power := { live.power with tempLimit := 1950 } }))
      (fun t => rd t .hallRateRateTarget 0 == 2000) = true := by decide +kernel

/-- R552, R553: a reset discards the sequences; a second source inside the reset adds none. -/
theorem test_perst : answers (exec .perstAssert held) (fun t => t.seqs.isEmpty && rd t .pwrResetCauseFullResets 0 == 1) = true
    ∧ answers (exec .perstAssert { ready with phase := .reset }) (fun t => rd t .pwrResetCauseFullResets 0 == 0) = true := by decide +kernel

/-- R515: a blank configuration flash stops the boot at step 1 with code 0x01. -/
theorem test_bootBlank : answers (exec (.boot { stacksTrained := 255, silentChannels := 0, unlistedDie := false, stallsFailed := 0, framesFailed := [], bootMs := 1 })
    { ready with xspi := Xspi.blank }) (fun t => t.phase == .stopped && rd t .secBootCode 0 == 1) = true := by decide +kernel

/-- R386: a PAUSE frame is counted, and nothing else. -/
theorem test_macControl : answers (exec (.macControlFrame 7) live) (fun t => rd t .fabPortStatusMacCtrl 7 == 1) = true := by decide +kernel

/-- R172: 0.999 µs, 1 µs, 16,383.999 µs and 16,384 µs. -/
theorem test_waitBucket : [999, 1000, 16383999, 16384000].map waitBucket = [0, 1, 14, 15] := by decide

/-- R42: TIER 3, DEVICE 1, PITCH 0, FORMAT 2, LOCATION 5. -/
theorem test_handle : (handle0 3).word = 3 * 2 ^ 61 + 2 ^ 51 + 2 * 2 ^ 44 + 5 := by decide

/-- R153, and the worked example of the timetable: CLASS_MAP[63:32] of 0x2211_1100 gives stall 8 class 0 and stall 14 class 2. -/
theorem test_classMap : (let t : TtSlot := { duration := 50, classMap := 0x22111100 * 2 ^ 32, reserved := 0 }
    [8, 10, 12, 14].map (slotClass live (some t))) = [0, 1, 1, 2] := by decide +kernel

/-- R436: TAG, STATUS, PHASE, SUB_HEAD, RING, RESULT, lowest byte first. -/
theorem test_completion : compBytes 40 { slot := 0, tag := 0x1234, status := .busy, result := 7, chit := noChit } 1 0x0203 =
    [0x34, 0x12, 1, 1, 3, 2, 40, 0, 7, 0, 0, 0, 0, 0, 0, 0] := by decide

/-- R49: codes 1, 2, 3 lie in the nibbles of two bytes, the even element low. -/
theorem test_nibbles : pairUp [1, 2, 3, 4] = [0x21, 0x43] := by decide

/-- R50: thirty-two zeros have scale 0 and codes 0. -/
theorem test_quantZeros : quantGroup .int4 (List.replicate 32 0) = (0, List.replicate 32 0) := by decide +kernel

/-- The block has no table bits, so no word spells a command. -/
theorem test_decode : decodeTableWord 16 0 = none ∧ State.reset.withFetchWord 16 0 = State.reset := ⟨rfl, rfl⟩

/-- A step takes the front of the queue. -/
theorem test_step : answers (step queuedUp) (fun t => t.pending == [.popHalving]) = true := by decide +kernel

end Sys2Proof.Tests
end

section
/-! PROOFS. The architecture's statements: the step, the stacks of pages, full reset, the power and temperature limits. -/
namespace Sys2Proof.Machine

open Sys2Proof.Claims

/-! Coding a page changes code tables, active lists and counters; the crates stay. -/

@[simp] theorem touchTable_crates (p role id : Nat) (s : State) : (touchTable p role id s).crates = s.crates := rfl

@[simp] theorem createTable_crates (p role id gen : Nat) (wide : Bool) (lens : List Nat) (s : State) :
    (createTable p role id gen wide lens s).crates = s.crates := rfl

@[simp] theorem refuseTable_crates (s : State) : (refuseTable s).crates = s.crates := rfl

@[simp] theorem admitTable_crates (p role : Nat) (wide : Bool) (lens : List Nat) (s : State) :
    (admitTable p role wide lens s).2.crates = s.crates := by
  unfold admitTable
  extract_lets ids
  split
  · exact touchTable_crates ..
  · split
    · exact refuseTable_crates s
    · split
      · split
        · exact createTable_crates ..
        · exact refuseTable_crates s
      · split
        · exact refuseTable_crates s
        · extract_lets g
          split
          · exact createTable_crates ..
          · exact refuseTable_crates s

@[simp] theorem chooseRole_crates (p role : Nat) (wide : Bool) (blocks : List (List (List Nat))) (s : State) :
    (chooseRole p role wide blocks s).2.crates = s.crates := by
  unfold chooseRole
  extract_lets n best size wants all
  split
  · rfl
  · have kept := admitTable_crates p role wide (buildLengths (histogram n all)) s
    split <;> rename_i h <;> rw [h] at kept <;> exact kept

@[simp] theorem codeRole_crates (p role : Nat) (wide : Bool) (blocks : List (List (List Nat))) (s : State) :
    (codeRole p role wide blocks s).2.crates = s.crates := by
  refine (each_keeps (fun u => u.crates) _ _ _ fun d _ u => ?_).trans (chooseRole_crates p role wide blocks s)
  split
  · exact touchTable_crates ..
  · rfl

@[simp] theorem codeBody_crates (p : Nat) (h : Shape) (body : List Block) (s : State) :
    (codeBody p h body s).2.crates = s.crates := by
  unfold codeBody
  split
  · rfl
  · refine List.foldlRecOn (motive := fun acc : List (Nat × BlockDir) × State => acc.2.crates = s.crates) _ _ rfl ?_
    intro acc kept role _
    dsimp only
    split
    · exact kept
    · exact (codeRole_crates ..).trans kept

/-- A seal that finds room on its page's stack adds one crate, and puts it there (R16, R71); one that finds none adds none. -/
theorem sealPage_crates (x : Seal) (q : Seq) (toks : List Token) (s : State) :
    (sealPage x q toks s).crates = s.crates
    ∨ ∃ k, (sealPage x q toks s).crates = s.crates ++ [k] ∧ k.layer = x.layer ∧ k.stack = stackOf s q.pitch k.page := by
  unfold sealPage
  extract_lets page stack body c0 r t h c u
  split
  · exact .inl rfl
  · refine .inr ⟨c, ?_, rfl, rfl⟩
    have kept : u.crates = s.crates := by
      have coded : t.crates = s.crates := codeBody_crates ..
      show (if _ then _ else t : State).crates = _
      split <;> exact coded
    show u.crates ++ [c] = _
    rw [kept]

/-! The stacks of a pitch (R16). -/

theorem mem_pitchStacks (s : State) (p k : Nat) :
    k ∈ pitchStacks s p ↔ k < 8 ∧ (pitchPlan s p).granules.contains k = true := by
  simp [pitchStacks]

theorem pitchStacks_ascending (s : State) (p : Nat) : (pitchStacks s p).Pairwise (fun a b => a < b) :=
  List.pairwise_lt_range.filter _

/-- The stack of a page is the one that the page number gives modulo the number of stacks (R16). -/
theorem stackOf_eq (s : State) (p page : Nat) (h : pitchStacks s p ≠ []) :
    (pitchStacks s p)[page % (pitchStacks s p).length]? = some (stackOf s p page) := by
  have pos : 0 < (pitchStacks s p).length := List.length_pos_of_ne_nil h
  have lt := Nat.mod_lt page pos
  simp [stackOf, Nat.ne_of_gt pos, List.getElem?_eq_getElem lt]

/-- Settles O44: the stacks are a filtered range, and a seal reads the page's stack before it codes. -/
theorem pagesSpreadOverStacks : Obligations.PagesSpreadOverStacks :=
  ⟨stackOf_eq, fun s p => ⟨pitchStacks_ascending s p, mem_pitchStacks s p⟩, sealPage_crates⟩

/-- Settles O1, by the equation of step for each shape of the queue. -/
theorem stepRunsFront : Obligations.StepRunsFront := ⟨fun _ _ _ h => step_cons h, fun _ h => step_nil h⟩

/-! Full reset (R550 to R554). The reset record is written before the contents go, so what the record touches is said first. -/

/-- The fields that count what the log takes, and show where it stands (R570 to R573). -/
def logField (f : Fld) : Bool := f.desc.reg == .errLogPtr || f.desc.reg == .errSourceStat

/-- From s to t nothing has changed but the crier, the free values taken, and the fields of the log. -/
def OnlyLogs (s t : State) : Prop :=
  ∃ regs crier fresh, t = { s with regs := regs, crier := crier, fresh := fresh }
    ∧ ∀ f i, logField f = false → rd t f i = rd s f i

theorem OnlyLogs.refl (s : State) : OnlyLogs s s := ⟨s.regs, s.crier, s.fresh, rfl, fun _ _ _ => rfl⟩

theorem OnlyLogs.trans {s t u : State} (h : OnlyLogs s t) (k : OnlyLogs t u) : OnlyLogs s u := by
  obtain ⟨_, _, _, rfl, hr⟩ := h
  obtain ⟨regs, crier, fresh, rfl, kr⟩ := k
  exact ⟨regs, crier, fresh, rfl, fun f i e => (kr f i e).trans (hr f i e)⟩

theorem OnlyLogs.of_wr {s t : State} (h : OnlyLogs s t) (f : Fld) (i v : Nat) (hf : logField f = true) :
    OnlyLogs s (wr f i v t) := by
  refine h.trans ⟨_, _, _, rfl, fun g j hg => rd_wr_ne t f g i j v (.inl fun e => ?_)⟩
  rw [e, hg] at hf
  contradiction

theorem OnlyLogs.of_bump {s t : State} (h : OnlyLogs s t) (f : Fld) (i n : Nat) (hf : logField f = true) :
    OnlyLogs s (bump f i n t) := h.of_wr f i _ hf

theorem OnlyLogs.of_freshen {s t : State} (h : OnlyLogs s t) : OnlyLogs s (freshen t) :=
  h.trans ⟨t.regs, t.crier, t.fresh + 1, rfl, fun _ _ _ => rfl⟩

theorem OnlyLogs.of_crier {s t : State} (h : OnlyLogs s t) (c : Crier) : OnlyLogs s { t with crier := c } :=
  h.trans ⟨t.regs, c, t.fresh, rfl, fun _ _ _ => rfl⟩

theorem OnlyLogs.of_logPut {s t : State} (h : OnlyLogs s t) (n : Nat) (e : LogEntry) : OnlyLogs s (logPut n e t) :=
  h.of_crier _

theorem OnlyLogs.of_logMarker {s t : State} (h : OnlyLogs s t) : OnlyLogs s (logMarker t) := by
  unfold logMarker
  split
  · exact h
  · exact (((h.of_freshen.of_freshen.of_logPut _ _).of_wr .errLogPtrWrite _ _ rfl).of_bump .errLogPtrMarkers _ _ rfl).of_crier _

theorem OnlyLogs.of_logAppend {s t : State} (h : OnlyLogs s t) (e : LogEntry) : OnlyLogs s (logAppend e t) :=
  ((h.of_logPut _ e).of_wr .errLogPtrWrite _ _ rfl).of_bump .errSourceStatLogged _ _ rfl

theorem OnlyLogs.of_logWrite {s t : State} (h : OnlyLogs s t) (e : LogEntry) : OnlyLogs s (logWrite e t).2 := by
  unfold logWrite
  extract_lets u w c
  have marked : OnlyLogs s u := by
    show OnlyLogs s (if _ then _ else _)
    split
    · exact h.of_logMarker
    · exact h
  split
  · exact marked.of_logAppend e
  · split
    · split
      · exact ((marked.of_logPut _ e).of_bump .errLogPtrOverwritten _ _ rfl).of_bump .errSourceStatLogged _ _ rfl
      · exact marked.of_bump .errSourceStatDropped _ _ rfl
    · exact (marked.of_bump .errSourceStatDropped _ _ rfl).of_crier _

theorem record_onlyLogs (kind : Nat) (c : Cond) (sev : Nat) (s : State) : OnlyLogs s (record kind c sev s) :=
  (OnlyLogs.refl s).of_freshen.of_freshen.of_logWrite _

/-- Restoring leaves the fields that the test does not pick. -/
theorem rd_restore_unpicked {pick : FldDesc → Nat → Bool} {f : Fld} {i : Nat} (s : State) (h : pick f.desc i = false) :
    rd (restore pick s) f i = rd s f i := by
  have kept : RegFile.get (restore pick s).regs ⟨f, i⟩ = RegFile.get s.regs ⟨f, i⟩ :=
    (regFile_get_filter s.regs (fun k => !pick k.fld.desc k.idx) ⟨f, i⟩).trans (by simp [h])
  show (RegFile.get (restore pick s).regs ⟨f, i⟩).getD (resetValue s f i) = _
  rw [kept, rd]

/-- A full reset of the register file leaves the fields that only a power-on reset restores (R12). -/
theorem rd_restoreFull (s : State) (f : Fld) (i : Nat) (hk : f.desc.kind = .powerOn) : rd (restoreFull s) f i = rd s f i :=
  rd_restore_unpicked s (by rw [hk])

/-- A device held in reset keeps those fields too, of which FATAL_N is written anew (R566). -/
theorem rd_heldInReset (s : State) (f : Fld) (i : Nat) (hk : f.desc.kind = .powerOn) (hf : f ≠ .errAlarmFatal) :
    rd (heldInReset s) f i = rd s f i := by
  have hb : f ≠ .pciLinkBif := fun e => by rw [e] at hk; contradiction
  unfold heldInReset
  extract_lets restored kept half
  rw [rd_wr_ne _ _ _ _ _ _ (.inl hb.symm), rd_wr_ne _ _ _ _ _ _ (.inl hb.symm), rd_wr_ne _ _ _ _ _ _ (.inl hf.symm)]
  exact rd_restoreFull s f i hk

theorem bump_saturates (f : Fld) (i n : Nat) (s : State) (h : f.desc.top = .sat) :
    rd (bump f i n s) f i = min (rd s f i + n) (2 ^ f.desc.w - 1) := by
  simp only [bump, h, rd_wr]
  exact Nat.mod_eq_of_lt (by have := Nat.two_pow_pos f.desc.w; omega)

/-- A full reset that begins: what is held in reset once the cause stands, the reset is counted and its record is in the log
(R552, R553). -/
theorem fullReset_begins (cause : Nat) (s : State) (h : s.phase ≠ .reset) :
    ∃ u, OnlyLogs (bump .pwrResetCauseFullResets 0 1 (wr .pwrResetCauseCause 0 cause s)) u
      ∧ fullReset cause s = heldInReset u :=
  ⟨_, record_onlyLogs 2 .resetRecord sevInfo _, by simp [fullReset, h]⟩

/-- A cause that arises in reset changes nothing (log entry 54, from R553). -/
theorem fullReset_inReset (cause : Nat) (s : State) (h : s.phase = .reset) : fullReset cause s = s := by
  simp [fullReset, h]

theorem rd_fullReset_cause (cause : Nat) (s : State) (h : s.phase ≠ .reset) (hc : cause < 16) :
    rd (fullReset cause s) .pwrResetCauseCause 0 = cause := by
  obtain ⟨u, ⟨_, _, _, _, kept⟩, begun⟩ := fullReset_begins cause s h
  rw [begun, rd_heldInReset _ _ _ rfl (by decide), kept _ _ rfl, bump, rd_wr_ne _ _ _ _ _ _ (.inl (by decide)), rd_wr]
  exact Nat.mod_eq_of_lt hc

theorem rd_fullReset_fullResets (cause : Nat) (s : State) (h : s.phase ≠ .reset) :
    rd (fullReset cause s) .pwrResetCauseFullResets 0 = min (rd s .pwrResetCauseFullResets 0 + 1) 65535 := by
  obtain ⟨u, ⟨_, _, _, _, kept⟩, begun⟩ := fullReset_begins cause s h
  rw [begun, rd_heldInReset _ _ _ rfl (by decide), kept _ _ rfl, bump_saturates _ _ _ _ rfl,
    rd_wr_ne _ _ _ _ _ _ (.inl (by decide))]
  rfl

/-- A full reset keeps the fuses, the flashes and what has left the part; the read-threshold loops start again (R23, R554). -/
theorem fullReset_keeps (cause : Nat) (s : State) (h : s.phase ≠ .reset) :
    let t := fullReset cause s
    t.fuses = s.fuses ∧ t.xspi = s.xspi ∧ t.keyArea = s.keyArea ∧ t.zones = s.zones.map Zone.loopEnds ∧ t.wire = s.wire
      ∧ t.pending = s.pending := by
  obtain ⟨_, ⟨_, _, _, rfl, _⟩, begun⟩ := fullReset_begins cause s h
  rw [begun]
  exact ⟨rfl, rfl, rfl, rfl, rfl, rfl⟩

/-- A device held in reset holds no work (R552). -/
theorem fullReset_discards (cause : Nat) (s : State) (h : s.phase ≠ .reset) :
    let t := fullReset cause s
    t.phase = .reset ∧ t.cmds = [] ∧ t.rings = [] ∧ t.seqs = [] ∧ t.crates = [] ∧ t.attends = [] ∧ t.windows = [] ∧ t.conns = []
      ∧ t.chits = [] ∧ t.dram = [] ∧ t.hall = [] := by
  obtain ⟨_, _, begun⟩ := fullReset_begins cause s h
  rw [begun]
  exact ⟨rfl, rfl, rfl, rfl, rfl, rfl, rfl, rfl, rfl, rfl, rfl⟩

/-- Settles O51: the record of the reset touches the log alone, and what is held in reset keeps its power-on fields. -/
theorem fullResetDiscardsWork : Obligations.FullResetDiscardsWork := by
  refine ⟨fun cause s h hc => ?_, fullReset_inReset⟩
  obtain ⟨phase, cmds, rings, seqs, crates, attends, windows, conns, chits, dram, hall⟩ := fullReset_discards cause s h
  exact ⟨phase, cmds, rings, seqs, crates, attends, windows, conns, chits, dram, hall,
    rd_fullReset_cause cause s h hc, rd_fullReset_fullResets cause s h, fullReset_keeps cause s h⟩

/-! The power envelope and the temperature (R24, R540, R541). -/

/-- What a row answers that acts while the host is answered: what the block settles into from its effect. -/
theorem works_inHold {c : Instr} {s u : State} {f : State → State} (row : exec c s = inHold true s f)
    (h : hostAnswers s = true) (effect : f s = u) : Works c s u := by
  rw [Works, row, inHold_up h rfl, effect]

/-- What a row answers that acts in every phase and after which nothing settles. -/
theorem gives_always {c : Instr} {s u : State} {f : State → State} (row : exec c s = always true s f) (effect : f s = u) :
    Gives c s u := by
  rw [Gives, row, always_ok rfl, effect]

theorem capRelease_throttled (s : State) (h : 0 < s.power.throttle) :
    capRelease s = { s with power := { s.power with throttle := s.power.throttle - 1 } } := if_pos h

theorem capRelease_free (s : State) (h : s.power.throttle = 0) :
    let top := min 2000 s.power.tempLimit
    let u := wr .hallRateRateTarget 0 (max (min top (rd s .hallRateRateTarget 0 + 50)) (rd s .hallRateRateTarget 0)) s
    capRelease s
      = { u with power := { s.power with capHeld := s.power.capHeld && decide (rd u .hallRateRateTarget 0 < top) } } :=
  if_neg (by omega)

theorem thermalStep_hot {tj : Nat} {s : State} (h : 100 ≤ tj) (k : rateFloor < rd (wr .pwrSupplyTj 0 tj s) .hallRateRateTarget 0) :
    let u := wr .pwrSupplyTj 0 tj s
    let n := max rateFloor (rd u .hallRateRateTarget 0 - 50)
    thermalStep tj s
      = { bump .pwrLimitThermal 0 1 (wr .hallRateRateTarget 0 n u) with power := { u.power with tempLimit := n } } :=
  if_neg (by omega)

theorem thermalStep_rests {tj : Nat} {s : State}
    (h : tj < 100 ∨ rd (wr .pwrSupplyTj 0 tj s) .hallRateRateTarget 0 ≤ rateFloor) :
    thermalStep tj s = wr .pwrSupplyTj 0 tj s := if_pos h

theorem thermalRecover_cool {tj : Nat} {s : State} (h : tj < 97) (k : s.power.tempLimit < 2000) :
    let u := wr .pwrSupplyTj 0 tj s
    let n := min 2000 (s.power.tempLimit + 50)
    let v := { u with power := { u.power with tempLimit := n } }
    thermalRecover tj s = if s.power.capHeld then v else wr .hallRateRateTarget 0 n v :=
  if_neg (show ¬ (97 ≤ tj ∨ 2000 ≤ s.power.tempLimit) by omega)

theorem thermalRecover_rests {tj : Nat} {s : State} (h : 97 ≤ tj ∨ 2000 ≤ s.power.tempLimit) :
    thermalRecover tj s = wr .pwrSupplyTj 0 tj s := if_pos h

theorem thermalTrip_trips {tj : Nat} {s : State} (h : 110 ≤ tj) (k : s.power.tripped = false) :
    let t := fullResetTileOff causeTrip (report srcPower .thermalTrip sevFatal none (wr .pwrSupplyTj 0 tj s))
    thermalTrip tj s = { t with power := { t.power with tripped := true } } :=
  if_neg (by simp [k, h])

/-- Each measure acts by its own step and count when it stands above its own level (R540). -/
theorem powerCapCompletes : Claims.PowerCapCompletes := by
  refine ⟨fun a b c s h => ?_, fun s h k => ?_, fun s h k => ?_⟩
  · exact ⟨works_inHold rfl h rfl, works_inHold rfl h rfl, works_inHold rfl h rfl, works_inHold rfl h rfl⟩
  · exact works_inHold rfl h (capRelease_throttled s k)
  · exact works_inHold rfl h (capRelease_free s k)

/-- A step of the temperature acts above its threshold, or only shows what was measured (R24, R541). -/
theorem thermalEventsComplete : Claims.ThermalEventsComplete := by
  refine ⟨fun tj s h => ⟨fun hot above => ?_, fun rests => ?_⟩, fun tj s h => ⟨fun cool below => ?_, fun rests => ?_⟩,
    fun tj s hot untripped => ?_, fun s => ?_⟩
  · exact works_inHold rfl h (thermalStep_hot hot above)
  · exact works_inHold rfl h (thermalStep_rests rests)
  · exact works_inHold rfl h (thermalRecover_cool cool below)
  · exact works_inHold rfl h (thermalRecover_rests rests)
  · exact gives_always rfl (thermalTrip_trips hot untripped)
  · exact gives_always rfl rfl

/-- Settles O38: the rows of the power cap and those of the temperature, each by the equation of its effect. -/
theorem powerLimitsComplete : Obligations.PowerLimitsComplete := ⟨powerCapCompletes, thermalEventsComplete⟩

end Sys2Proof.Machine
end

section
/-! PROOFS. Ledger and pages: encodings of codes, numbers and handles. -/
namespace Sys2Proof.Machine

/-! Nibbles and bytes (R10, R49). -/

/-- The byte of a pair of codes holds the even one in its low half and the odd one in its high half (R49). -/
theorem pairUp_getElem? : ∀ (l : List Nat) (k a b : Nat), l[2 * k]? = some a → l[2 * k + 1]? = some b →
    (pairUp l)[k]? = some (BitVec.ofNat 8 (a + 16 * b))
  | x :: y :: t, 0, a, b, ha, hb => by
    simp only [Nat.mul_zero, Nat.zero_add, List.getElem?_cons_zero, List.getElem?_cons_succ, Option.some.injEq] at ha hb
    simp [pairUp, ha, hb]
  | x :: y :: t, k + 1, a, b, ha, hb => by
    have even : t[2 * k]? = some a := by simpa [Nat.mul_succ] using ha
    have odd : t[2 * k + 1]? = some b := by simpa [Nat.mul_succ] using hb
    simpa [pairUp] using pairUp_getElem? t k a b even odd
  | [_], 0, _, _, _, hb => by simp at hb
  | [_], _ + 1, _, _, ha, _ => by simp [Nat.mul_succ] at ha
  | [], _, _, _, ha, _ => by simp at ha

/-- Two nibbles in a byte come apart again. -/
theorem nibbles_of_byte {a b : Nat} (ha : a < 16) (hb : b < 16) :
    (BitVec.ofNat 8 (a + 16 * b)).toNat % 16 = a ∧ (BitVec.ofNat 8 (a + 16 * b)).toNat / 16 = b := by
  rw [BitVec.toNat_ofNat]
  omega

/-- Byte i of the n bytes of a number is its digit i to the base 256 (R49). -/
theorem leBytes_getElem? : ∀ (n v i : Nat), i < n → ((leBytes n v)[i]?).map BitVec.toNat = some (v / 256 ^ i % 256)
  | n + 1, v, 0, _ => by simp [leBytes]
  | n + 1, v, i + 1, h => by
    rw [leBytes, List.getElem?_cons_succ, leBytes_getElem? n (v / 256) i (by omega), Nat.div_div_eq_div_mul, Nat.pow_succ']

/-- Bytes that spell a number are that number's bytes (R10). -/
theorem leBytes_leNat : ∀ bs : Bytes, leBytes bs.length (leNat bs) = bs
  | [] => rfl
  | b :: t => by
    have low : BitVec.ofNat 8 (b.toNat + 256 * leNat t) = b := by
      apply BitVec.eq_of_toNat_eq
      have := b.isLt
      rw [BitVec.toNat_ofNat]
      omega
    have high : (b.toNat + 256 * leNat t) / 256 = leNat t := by
      have := b.isLt
      omega
    rw [List.length_cons, leNat, leBytes, low, high, leBytes_leNat t]

/-- Settles O45: the equations of pairUp and of leBytes, by recursion on the bytes. -/
theorem nibblesAndByteOrder : Obligations.NibblesAndByteOrder := by
  refine ⟨fun l k a b small ha hb => ?_, leBytes_getElem?, leBytes_leNat⟩
  exact ⟨_, pairUp_getElem? l k a b ha hb,
    nibbles_of_byte (small a (List.mem_of_getElem? ha)) (small b (List.mem_of_getElem? hb))⟩

/-! Handles (R42, R43). -/

theorem Handle.word_lt (h : Handle) (ht : h.tier < 8) (hd : h.device < 1024) (hp : h.pitch < 16) (hf : h.format < 8) :
    h.word < 2 ^ 64 := by
  have := h.location.isLt
  unfold Handle.word
  omega

/-- The fields of a handle's word, where R42 puts them. -/
theorem Handle.word_bits (h : Handle) (ht : h.tier < 8) (hd : h.device < 1024) (hp : h.pitch < 16) (hf : h.format < 8) :
    bits h.word 61 3 = h.tier ∧ bits h.word 51 10 = h.device ∧ bits h.word 47 4 = h.pitch ∧ bits h.word 44 3 = h.format
      ∧ bits h.word 0 44 = h.location.toNat := by
  have := h.location.isLt
  simp only [bits, Handle.word, Nat.shiftRight_eq_div_pow]
  omega

/-- A word that is not the null handle's gives its handle back (R43). -/
theorem handleOf_word (h : Handle) (ht : h.tier < 8) (hd : h.device < 1024) (hp : h.pitch < 16) (hf : h.format < 8)
    (hn : h.word ≠ nullHandle) : handleOf h.word = some h := by
  obtain ⟨tier, device, pitch, format, location⟩ := h.word_bits ht hd hp hf
  have place : BitVec.ofNat 44 h.word = h.location := by
    apply BitVec.eq_of_toNat_eq
    rw [BitVec.toNat_ofNat, ← location, bits, Nat.shiftRight_zero]
  rw [handleOf, if_neg (show h.word ≠ 2 ^ 64 - 1 from hn), tier, device, pitch, format, place]

/-- Settles O56, by the places of the fields in the word. -/
theorem handleWordsRoundTrip : Obligations.HandleWordsRoundTrip := by
  intro h ht hd hp hf
  obtain ⟨tier, device, pitch, format, location⟩ := h.word_bits ht hd hp hf
  exact ⟨h.word_lt ht hd hp hf, tier, device, pitch, format, location, handleOf_word h ht hd hp hf⟩

end Sys2Proof.Machine
end

section
/-! PROOFS. Ledger and pages: the codes that quantisation gives. -/
namespace Sys2Proof.Machine

/-! Quantisation (R48, R50). -/

/-- A code fits its element: its width, and, of an integer, never the most negative code (R48). -/
def CodeFits (k : EKind) (c : Nat) : Prop := c < 2 ^ k.bits ∧ ((k = .int8 ∨ k = .int4) → c ≠ 2 ^ (k.bits - 1))

/-- A magnitude below the sign bit and its negation both fit n + 1 bits, and neither is the most negative code. -/
theorem signedCode_fits {n q : Nat} (h : q < 2 ^ n) (neg : Bool) :
    let c := if neg then (2 ^ (n + 1) - q) % 2 ^ (n + 1) else q
    c < 2 ^ (n + 1) ∧ c ≠ 2 ^ n := by
  have double : 2 ^ (n + 1) = 2 * 2 ^ n := Nat.pow_succ'
  cases neg with
  | false => simp; omega
  | true =>
    rcases Nat.eq_zero_or_pos q with rfl | pos
    · simpa using h.ne
    · have wraps : (2 ^ (n + 1) - q) % 2 ^ (n + 1) = 2 ^ (n + 1) - q := Nat.mod_eq_of_lt (by omega)
      simp only [if_true, wraps]
      omega

/-- A floating code saturates below its largest magnitude, so that it fits with its sign bit (R50). -/
theorem toSmallFloat_lt (k : EKind) (neg : Bool) (num den : Nat) (e : Int) (hk : k = .e4m3 ∨ k = .e2m1) :
    toSmallFloat k neg num den e < 2 ^ k.bits := by
  rcases hk with rfl | rfl
  · simp only [toSmallFloat, EKind.bits]
    split <;> omega
  · simp only [toSmallFloat, EKind.bits]
    split <;> omega

/-- The scale of an integer group is a finite positive E4M3 code (R50). -/
theorem intScale_le (a : Dy) (qmax : Nat) : intScale a qmax ≤ 0x7E := by
  unfold intScale
  cases h : ((List.range 0x7E).map (· + 1)).find? _ with
  | none => exact Nat.le_refl _
  | some c =>
    obtain ⟨n, hn, rfl⟩ := List.mem_map.mp (List.mem_of_find?_eq_some h)
    exact List.mem_range.mp hn

/-- The scale of a floating group is a byte (R50). -/
theorem floatScale_lt (x : Int) : (clampInt (-127) 127 x + 127).toNat < 256 := by
  unfold clampInt
  omega

/-- A group whose members are all zero has the largest magnitude 0. -/
theorem maxMag_zero (l : List Dy) (h : ∀ d ∈ l, d.mag = 0) : (maxMag l).mag = 0 := by
  refine List.foldlRecOn (motive := fun a : Dy => a.mag = 0) l _ rfl ?_
  intro a ha d hd
  dsimp only
  split
  · exact h d hd
  · exact ha

/-- A group without magnitude is all zeros. -/
theorem quantGroup_zero {k : EKind} {xs : List (BitVec 16)} (h : (maxMag (xs.map dyOfBf)).mag = 0) :
    quantGroup k xs = (0, xs.map (fun _ => 0)) := by
  cases k <;> simp [quantGroup, h]

/-- Any group: a scale in a byte, and one fitting code for each member (R48, R50). -/
theorem quantGroup_fits (k : EKind) (xs : List (BitVec 16)) :
    ∃ scale code, quantGroup k xs = (scale, xs.map code) ∧ scale < 256 ∧ ∀ x, CodeFits k (code x) := by
  by_cases h : (maxMag (xs.map dyOfBf)).mag = 0
  · refine ⟨0, fun _ => 0, quantGroup_zero h, by decide, fun _ => ⟨Nat.two_pow_pos _, fun _ => ?_⟩⟩
    exact (Nat.two_pow_pos _).ne
  · cases k with
    | int8 =>
      simp only [quantGroup, h, if_false, List.map_map]
      exact ⟨_, _, rfl, Nat.lt_of_le_of_lt (intScale_le ..) (by decide), fun x =>
        (signedCode_fits (n := 7) (Nat.lt_of_le_of_lt (Nat.min_le_left 127 _) (by decide)) _).imp_right fun c _ => c⟩
    | int4 =>
      simp only [quantGroup, h, if_false, List.map_map]
      exact ⟨_, _, rfl, Nat.lt_of_le_of_lt (intScale_le ..) (by decide), fun x =>
        (signedCode_fits (n := 3) (Nat.lt_of_le_of_lt (Nat.min_le_left 7 _) (by decide)) _).imp_right fun c _ => c⟩
    | e4m3 =>
      simp only [quantGroup, h, if_false, List.map_map]
      exact ⟨_, _, rfl, floatScale_lt _, fun x => ⟨toSmallFloat_lt .e4m3 _ _ _ _ (by decide), by simp⟩⟩
    | e2m1 =>
      simp only [quantGroup, h, if_false, List.map_map]
      exact ⟨_, _, rfl, floatScale_lt _, fun x => ⟨toSmallFloat_lt .e2m1 _ _ _ _ (by decide), by simp⟩⟩

/-- Settles O57: every kind gives a scale and one fitting code for each member, and a group of zeros has no magnitude. -/
theorem quantisedCodesFit : Obligations.QuantisedCodesFit := by
  intro k xs
  obtain ⟨scale, code, group, fits, codes⟩ := quantGroup_fits k xs
  refine ⟨?_, ?_, ?_, ?_, fun zeros => ?_⟩
  · rw [group]; exact fits
  · rw [group]; exact List.length_map ..
  · rw [group]; exact List.forall_mem_map.mpr fun x _ => (codes x).1
  · rw [group]; exact fun hk => List.forall_mem_map.mpr fun x _ => (codes x).2 hk
  · have none : (maxMag (xs.map dyOfBf)).mag = 0 :=
      maxMag_zero _ (List.forall_mem_map.mpr fun x hx => by rw [zeros x hx]; decide)
    rw [quantGroup_zero none]
    exact ⟨rfl, List.forall_mem_map.mpr fun _ _ => rfl⟩

end Sys2Proof.Machine
end

section
/-! PROOFS. Ledger and pages: what the completion of a command leaves as it is. -/
namespace Sys2Proof.Machine

/-! What a completion leaves as it is (R429, R441 to R445). It writes to the host or to a connection, and updates chits. -/

/-- The state beside everything that a completion, or what it sends and fires, may change. -/
def besideAnswers (s : State) : State :=
  { s with regs := [], hall := [], hostMem := [], rings := [], cmds := [], chits := [], triggers := [], released := [], chitWork := [],
           msix := [], dmaWait := [], conns := [], ports := [], svcOut := [], cxlLines := [] }

@[simp] theorem wr_beside (f : Fld) (i v : Nat) (s : State) : besideAnswers (wr f i v s) = besideAnswers s := rfl
@[simp] theorem bump_beside (f : Fld) (i n : Nat) (s : State) : besideAnswers (bump f i n s) = besideAnswers s := rfl
@[simp] theorem onCmd_beside (id : Nat) (f : Cmd → Cmd) (s : State) : besideAnswers (onCmd id f s) = besideAnswers s := rfl
@[simp] theorem putRing_beside (x : Ring) (s : State) : besideAnswers (putRing x s) = besideAnswers s := rfl
@[simp] theorem onRing_beside (r : Nat) (f : Ring → Ring) (s : State) : besideAnswers (onRing r f s) = besideAnswers s := rfl
@[simp] theorem freeSlot_beside (r slot : Nat) (s : State) : besideAnswers (freeSlot r slot s) = besideAnswers s := rfl
@[simp] theorem putConn_beside (x : Conn) (s : State) : besideAnswers (putConn x s) = besideAnswers s := rfl
@[simp] theorem onConn_beside (c : Nat) (f : Conn → Conn) (s : State) : besideAnswers (onConn c f s) = besideAnswers s := rfl
@[simp] theorem snoop_beside (p off len : Nat) (s : State) : besideAnswers (snoop p off len s) = besideAnswers s := rfl
@[simp] theorem release_beside (owner chain : Nat) (s : State) : besideAnswers (release owner chain s) = besideAnswers s := rfl
@[simp] theorem endRead_beside (c code : Nat) (p : TxPkt) (r : Source) (s : State) :
    besideAnswers (endRead c code p r s) = besideAnswers s := rfl

@[simp] theorem dmaOut_beside (fn : Nat) (d : DmaOut) (s : State) : besideAnswers (dmaOut fn d s) = besideAnswers s := by
  unfold dmaOut
  split
  · rfl
  · split
    · rfl
    · cases d <;> rfl

@[simp] theorem fire_beside (fn v : Nat) (s : State) : besideAnswers (fire fn v s) = besideAnswers s := by
  unfold fire
  split
  · exact dmaOut_beside ..
  · rfl

@[simp] theorem tell_beside (q : Nat) (m : SvcMsg) (s : State) : besideAnswers (tell q m s) = besideAnswers s := by
  unfold tell
  split <;> rfl

@[simp] theorem enqueue_beside (port q : Nat) (f : Frame) (s : State) :
    besideAnswers (enqueue port q f s) = besideAnswers s := by
  unfold enqueue
  split <;> rfl

@[simp] theorem launch_beside (c : Nat) (p : TxPkt) (path : Nat × Nat) (s : State) :
    besideAnswers (launch c p path s) = besideAnswers s := by
  simp [launch]

theorem resend_beside (c : Nat) (p : TxPkt) (s : State) : besideAnswers (resend c p s) = besideAnswers s := by
  unfold resend
  split
  · rfl
  · simp

theorem resendHeld_beside (c : Nat) (s : State) : besideAnswers (resendHeld c s) = besideAnswers s :=
  each_keeps besideAnswers _ _ s fun p _ u => resend_beside c p u

theorem pump_beside (c : Nat) : ∀ (n : Nat) (s : State), besideAnswers (pump c n s) = besideAnswers s
  | 0, s => rfl
  | n + 1, s => by
    unfold pump
    split
    · rfl
    · split
      · split
        · rfl
        · split
          · simp [pump_beside c n]
          · simp [pump_beside c n]
          · split <;> simp
      · rfl

@[simp] theorem sendMsg_beside (c op window offset : Nat) (final : Bool) (purpose : Purpose) (data : Bytes) (s : State) :
    besideAnswers (sendMsg c op window offset final purpose data s) = besideAnswers s := by
  simp only [sendMsg, sendAs, pumpAll, pump_beside, resendHeld_beside, putConn_beside, onConn_beside]

@[simp] theorem oweChit_beside (chit : Nat) (s : State) : besideAnswers (oweChit chit s) = besideAnswers s := by
  unfold oweChit
  split <;> rfl

@[simp] theorem coalFire_beside (r : Nat) (s : State) : besideAnswers (coalFire r s) = besideAnswers s := by
  unfold coalFire
  split
  · rfl
  · simp

@[simp] theorem coalesce_beside (r : Nat) (s : State) : besideAnswers (coalesce r s) = besideAnswers s := by
  unfold coalesce
  split
  · rfl
  · extract_lets x u n
    split
    · exact coalFire_beside r u
    · rfl

theorem postFabric_beside (r : Nat) (k : Completion) (s : State) : besideAnswers (postFabric r k s) = besideAnswers s := by
  simp [postFabric]

theorem postHost_beside (r : Nat) (k : Completion) (s : State) : besideAnswers (postHost r k s) = besideAnswers s := by
  unfold postHost
  extract_lets u tail phase bytes a v w
  have freed : besideAnswers u = besideAnswers s := freeSlot_beside r k.slot s
  clear_value u
  have written : besideAnswers v = besideAnswers u := by
    show besideAnswers (if _ then _ else _) = _
    split
    · rfl
    · split
      · exact dmaOut_beside ..
      · rfl
  have moved : besideAnswers w = besideAnswers v := by
    show besideAnswers (if _ then _ else _) = _
    split <;> simp only [wr_beside]
  rw [oweChit_beside, coalesce_beside, onRing_beside, moved, written, freed]

theorem postCompletion_beside (id : Nat) (st : Status) (result : Nat) (s : State) :
    besideAnswers (postCompletion id st result s) = besideAnswers s := by
  unfold postCompletion
  split
  · rfl
  · have dropped (l : List Cmd) : besideAnswers { s with cmds := l } = besideAnswers s := rfl
    dsimp only
    split
    · simp [dropped]
    · split
      · exact dropped _
      · split
        · simp [postFabric_beside, dropped]
        · split
          · simp [postHost_beside, dropped]
          · simp [dropped]

theorem fireTrigger_beside (v : Nat) (t : Trigger) (s : State) : besideAnswers (fireTrigger v t s) = besideAnswers s := by
  unfold fireTrigger
  extract_lets u
  split
  · exact (postCompletion_beside ..).trans (fire_beside ..)
  · exact sendMsg_beside ..
  · exact postCompletion_beside ..
  · exact postCompletion_beside ..

theorem drainChits_beside : ∀ (n : Nat) (s : State), besideAnswers (drainChits n s) = besideAnswers s
  | 0, s => rfl
  | n + 1, s => by
    unfold drainChits
    split
    · rfl
    · refine (drainChits_beside n _).trans ?_
      exact each_keeps besideAnswers _ _ _ fun t _ u => fireTrigger_beside _ t u

/-- A command that completes leaves everything but the answers of R429 and R441 to R445 as it is. -/
theorem complete_beside (id : Nat) (st : Status) (result : Nat) (s : State) :
    besideAnswers (complete id st result s) = besideAnswers s :=
  (drainChits_beside ..).trans (postCompletion_beside ..)

@[simp] theorem complete_seqs (id : Nat) (st : Status) (result : Nat) (s : State) : (complete id st result s).seqs = s.seqs := by
  show (besideAnswers (complete id st result s)).seqs = (besideAnswers s).seqs
  rw [complete_beside]

end Sys2Proof.Machine
end

section
/-! PROOFS. Ledger and pages: a ring row whose start conditions are met runs its operation on a command that has just started. -/
namespace Sys2Proof.Machine

open Sys2Proof.Claims

/-- A command after its start. -/
@[simp] theorem cmdOf_startedCmd (id : Nat) (s : State) :
    cmdOf (startedCmd id s) id = (cmdOf s id).map (fun c => { c with wait := .started }) :=
  cmdOf_onCmd id (fun c => { c with wait := .started }) s fun _ => rfl

/-- Every row that submits a command is the same fetch, with its own opcode. -/
theorem exec_submitRow (op : Opcode) (r : Nat) (e : Entry) (s : State) : exec (submitRow op r e) s = submit op r e s := by
  cases op <;> rfl

/-- What it takes for a ring's next accepted entry to start at once (R427, R429, R439). -/
theorem started_inv {op : Opcode} {r : Nat} {e : Entry} {s t : State} {c : Cmd} (h : started op r e s = some (c, t)) :
    ∃ fn a rest, ringFn s r = some fn ∧ (ringOf s r).accepted = a :: rest
      ∧ c = cmdOfEntry s (some op) r fn a (withOpcode op.code e)
      ∧ running s = true ∧ ringOk r = true ∧ mayFetch s r = true ∧ entryThere s r a.slot (withOpcode op.code e) = true
      ∧ s.cmds.any (fun x => x.id == c.id) = false
      ∧ ∃ u, u = onRing r (fun x => { x with accepted := rest }) { s with cmds := s.cmds ++ [c] }
        ∧ headerCheck u (some op) fn (withOpcode op.code e) = none ∧ cmdReady u c = true ∧ t = startedCmd c.id u := by
  unfold started at h
  split at h
  · rename_i fn a rest ring queue
    extract_lets e' c' u at h
    split at h
    · rename_i holds
      simp only [Bool.and_eq_true, Bool.not_eq_true', Option.isNone_iff_eq_none] at holds
      obtain ⟨⟨⟨⟨⟨⟨up, ok⟩, fetch⟩, there⟩, passes⟩, new⟩, ready⟩ := holds
      obtain ⟨rfl, rfl⟩ := Prod.mk.inj (Option.some.inj h)
      exact ⟨fn, a, rest, ring, queue, rfl, up, ok, fetch, there, new, u, rfl, passes, ready, rfl⟩
    · contradiction
  · contradiction

/-- The command of a row that starts at once: its opcode, and that nothing of it is under way. -/
theorem started_cmd {op : Opcode} {r : Nat} {e : Entry} {s t : State} {c : Cmd} (h : started op r e s = some (c, t)) :
    c.op = op ∧ c.members = [] ∧ c.room = none := by
  obtain ⟨fn, a, rest, -, -, rfl, -⟩ := started_inv h
  exact ⟨rfl, rfl, rfl⟩

/-- The command of a row that starts at once is listed, and has started. -/
theorem started_listed {op : Opcode} {r : Nat} {e : Entry} {s t : State} {c : Cmd} (h : started op r e s = some (c, t)) :
    cmdOf t c.id = some { c with wait := .started } := by
  obtain ⟨fn, a, rest, -, -, -, -, -, -, -, new, u, rfl, -, -, rfl⟩ := started_inv h
  rw [cmdOf_startedCmd, cmdOf_fetched s c r _ new, Option.map_some]

/-- A row that starts at once has the effect of its operation, and then the block settles (R427, R429, R437, R439). -/
theorem works_started {op : Opcode} {r : Nat} {e : Entry} {s t : State} {c : Cmd} (h : started op r e s = some (c, t)) :
    Works (submitRow op r e) s (runOp c t) := by
  obtain ⟨fn, a, rest, ring, queue, made, up, ok, fetch, there, new, u, fetched, passes, ready, rfl⟩ := started_inv h
  have listed : cmdOf u c.id = some c := fetched ▸ cmdOf_fetched s c r _ new
  have runs : fetchEntry (some op) r (withOpcode op.code e) s = runOp c (startedCmd c.id u) := by
    rw [← tryStart_ready listed ready]
    simp only [fetchEntry, ring, queue, fetch, there, passes, ← made, ← fetched, Bool.not_true, Bool.or_self, Bool.false_eq_true, if_false]
  rw [Works, exec_submitRow, submit_up up ok, runs]

/-- The same, with what the operation comes to. -/
theorem works_of_runOp {op : Opcode} {r : Nat} {e : Entry} {s t u : State} {c : Cmd} (h : started op r e s = some (c, t))
    (effect : runOp c t = u) : Works (submitRow op r e) s u := effect ▸ works_started h

end Sys2Proof.Machine
end

section
/-! PROOFS. Ledger and pages: ACCEPT and the mask of its tokens. -/
namespace Sys2Proof.Machine

open Sys2Proof.Claims

/-! The barrow of a layer (R63), and what an ACCEPT keeps in it (R68). -/

/-- The barrow of a layer changes with its slots alone. -/
theorem putBarrow_counts (q : Seq) (toks : List Token) (l : Layer) :
    (putBarrow q toks l).len = l.len ∧ (putBarrow q toks l).tent = l.tent ∧ (putBarrow q toks l).sealed = l.sealed
      ∧ (putBarrow q toks l).cur = l.cur := by
  unfold putBarrow putSlot
  dsimp only
  split <;> split <;> exact ⟨rfl, rfl, rfl, rfl⟩

/-- A barrow that is given its tokens holds them in their order. -/
theorem barrowToks_putBarrow (q : Seq) (toks : List Token) (l : Layer) (h : l.cur ≤ 1) :
    barrowToks (putBarrow q toks l) = toks := by
  have cur : l.cur = 0 ∨ l.cur = 1 := by omega
  rcases cur with cur | cur <;> simp [barrowToks, putBarrow, putSlot, slotOf, otherSlot, cur]

theorem sumBy_b2n {α : Type} (p : α → Bool) (l : List α) : sumBy (fun i => b2n (p i)) l = (l.filter p).length := by
  have sum : ∀ (l : List α) (n : Nat), l.foldl (fun n x => n + b2n (p x)) n = n + (l.filter p).length := by
    intro l
    induction l with
    | nil => exact fun n => rfl
    | cons x t ih =>
      intro n
      rw [List.foldl_cons, ih, List.filter_cons]
      cases p x <;> simp [b2n, Nat.add_assoc, Nat.add_comm 1]
  exact (sum l 0).trans (Nat.zero_add _)

/-- An ACCEPT counts the tokens that its mask names as committed, and leaves none tentative (R68). -/
theorem acceptLayer_counts (q : Seq) (mask : Nat) (l : Layer) :
    (acceptLayer q mask l).len = l.len + ((List.range l.tent).filter (fun i => mask.testBit i)).length
      ∧ (acceptLayer q mask l).tent = 0 := by
  unfold acceptLayer
  extract_lets toks kept own base keep cut
  obtain ⟨len, tent, -, -⟩ := putBarrow_counts q (toks.take base ++ keep.map (fun x => x.1)) cut
  exact ⟨len.trans (congrArg (l.len + ·) (sumBy_b2n ..)), tent⟩

/-- A layer that holds the tentative tokens keeps those of the mask after the committed ones (R68). -/
theorem barrowToks_acceptLayer (q : Seq) (mask : Nat) (l : Layer) (h : l.cur ≤ 1)
    (own : ownCount q (l.len + l.tent) = ownLen q l + l.tent) :
    let toks := barrowToks l
    barrowToks (acceptLayer q mask l) = toks.take (toks.length - l.tent)
      ++ ((toks.drop (toks.length - l.tent)).zipIdx.filter (fun x => mask.testBit x.2)).map (fun x => x.1) := by
  intro toks
  unfold acceptLayer
  extract_lets kept held base keep cut
  have all : base = toks.length - l.tent := by simp [base, held, own]
  rw [barrowToks_putBarrow q _ cut h]
  simp only [keep, all, bit]

/-- A layer of a member that does not hold the tentative tokens keeps its barrow. -/
theorem barrowToks_acceptLayer_unheld (q : Seq) (mask : Nat) (l : Layer) (h : l.cur ≤ 1)
    (other : ownCount q (l.len + l.tent) ≠ ownLen q l + l.tent) :
    barrowToks (acceptLayer q mask l) = barrowToks l := by
  unfold acceptLayer
  extract_lets toks kept held base keep cut
  have none_ : base = toks.length := by simp [base, held, other]
  rw [barrowToks_putBarrow q _ cut h]
  simp [keep, none_, toks]

/-- The members that a mask of the low n bits names are the first n, counted from the index of the first. -/
theorem zipIdx_filter_low {α : Type} (n : Nat) : ∀ (l : List α) (k : Nat),
    ((l.zipIdx k).filter (fun x => (2 ^ n - 1).testBit x.2)).map (fun x => x.1) = l.take (n - k)
  | [], k => by simp
  | a :: t, k => by
    rw [List.zipIdx_cons, List.filter_cons, Nat.testBit_two_pow_sub_one]
    have rest := zipIdx_filter_low n t (k + 1)
    by_cases h : k < n
    · have next : n - k = (n - (k + 1)) + 1 := by omega
      simp only [h, decide_true, if_true, List.map_cons, rest, next, List.take_succ_cons]
    · have none_ : n - k = 0 := by omega
      have none' : n - (k + 1) = 0 := by omega
      simp only [h, decide_false, Bool.false_eq_true, if_false, rest, none_, none', List.take_zero]

/-- A mask of the low n bits names n of at least n tokens. -/
theorem range_filter_low {n t : Nat} (h : n ≤ t) :
    ((List.range t).filter (fun i => (2 ^ n - 1).testBit i)).length = n := by
  simp only [Nat.testBit_two_pow_sub_one]
  rw [← List.Ico.zero_bot, List.Ico.filter_lt_of_ge h, List.Ico.length, Nat.sub_zero]

/-- A mask of the low n bits keeps the first n tentative tokens (R68). -/
theorem acceptLayer_low {q : Seq} {l : Layer} {n : Nat} (h : l.cur ≤ 1)
    (own : ownCount q (l.len + l.tent) = ownLen q l + l.tent) (hn : n ≤ l.tent) :
    let toks := barrowToks l
    barrowToks (acceptLayer q (2 ^ n - 1) l) = toks.take (toks.length - l.tent) ++ (toks.drop (toks.length - l.tent)).take n
      ∧ (acceptLayer q (2 ^ n - 1) l).len = l.len + n := by
  refine ⟨?_, ?_⟩
  · rw [barrowToks_acceptLayer q _ l h own, zipIdx_filter_low, Nat.sub_zero]
  · rw [(acceptLayer_counts q _ l).1, range_filter_low hn]

/-- An ACCEPT that passes its checks (R68 to R70, R86, R437). -/
theorem opAccept_ok {c : Cmd} {s : State} {q : Seq} (named : namedSeq c s = some q) (zero₁ : zeroAt c.entry 0x14 4 = true)
    (zero₂ : zeroAt c.entry 0x20 32 = true) (even : q.layers.all (fun l => l.tent == seqTent q) = true)
    (fits : fieldOf c.entry 0x18 8 < 2 ^ seqTent q) (active : q.st = .active) :
    opAccept c s =
      let u := each (List.range q.layers.length) (startSeals q.uid)
        (onSeq q.uid (fun q => { q with layers := q.layers.map (acceptLayer q (fieldOf c.entry 0x18 8)) })
          (if leads c q then forwardCmd c q.members s else s))
      seqDone c.id .ok (((seqOf u q.uid).map seqLength).getD 0) u := by
  have named' : (cmdPitch s c).bind (fun p => seqById s p (fieldOf c.entry 0x10 4)) = some q := named
  have level : q.layers.any (fun l => l.tent != seqTent q) = false := by
    rw [List.any_eq_false]
    intro l hl
    simpa using List.all_eq_true.mp even l hl
  have high : fieldOf c.entry 0x18 8 / 2 ^ seqTent q = 0 := Nat.div_eq_of_lt fits
  simp [opAccept, named', zero₁, zero₂, level, high, active]

/-- ACCEPT runs as R68, R70, R76 and R437 say. -/
theorem acceptRuns : AcceptRuns := by
  intro r e s c t q starts named zero₁ zero₂ even fits active
  exact works_of_runOp starts (.trans (by rw [runOp, (started_cmd starts).1]) (opAccept_ok named zero₁ zero₂ even fits active))

/-- Settles O46: the command runs its layers, and the layers keep what the mask names. -/
theorem acceptKeepsItsMask : Obligations.AcceptKeepsItsMask := by
  refine ⟨acceptRuns, fun q mask l cur own _ => ?_, fun q mask l cur other => ?_⟩
  · obtain ⟨len, tent⟩ := acceptLayer_counts q mask l
    refine ⟨barrowToks_acceptLayer q mask l cur own, len, tent, fun n hn low => ?_⟩
    subst low
    exact acceptLayer_low cur own hn
  · exact ⟨barrowToks_acceptLayer_unheld q mask l cur other, acceptLayer_counts q mask l⟩

end Sys2Proof.Machine
end

section
/-! PROOFS. Ledger and pages: the sequence that a SEQ_OPEN makes. -/
namespace Sys2Proof.Machine

/-! The sequence of a SEQ_OPEN without import (R41, R77). -/

/-- The sequence that a SEQ_OPEN without import and stripe makes, while it is OPEN. -/
def openedSeq (c : Cmd) (p slot : Nat) (h : Shape) (s : State) : Seq :=
  let e := c.entry
  let q := newSeq s.order p slot (fieldOf e 0x10 4) (bits (fieldOf e 0x16 1) 0 4) (fieldOf e 0x14 2) (fieldOf e 0x18 8)
    (fieldOf e 0x20 2) h [0] 0 false
  { q with layers := (List.range h.layers).map (fun _ => putBarrow q (tokensOf h 0 []) { Layer.fresh with len := 0, pages := [] }),
           closer := some c.id, import_ := none }

/-- The state with a sequence more, its ledger image written anew (R37, R450). -/
def addSeq (q : Seq) (s : State) : State :=
  { ordered s with
    seqs := s.seqs ++ [q],
    ledgerPoison := drop [(q.pitch, 128 * q.slot), (q.pitch, 128 * q.slot + 64)].contains s.ledgerPoison }

/-- A SEQ_OPEN without import has nothing to seal, and ends at once (R77, R78). -/
theorem createSeq_empty (c : Cmd) (p slot : Nat) (h : Shape) (s : State) :
    createSeq c p slot 0 h [0] 0 false [] s = seqDone c.id .ok slot (startedCmd c.id (addSeq (openedSeq c p slot h s) s)) := by
  have unsealed (f : Nat × Nat → State → State) (u : State) :
      each ((List.range h.layers).flatMap (fun j => (List.range 0).map (fun k => (j, k)))) f u = u := by
    rw [List.range_zero, List.flatMap_eq_nil_iff.mpr fun _ _ => List.map_nil, each_nil]
  unfold createSeq
  extract_lets e uid q mine full tail fresh layers left made entry counted u sealed
  have nothing : full = 0 := by
    show ownCount q 0 / 256 = 0
    rw [show ownCount q 0 = 0 from rfl]
  clear_value full
  subst nothing
  rw [if_pos (show left = 0 from Nat.zero_mul _), show sealed = u from unsealed _ u]
  rfl

/-- A command without a stripe ends with its own part (R76). -/
theorem seqDone_alone {id : Nat} {c : Cmd} {s : State} (st : Status) (result : Nat) (h : cmdOf s id = some c)
    (hm : c.members = []) : seqDone id st result s = seqEnd id st result s := by
  simp [seqDone, h, hm]

/-- A command has made a sequence that is still OPEN (R41). -/
def madeBy (id : Nat) (q : Seq) : Bool := q.st == .open_ && (q.fork == some id || q.closer == some id)

/-- A sequence becomes ACTIVE with the OK of the command that made it (R41). -/
def activated (q : Seq) : Seq := { q with st := .active, fork := none, closer := none, import_ := none }

theorem seqEnd_made {id : Nat} {q : Seq} {s : State} (result : Nat) (h : s.seqs.find? (madeBy id) = some q) :
    seqEnd id .ok result s = complete id .ok result (onSeq q.uid activated s) := by
  have made : s.seqs.find? (fun q => q.st == .open_ && (q.fork == some id || q.closer == some id)) = some q := h
  simp only [seqEnd, made, if_true]
  rfl

/-- Members before a new one that an update does not pick stay. -/
theorem upd_append_last {α : Type} {p : α → Bool} {l : List α} {y : α} (f : α → α) (hl : ∀ x ∈ l, p x = false) (hy : p y = true) :
    upd p f (l ++ [y]) = l ++ [f y] := by
  have stays : l.map (fun x => if p x = true then f x else x) = l :=
    (List.map_congr_left fun x hx => if_neg (by simp [hl x hx])).trans (List.map_id l)
  simp [upd, stays, hy]

/-- The last of a list is the first that a test picks where it picks none before. -/
theorem find?_append_last {α : Type} {p : α → Bool} {l : List α} {y : α} (hl : ∀ x ∈ l, p x = false) (hy : p y = true) :
    (l ++ [y]).find? p = some y := by
  rw [List.find?_append, List.find?_eq_none.mpr fun x hx => by simp [hl x hx]]
  simp [hy]

/-- Settles O58: the new sequence is the one that the command has made, and its completion leaves the table of sequences. -/
theorem openedSequenceIsActive : Obligations.OpenedSequenceIsActive := by
  intro c p slot h s listed alone others
  let q := openedSeq c p slot h s
  let t := startedCmd c.id (addSeq q s)
  have listed' : cmdOf t c.id = some { c with wait := .started } := by
    have same : cmdOf (addSeq q s) c.id = some c := listed
    rw [cmdOf_startedCmd, same, Option.map_some]
  have made : t.seqs.find? (madeBy c.id) = some q :=
    find?_append_last (fun x hx => by simp [madeBy, others x hx]) (by simp [madeBy, q, openedSeq, newSeq])
  refine ⟨activated q, ?_, rfl, rfl, rfl, rfl, rfl, rfl, ?_, ?_⟩
  · rw [createSeq_empty, seqDone_alone _ _ listed' alone, seqEnd_made _ made, complete_seqs, onSeq_seqs]
    exact upd_append_last _ (fun x hx => beq_false_of_ne (others x hx).1) (beq_self_eq_true _)
  · simp [activated, q, openedSeq]
  · refine List.forall_mem_map.mpr fun j _ => ?_
    obtain ⟨len, tent, sealed, _⟩ := putBarrow_counts (newSeq s.order p slot (fieldOf c.entry 0x10 4) (bits (fieldOf c.entry 0x16 1) 0 4)
      (fieldOf c.entry 0x14 2) (fieldOf c.entry 0x18 8) (fieldOf c.entry 0x20 2) h [0] 0 false) (tokensOf h 0 [])
      { Layer.fresh with len := 0, pages := [] }
    exact ⟨len, tent, sealed⟩

end Sys2Proof.Machine
end

section
/-! PROOFS. Ledger and pages: SEQ_OPEN, with its import and its stripe. -/
namespace Sys2Proof.Machine

open Sys2Proof.Claims

/-! SEQ_OPEN (R77, R78). What it reads, piece by piece, as openInputs puts them together. -/

/-- The sequence that a SEQ_OPEN of a lead would make, for the positions that it owns. -/
def openProbe (c : Cmd) (p : Nat) : Seq :=
  newSeq 0 p 0 0 0 0 0 0 (shapeOf c.entry) (List.replicate (fieldOf c.entry 0x25 1 + 1) 0) 0 (bit (fieldOf c.entry 0x16 1) 5)

/-- The tokens of an import that fill no page of this device. -/
def openTail (c : Cmd) (p : Nat) : Nat :=
  let tokens := openTokens c.entry
  if ownsPos (openProbe c p) (tokens - 1) ∧ 0 < tokens then tokens % 256 else 0

/-- The member table of a striped SEQ_OPEN. -/
def openTable (s : State) (c : Cmd) : Got Bytes :=
  if bit (fieldOf c.entry 0x16 1) 5 then readOperand s c (fieldOf c.entry 0x28 4) (fieldOf c.entry 0x38 6) 128 else .val []

/-- The tail of every layer of an import. -/
def openTails (s : State) (c : Cmd) (p : Nat) : Got (List Bytes) :=
  let h := shapeOf c.entry
  let tokens := openTokens c.entry
  readLayers s c (fieldOf c.entry 0x28 4) (openTail c p * tokBytes h)
    (fun j => fieldOf c.entry 0x30 6 + j * importStride h tokens + (tokens - openTail c p) * tokBytes h)
    (if openTail c p = 0 then 0 else h.layers)

/-- The place of an import's data. -/
def openPlace (s : State) (c : Cmd) : Except Status Place :=
  let h := shapeOf c.entry
  locate s c.ring (fieldOf c.entry 0x28 4) (fieldOf c.entry 0x30 6) (h.layers * importStride h (openTokens c.entry)) false

/-- The devices of a member table. -/
def openDevices (c : Cmd) (t : Bytes) : List Nat := (List.range (fieldOf c.entry 0x25 1 + 1)).map (fun i => leAt t (2 * i) 2)

/-- The lead has a connection of the pitch to every other member, and is member 0 itself (R76, R333). -/
def openLinked (s : State) (c : Cmd) (p : Nat) (devices : List Nat) : Bool :=
  !(bit (fieldOf c.entry 0x16 1) 5) || ((memberPeers s devices).all (fun x => match x.2 with
    | some q => (connBetween s p q).isSome
    | none => false) && devices.head? == some (deviceId s))

/-- The data of an import lies in its window. -/
def openWhole (s : State) (c : Cmd) : Bool :=
  if bit (fieldOf c.entry 0x16 1) 6 then (match openPlace s c with
    | .ok _ => true
    | .error _ => false) else true

theorem openWhole_inv {c : Cmd} {s : State} (h : openWhole s c = true) (imports : bit (fieldOf c.entry 0x16 1) 6 = true) :
    ∃ place, openPlace s c = .ok place := by
  rw [openWhole, if_pos imports] at h
  split at h
  · exact ⟨_, ‹_›⟩
  · contradiction

theorem openInputs_eq (c : Cmd) (s : State) (p : Nat) : openInputs c s p = match openTable s c, openTails s c p with
    | .val t, .val l =>
      if openWhole s c && openLinked s c p (openDevices c t) then some (openDevices c t, l) else none
    | _, _ => none := rfl

theorem openInputs_inv {c : Cmd} {s : State} {p : Nat} {devices : List Nat} {tails : List Bytes}
    (h : openInputs c s p = some (devices, tails)) :
    ∃ t, openTable s c = .val t ∧ openTails s c p = .val tails ∧ devices = openDevices c t ∧ openWhole s c = true
      ∧ openLinked s c p devices = true := by
  rw [openInputs_eq] at h
  split at h
  · rename_i t l table read
    split at h
    · rename_i both
      obtain ⟨whole, linked⟩ := Bool.and_eq_true_iff.mp both
      obtain ⟨rfl, rfl⟩ := Prod.mk.inj (Option.some.inj h)
      exact ⟨t, table, read, rfl, whole, linked⟩
    · contradiction
  · contradiction

/-- Holding room for a command changes nothing but that command. -/
theorem holdRoom_cmds (c : Cmd) (p n : Nat) (s : State) : ∃ l, holdRoom c p n s = { s with cmds := l } := by
  unfold holdRoom
  split
  · exact ⟨s.cmds, rfl⟩
  · split <;> exact ⟨_, rfl⟩

theorem openTable_holdRoom (c : Cmd) (p n : Nat) (s : State) : openTable (holdRoom c p n s) c = openTable s c := by
  obtain ⟨l, held⟩ := holdRoom_cmds c p n s
  rw [held]
  rfl

theorem openWhole_holdRoom (c : Cmd) (p n : Nat) (s : State) : openWhole (holdRoom c p n s) c = openWhole s c := by
  obtain ⟨l, held⟩ := holdRoom_cmds c p n s
  rw [held]
  rfl

/-- What a SEQ_OPEN meets whose fields are in range: a ring of the device, a pitch, a free SEQ_ID, and none of the checks of
R77 and R86 that fail it. -/
theorem openFields_inv {c : Cmd} {s : State} {p : Nat} (h : openFields c s p = true) :
    let e := c.entry
    let flags := fieldOf e 0x16 1
    let m := fieldOf e 0x25 1 + 1
    let own := fieldOf e 0x26 1
    let word := fieldOf e 0x2C 4
    let forwarded := decide (1024 ≤ c.ring)
    forwarded = false ∧ own = 0 ∧ cmdPitch s c = some p ∧ seqById s p (fieldOf e 0x10 4) = none
      ∧ (bit (fieldOf e 0x28 4) 31 && fabricRing s c.ring && (bit flags 6 || bit flags 5)) = false
      ∧ ¬ (bit flags 7 = true ∨ (!(shapeOk (shapeOf e))) = true ∨ (bit flags 5 = false ∧ m ≠ 1) ∨ 64 < m
        ∨ (forwarded = false ∧ own ≠ 0) ∨ m ≤ own ∨ (!(zeroAt e 0x27 1)) = true ∨ bits word 22 10 ≠ 0
        ∨ (!(zeroAt e 0x36 2)) = true ∨ (!(zeroAt e 0x3E 2)) = true ∨ 2097152 < bits word 0 22
        ∨ (clientClass s p (fieldOf e 0x14 2)).isNone = true) := by
  intro e flags m own word forwarded
  simp only [openFields, Bool.and_eq_true, Bool.or_eq_true, Bool.not_eq_true', decide_eq_true_eq, beq_iff_eq,
    Option.isNone_iff_eq_none] at h
  obtain ⟨⟨⟨⟨⟨⟨⟨⟨⟨⟨⟨⟨⟨⟨onRing, pitch⟩, newId⟩, flag⟩, shape⟩, members⟩, few⟩, lead⟩, zero1⟩, high⟩, zero2⟩, zero3⟩, short⟩,
    client⟩, window⟩ := h
  refine ⟨decide_eq_false (by omega), lead, pitch, newId, window, ?_⟩
  simp only [not_or]
  exact ⟨by simp [flags, e, flag], by simp [e, shape], by rcases members with x | x <;> simp [flags, m, e, x],
    by simp [m, e]; omega, by simp [own, e, lead], by simp [own, m, e, lead], by simp [e, zero1], by simp [word, e, high],
    by simp [e, zero2], by simp [e, zero3], by simp [word, e, short], by simpa [e] using Option.isSome_iff_ne_none.mp client⟩

/-- A SEQ_OPEN whose fields are in range, and whose data is at hand, makes its sequence (R76 to R78, R86). -/
theorem opSeqOpen_ok {c : Cmd} {s : State} {p slot : Nat} {devices : List Nat} {tails : List Bytes}
    (fields : openFields c s p = true) :
    let tokens := openTokens c.entry
    let h := shapeOf c.entry
    let striped := bit (fieldOf c.entry 0x16 1) 5
    let probe := newSeq 0 p 0 0 0 0 0 0 h (List.replicate (fieldOf c.entry 0x25 1 + 1) 0) 0 striped
    let u := holdRoom c p (if bit (fieldOf c.entry 0x16 1) 6 then startPool h (ownCount probe tokens) else 0) s
    let v := useRoom c.id (if striped then forwardCmd c devices u else u)
    openInputs c u p = some (devices, tails) → hasRoom u c.id = true → ledgerSlot v p = some slot → c.stageD = false →
    opSeqOpen c s = createSeq c p slot tokens h devices 0 striped tails v := by
  intro tokens h striped probe u v inputs room free power
  obtain ⟨t, tableRead, tailsRead, rfl, located, link⟩ := openInputs_inv inputs
  rw [openTable_holdRoom] at tableRead
  rw [openWhole_holdRoom] at located
  obtain ⟨unforwarded, lead, pitch, newId, window, passes⟩ := openFields_inv fields
  unfold opSeqOpen
  extract_lets e flags h' striped' imports m own word' tokens' win forwarded off stride whole table local_
  rw [pitch]
  refine (if_neg (by simp [newId, e])).trans ((if_neg passes).trans ?_)
  have own0 : own = 0 := lead
  have direct : forwarded = false := unforwarded
  clear_value own forwarded
  subst own0 direct
  extract_lets probe' tail tailAt u' room' go
  have local0 : local_ = .val () := if_neg fun ⟨far, fabric, used⟩ => by
    have refused := Bool.and_eq_true_iff.mpr ⟨Bool.and_eq_true_iff.mpr ⟨far, fabric⟩, Bool.or_eq_true_iff.mpr used⟩
    exact absurd (refused.symm.trans window) (by decide)
  have whole0 : whole = .val () := by
    by_cases imp : imports = true
    · obtain ⟨place, at_⟩ := openWhole_inv located imp
      exact (if_pos ⟨imp, rfl⟩).trans (by rw [show locate s c.ring win off (h'.layers * stride) false = .ok place from at_])
    · exact if_neg fun x => imp x.1
  have table0 : table = .val t := (if_congr (and_iff_left rfl) rfl rfl).trans tableRead
  have tails0 : readLayers u' c win (tail * tokBytes h') tailAt (if tail = 0 then 0 else h'.layers) = .val tails := tailsRead
  have go0 : go = .val (createSeq c p slot tokens h (openDevices c t) 0 striped tails v) := by
    show local_.bind _ = _
    rw [local0, whole0, table0]
    show (readLayers u' c win (tail * tokBytes h') tailAt (if tail = 0 then 0 else h'.layers)).bind _ = _
    rw [tails0]
    refine congrArg Got.val ((if_neg ?_).trans ?_)
    · exact fun bad => absurd (bad.symm.trans (congrArg not link)) (by decide)
    · extract_lets w
      have w0 : w = v := congrArg (useRoom c.id) (if_congr (and_iff_left rfl) rfl rfl)
      clear_value w
      subst w0
      rw [free, show room' = true from room]
      exact (if_neg (by decide)).trans (if_neg (by simp [power]))
  rw [go0]
  rfl

end Sys2Proof.Machine
end

section
/-! PROOFS. Ledger and pages: SEQ_CLOSE, SEQ_PARK, HINT_STEP and SEQ_FORK. -/
namespace Sys2Proof.Machine

open Sys2Proof.Claims

/-! What forwarding a command to a stripe leaves (R76). -/

@[simp] theorem forwardCmd_beside (c : Cmd) (devices : List Nat) (s : State) :
    besideAnswers (forwardCmd c devices s) = besideAnswers s := by
  unfold forwardCmd
  refine (each_keeps besideAnswers _ _ _ fun m _ u => ?_).trans (onCmd_beside ..)
  split
  · split
    · exact tell_beside ..
    · rfl
  · rfl

/-- What a command on a sequence becomes where it runs: the lead of a stripe has forwarded it. -/
def withStripe (c : Cmd) (q : Seq) (s : State) : State := if leads c q then forwardCmd c q.members s else s

theorem withStripe_beside (c : Cmd) (q : Seq) (s : State) : besideAnswers (withStripe c q s) = besideAnswers s := by
  unfold withStripe
  split
  · exact forwardCmd_beside ..
  · rfl

/-- A command that awaits the answers of its stripe. -/
def awaiting (peers members : List (Nat × Nat)) (c : Cmd) : Cmd := { c with peers := peers, members := members }

/-- Forwarding changes of the commands the one that is forwarded, and of it the answers that it awaits. -/
theorem forwardCmd_cmds (c : Cmd) (devices : List Nat) (s : State) :
    ∃ peers members, (forwardCmd c devices s).cmds = upd (fun x => x.id == c.id) (awaiting peers members) s.cmds := by
  refine ⟨_, _, each_keeps State.cmds _ _ _ fun m _ u => ?_⟩
  split
  · split
    · exact tell_cmds ..
    · rfl
  · rfl

/-- A command that runs for its stripe is still the command that was fetched. -/
theorem cmdOf_withStripe {c x : Cmd} {s : State} (q : Seq) (h : cmdOf s c.id = some x) :
    ∃ peers members, cmdOf (withStripe c q s) c.id = some (awaiting peers members x) := by
  unfold withStripe
  split
  · obtain ⟨peers, members, cmds⟩ := forwardCmd_cmds c q.members s
    refine ⟨peers, members, ?_⟩
    show (forwardCmd c q.members s).cmds.find? _ = _
    rw [cmds, find_upd (fun x => x.id == c.id) (awaiting peers members) _ fun _ _ same => same]
    exact congrArg (Option.map _) h
  · exact ⟨x.peers, x.members, h⟩

/-! SEQ_CLOSE, SEQ_PARK and HINT_STEP (R83 to R86, R239). -/

/-- A SEQ_CLOSE that passes its checks (R83, R85, R86). -/
theorem opSeqClose_ok {c : Cmd} {s : State} {q : Seq} (named : namedSeq c s = some q) (zero : zeroAt c.entry 0x14 44 = true)
    (made : q.st ≠ .open_) (whole : q.st ≠ .closing) :
    opSeqClose c s = startedCmd c.id (onSeq q.uid (fun q => { q with st := .closing, closer := some c.id, closedFrom := q.st })
      (if leads c q then forwardCmd c q.members s else s)) := by
  have named' : (cmdPitch s c).bind (fun p => seqById s p (fieldOf c.entry 0x10 4)) = some q := named
  simp only [opSeqClose, named', zero, made, whole, Bool.not_true, Bool.false_eq_true, if_false, or_self]

/-- A SEQ_PARK that passes its checks waits, or parks at once (R83, R84, R86). -/
theorem opSeqPark_ok {c : Cmd} {s : State} {q : Seq} (named : namedSeq c s = some q) (flags : fieldOf c.entry 0x14 1 ≤ 1)
    (zero : zeroAt c.entry 0x15 43 = true) : opSeqPark c s = parkStep c.id (withStripe c q s) := by
  have named' : (cmdPitch s c).bind (fun p => seqById s p (fieldOf c.entry 0x10 4)) = some q := named
  simp only [opSeqPark, named', zero, Nat.not_lt.mpr flags, Bool.not_true, Bool.false_eq_true, if_false, or_self]
  rfl

/-- The sequence that a command names is the same after it is forwarded. -/
theorem namedSeq_withStripe (c x : Cmd) (q : Seq) (s : State) : namedSeq x (withStripe c q s) = namedSeq x s := by
  show namedSeq x (besideAnswers (withStripe c q s)) = namedSeq x (besideAnswers s)
  rw [withStripe_beside]

theorem parkStep_waits {id : Nat} {c : Cmd} {q : Seq} {s : State} (listed : cmdOf s id = some c) (named : namedSeq c s = some q)
    (used : attendBefore s q c.order = true ∨ seqSealing s q.uid = true) :
    parkStep id s = onCmd id (fun x => { x with wait := .park }) s := by
  have named' : (cmdPitch s c).bind (fun p => seqById s p (fieldOf c.entry 0x10 4)) = some q := named
  simp only [parkStep, listed, named', used, if_true]

theorem parkStep_parks {id : Nat} {c : Cmd} {q : Seq} {s : State} (listed : cmdOf s id = some c) (named : namedSeq c s = some q)
    (unused : attendBefore s q c.order = false) (sealed : seqSealing s q.uid = false) :
    parkStep id s = parkNow c q (startedCmd id s) := by
  have named' : (cmdPitch s c).bind (fun p => seqById s p (fieldOf c.entry 0x10 4)) = some q := named
  simp only [parkStep, listed, named', unused, sealed, Bool.false_eq_true, or_self, if_false]

theorem parkNow_parks {c : Cmd} {q : Seq} (s : State) (settled : q.layers.all (fun l => l.tent == 0) = true) (none_ : seqTent q = 0)
    (live : q.st = .active ∨ q.st = .parked) :
    parkNow c q s =
      let v := onSeq q.uid (fun q => { q with st := .parked }) s
      seqDone c.id .ok 0 (if bit (fieldOf c.entry 0x14 1) 0 then each (seqCrates q) (wantFlash 2) v else v) := by
  have level : q.layers.any (fun l => decide (0 < l.tent)) = false := by
    rw [List.any_eq_false]
    intro l hl
    simpa using List.all_eq_true.mp settled l hl
  have live' : ¬ (q.st ≠ .active ∧ q.st ≠ .parked) := by
    rintro ⟨active, parked⟩
    exact live.elim active parked
  simp only [parkNow, level, none_, live', Nat.lt_irrefl, Bool.false_eq_true, or_self, if_false]

theorem hintStep_checks {c : Cmd} (delay : fieldOf c.entry 0x14 4 ≤ 60000000) (flags : fieldOf c.entry 0x1C 1 ≤ 1)
    (zero : zeroAt c.entry 0x1D 35 = true) :
    ¬ (60000000 < fieldOf c.entry 0x14 4 ∨ 1 < fieldOf c.entry 0x1C 1 ∨ (!(zeroAt c.entry 0x1D 35)) = true) := by
  rw [zero]
  simp [delay, flags]

/-- A HINT_STEP that passes its checks (R238, R239). -/
theorem opHintStep_ok {c : Cmd} {s : State} {q : Seq} (named : namedSeq c s = some q) (delay : fieldOf c.entry 0x14 4 ≤ 60000000)
    (flags : fieldOf c.entry 0x1C 1 ≤ 1) (zero : zeroAt c.entry 0x1D 35 = true) (live : q.st = .active ∨ q.st = .parked) :
    opHintStep c s =
      let next := c.at_ + fieldOf c.entry 0x14 4 * 1000
      let u := onSeq q.uid (fun q =>
        if bit (fieldOf c.entry 0x1C 1) 0 then { q with nextHint := 0, hint := none, planned := false }
        else { q with nextHint := next, hint := some { next := next, gap := fieldOf c.entry 0x18 4 }, planned := false }) s
      complete c.id .ok 0 (if leads c q then each (memberPeers u q.members) (fun m s => match m.2 with
          | some peer => tell peer (.forwardCmd c.op c.entry) s
          | none => s) u else u) := by
  have open_ : ¬ (q.st = .open_ ∨ q.st = .closing) := by rcases live with st | st <;> simp [st]
  have damaged : q.st ≠ .damaged := by rcases live with st | st <;> simp [st]
  unfold opHintStep
  extract_lets e
  rw [show (cmdPitch s c).bind (fun p => seqById s p (fieldOf e 0x10 4)) = some q from named]
  exact (if_neg (hintStep_checks delay flags zero)).trans ((if_neg open_).trans (if_neg damaged))

theorem opHintStep_damaged {c : Cmd} {s : State} {q : Seq} (named : namedSeq c s = some q)
    (delay : fieldOf c.entry 0x14 4 ≤ 60000000) (flags : fieldOf c.entry 0x1C 1 ≤ 1) (zero : zeroAt c.entry 0x1D 35 = true)
    (damaged : q.st = .damaged) : opHintStep c s = complete c.id .ok 0 s := by
  unfold opHintStep
  extract_lets e
  rw [show (cmdPitch s c).bind (fun p => seqById s p (fieldOf e 0x10 4)) = some q from named]
  exact (if_neg (hintStep_checks delay flags zero)).trans ((if_neg (by simp [damaged])).trans (if_pos damaged))

/-! SEQ_FORK (R79 to R82, R86, R209). -/

/-- What a SEQ_FORK meets that may fork: a pitch, a free SEQ_ID and ledger slot, and no field out of range (R79, R86). -/
theorem forkable_inv {c : Cmd} {s : State} {p k : Nat} (h : forkable c s p k = true) :
    cmdPitch s c = some p ∧ seqById s p (fieldOf c.entry 0x10 4) = none
      ∧ (decide (bits (fieldOf c.entry 0x16 1) 5 3 ≠ 0) || !(zeroAt c.entry 0x17 1)
        || decide (bits (fieldOf c.entry 0x1C 4) 22 10 ≠ 0) || !(zeroAt c.entry 0x28 24)
        || (clientClass s p (fieldOf c.entry 0x14 2)).isNone) = false
      ∧ ledgerSlot s p = some k ∧ c.stageD = false := by
  simp only [forkable, Bool.and_eq_true, Bool.not_eq_true', beq_iff_eq, Option.isNone_iff_eq_none] at h
  obtain ⟨⟨⟨⟨⟨⟨⟨⟨pitch, newId⟩, flags⟩, zero1⟩, word⟩, zero2⟩, client⟩, free⟩, power⟩ := h
  exact ⟨pitch, newId, by simp [flags, zero1, word, zero2, client], free, power⟩

/-- A SEQ_FORK of a parent that passes its checks (R79 to R82, R86). -/
theorem opSeqFork_parent {c : Cmd} {s : State} {p k : Nat} {par : Seq} (may : forkable c s p k = true)
    (kind : bit (fieldOf c.entry 0x16 1) 4 = false) (parent : seqById s p (fieldOf c.entry 0x18 4) = some par)
    (live : par.st = .active ∨ par.st = .parked) (linked : unlinked s c par = false)
    (long : bits (fieldOf c.entry 0x1C 4) 0 22 ≤ seqLength par)
    (room : poolRoomFor s p (startPool par.shape (ownCount par (bits (fieldOf c.entry 0x1C 4) 0 22))) = true) :
    opSeqFork c s =
      let u := withStripe c par s
      startedCmd c.id { ordered u with seqs := u.seqs ++ [forkChild c s p k par] } := by
  obtain ⟨pitch, newId, fields, free, power⟩ := forkable_inv may
  have order : (withStripe c par s).order = s.order := by
    show (besideAnswers (withStripe c par s)).order = (besideAnswers s).order
    rw [withStripe_beside]
  have open_ : ¬ (par.st = .open_ ∨ par.st = .closing) := by rcases live with st | st <;> simp [st]
  have damaged : par.st ≠ .damaged := by rcases live with st | st <;> simp [st]
  unfold opSeqFork
  extract_lets e flags' kind' word' n id make cls row fresh uid empty u
  rw [pitch]
  refine (if_neg (by simp [kind', flags', e, kind])).trans ?_
  rw [parent]
  refine (if_neg (by simp [id, e, newId])).trans ((if_neg (by simp [linked])).trans
    ((if_neg (not_or.mpr ⟨ne_true_of_eq_false fields, Nat.not_lt.mpr long⟩)).trans ((if_neg open_).trans ((if_neg damaged).trans ?_))))
  rw [free]
  refine (if_neg (by rw [show poolRoomFor s p (startPool par.shape (ownCount par n)) = true from room]; decide)).trans
    ((if_neg (by simp [power])).trans ?_)
  show startedCmd c.id { ordered u with seqs := u.seqs ++ [{ forkChild c s p k par with uid := u.order }] } = _
  rw [order]
  rfl

/-- A SEQ_FORK of the result of a lookup that passes its checks (R79, R80, R86, R209). -/
theorem opSeqFork_result {c : Cmd} {s : State} {p k slot : Nat} (may : forkable c s p k = true)
    (kind : bit (fieldOf c.entry 0x16 1) 4 = true) (found : slotAt s p (fieldOf c.entry 0x20 8) = some slot)
    (pages : bits (fieldOf c.entry 0x1C 4) 0 22 % 256 = 0)
    (long : bits (fieldOf c.entry 0x1C 4) 0 22 ≤ 256 * (((resultIn s p slot).map (fun x => x.pages.length)).getD 0))
    (room : poolRoomFor s p (startPool (slotHead s (fieldOf c.entry 0x20 8) (resultIn s p slot)).2.2
      (bits (fieldOf c.entry 0x1C 4) 0 22)) = true) :
    opSeqFork c s = seqDone c.id .ok k (forkResult c s p k (resultIn s p slot)) := by
  obtain ⟨pitch, newId, fields, free, power⟩ := forkable_inv may
  have result : (slotAt s p (fieldOf c.entry 0x20 8)).bind (resultIn s p) = resultIn s p slot := by rw [found]; rfl
  have whole : ¬ ((slotAt s p (fieldOf c.entry 0x20 8)).isNone = true ∨ bits (fieldOf c.entry 0x1C 4) 0 22 % 256 ≠ 0
      ∨ 256 * ((((slotAt s p (fieldOf c.entry 0x20 8)).bind (resultIn s p)).map (fun r => r.pages.length)).getD 0)
        < bits (fieldOf c.entry 0x1C 4) 0 22) := by
    rw [result]
    simp [found, pages, long]
  unfold opSeqFork
  extract_lets e flags' kind' word' n id make cls row fresh uid
  rw [pitch]
  refine (if_pos kind).trans ((if_neg (by simp [id, e, newId])).trans ((if_neg (not_or.mpr ⟨ne_true_of_eq_false fields, whole⟩)).trans ?_))
  rw [free]
  refine (if_neg ?_).trans ((if_neg (by simp [power])).trans ?_)
  · rw [result, show poolRoomFor s p (startPool (slotHead s (fieldOf e 0x20 8) (resultIn s p slot)).2.2 n) = true from room]
    decide
  · rw [result]
    rfl

/-- A child of a parent holds in each layer the tokens of what it forks (R80, R81). -/
theorem forkChild_layers (c : Cmd) (s : State) (p k : Nat) (par : Seq) :
    (forkChild c s p k par).layers.length = par.layers.length
      ∧ (forkChild c s p k par).layers.all (fun l => l.len == bits (fieldOf c.entry 0x1C 4) 0 22) = true := by
  refine ⟨List.length_map .., ?_⟩
  rw [List.all_eq_true]
  refine List.forall_mem_map.mpr fun l _ => ?_
  rw [beq_iff_eq]
  split
  · split <;> rfl
  · rfl

/-! The commands together. -/

/-- SEQ_PARK, which waits or parks on the state in which a stripe's lead has forwarded it (R76, R84). -/
theorem seqPark_runs {r : Nat} {e : Entry} {s t : State} {c : Cmd} {q : Seq} (starts : started .seqPark r e s = some (c, t))
    (named : namedSeq c t = some q) (flags : fieldOf c.entry 0x14 1 ≤ 1) (zero : zeroAt c.entry 0x15 43 = true) :
    let u := withStripe c q t
    (attendBefore u q c.order = true ∨ seqSealing u q.uid = true →
      Works (.seqPark r e) s (onCmd c.id (fun x => { x with wait := .park }) u))
    ∧ (attendBefore u q c.order = false → seqSealing u q.uid = false → q.layers.all (fun l => l.tent == 0) = true → seqTent q = 0 →
      (q.st = .active ∨ q.st = .parked) →
      let v := onSeq q.uid (fun q => { q with st := .parked }) (startedCmd c.id u)
      Works (.seqPark r e) s (seqDone c.id .ok 0
        (if bit (fieldOf c.entry 0x14 1) 0 then each (seqCrates q) (wantFlash 2) v else v))) := by
  intro u
  obtain ⟨peers, members, listed⟩ := cmdOf_withStripe q (started_listed starts)
  have named' : namedSeq (awaiting peers members { c with wait := .started }) u = some q := (namedSeq_withStripe ..).trans named
  have runs : runOp c t = parkStep c.id u := by
    rw [runOp, (started_cmd starts).1]
    exact opSeqPark_ok named flags zero
  refine ⟨fun used => ?_, fun unused sealed settled none_ live => ?_⟩
  · exact works_of_runOp starts (runs.trans (parkStep_waits listed named' used))
  · exact works_of_runOp starts (runs.trans ((parkStep_parks listed named' unused sealed).trans (parkNow_parks _ settled none_ live)))

/-- SEQ_OPEN, SEQ_CLOSE, SEQ_PARK, ACCEPT and HINT_STEP, each by the equation of its operation. -/
theorem sequenceCommandsRun : SequenceCommandsRun := by
  refine ⟨?_, ?_, ?_, acceptRuns, ?_, ?_⟩
  · intro r e s c t p devices tails slot starts fields tokens h striped probe u v inputs room free power
    exact works_of_runOp starts (.trans (by rw [runOp, (started_cmd starts).1]) (opSeqOpen_ok fields inputs room free power))
  · intro r e s c t q starts named zero made whole
    exact works_of_runOp starts (.trans (by rw [runOp, (started_cmd starts).1]) (opSeqClose_ok named zero made whole))
  · intro r e s c t q starts named flags zero
    exact seqPark_runs starts named flags zero
  · intro r e s c t q starts named delay flags zero live
    exact works_of_runOp starts (.trans (by rw [runOp, (started_cmd starts).1]) (opHintStep_ok named delay flags zero live))
  · intro r e s c t q starts named delay flags zero damaged
    exact works_of_runOp starts (.trans (by rw [runOp, (started_cmd starts).1]) (opHintStep_damaged named delay flags zero damaged))

/-- SEQ_FORK, of a parent and of the result of a lookup. -/
theorem forkCompletes : ForkCompletes := by
  refine ⟨?_, ?_⟩
  · intro r e s c t p par k starts may kind parent live linked n long room u q
    obtain ⟨layers, lens⟩ := forkChild_layers c t p k par
    refine ⟨works_of_runOp starts ?_, rfl, rfl, rfl, rfl, rfl, rfl, rfl, rfl, rfl, rfl, rfl, layers, lens⟩
    rw [runOp, (started_cmd starts).1]
    exact opSeqFork_parent may kind parent live linked long room
  · intro r e s c t p k slot starts may kind found n res pages long room
    exact works_of_runOp starts (.trans (by rw [runOp, (started_cmd starts).1]) (opSeqFork_result may kind found pages long room))

/-- Settles O7: each command starts from its row, and passes its checks. -/
theorem sequenceCommandsComplete : Obligations.SequenceCommandsComplete := ⟨sequenceCommandsRun, forkCompletes⟩

end Sys2Proof.Machine
end

section
/-! PROOFS. Ledger and pages: what a stripe's members forward, merge and answer (R76, R124 to R128). -/
namespace Sys2Proof.Machine

open Sys2Proof.Claims

/-- What a row answers whose effect takes place while the device runs, and after which the block settles. -/
theorem works_work {c : Instr} {s u : State} {ok : Bool} {f : State → State} (row : exec c s = work ok s f) (up : Up s)
    (ok' : ok = true) (effect : f s = u) : Works c s u := by
  rw [Works, row, work_up up ok', effect]

/-- A forward reaches a member that runs its pitch and has a connection of it to the lead (R76, R333). -/
def forwardLinked (q : Nat) (f : Forward) (s : State) : Bool := !(notBound s (f.pitch + 1)) && (connBetween s f.pitch q).isSome

/-- The command that a forward asks for, among those that a lead forwards. -/
def forwardOp (f : Forward) : Option Opcode := (Opcode.ofCode (fieldOf f.entry 0 1)).filter (fun o => forwardedOps.contains o)

theorem forwardUnlinked_eq (q : Nat) (f : Forward) (s : State) :
    (notBound s (f.pitch + 1) || (connBetween s f.pitch q).isNone) = !(forwardLinked q f s) := by
  unfold forwardLinked
  cases connBetween s f.pitch q <;> simp

theorem forwardArrives_unlinked {q : Nat} {f : Forward} {s : State} (h : forwardLinked q f s = false) :
    forwardArrives q f s = tell q (.memberDone { member := 0, status := Status.closing.code, narrow := false, layerLen := 0 }) s := by
  have unlinked : (notBound s (f.pitch + 1) || (connBetween s f.pitch q).isNone) = true := by rw [forwardUnlinked_eq, h]; rfl
  exact if_pos unlinked

theorem forwardArrives_noOp {q : Nat} {f : Forward} {s : State} (h : forwardLinked q f s = true) (k : forwardOp f = none) :
    forwardArrives q f s = tell q (.memberDone { member := 0, status := Status.badOpcode.code, narrow := false, layerLen := 0 }) s := by
  have linked : ¬ (notBound s (f.pitch + 1) || (connBetween s f.pitch q).isNone) = true := by rw [forwardUnlinked_eq, h]; decide
  refine (if_neg linked).trans ?_
  rw [show (Opcode.ofCode (fieldOf f.entry 0 1)).filter (fun o => forwardedOps.contains o) = none from k]

theorem forwardArrives_op {q : Nat} {f : Forward} {s : State} {o : Opcode} (h : forwardLinked q f s = true)
    (k : forwardOp f = some o) :
    forwardArrives q f s =
      let own := if o = .seqOpen then fieldOf f.entry 0x26 1
        else ((seqById s f.pitch (if o = .attend then leAt f.seqEntry 0 4
          else fieldOf f.entry (if o = .seqFork then 0x18 else 0x10) 4)).map (fun x => x.ownIndex)).getD 0
      let c := forwardedCmd s q o own f
      let u := ordered { s with cmds := s.cmds ++ [c] }
      tryStart c.id (if o = .attend then { u with forwards := u.forwards ++ [(c.id, f)] } else u) := by
  have linked : ¬ (notBound s (f.pitch + 1) || (connBetween s f.pitch q).isNone) = true := by rw [forwardUnlinked_eq, h]; decide
  refine (if_neg linked).trans ?_
  rw [show (Opcode.ofCode (fieldOf f.entry 0 1)).filter (fun o => forwardedOps.contains o) = some o from k]
  rfl

/-- The first partial of a member counts, and is merged with the others (R125, R127). -/
theorem stripePartial_counts {id i m : Nat} {rows : List PartialRow} {narrow : Bool} {s : State} {a : Attend} {p : Part}
    (part : partOf s id i = some (a, p)) (awaited : p.mem.contains (m, 0xFF) = true)
    (appended : p.segs.head?.map (fun g => g.1) ≠ some m) :
    stripePartial id i m rows narrow s =
      let got := { p with narrow := p.narrow || narrow, stripe := p.stripe ++ [(m, rows)],
                          mem := p.mem.map (fun x => if x.1 = m then (m, 0) else x) }
      stripeMerge a i got (onPart id i (fun _ => got) s) := by
  unfold stripePartial
  rw [part]
  exact if_neg (by rw [awaited]; simpa using appended)

/-- A part is one of an ATTEND that is under way. -/
theorem partOf_listed {s : State} {id i : Nat} {a : Attend} {p : Part} (h : partOf s id i = some (a, p)) :
    s.attends.any (fun a => a.cmd == id) = true := by
  unfold partOf at h
  split at h
  · contradiction
  · rename_i b found
    exact List.any_eq_true.mpr ⟨b, List.mem_of_find?_eq_some found, by simpa using List.find?_some found⟩

/-- A member's OK for an append takes the first segment that waits for it (R124). -/
theorem stripeMember_appends {id i : Nat} {d : MemberDone} {s : State} {a : Attend} {p : Part} {x y : Nat} {toks : List Token}
    {rest : List (Nat × Nat × List Token)} (part : partOf s id i = some (a, p)) (awaited : p.mem.contains (d.member, 0xFF) = true)
    (ok : d.status = 0) (segs : p.segs = (x, y, toks) :: rest) (own : x = d.member) :
    stripeMember id i d s = noteLen id i (appendTokens p.seq a.layer toks.length [] p.tentative
      (onPart id i (fun p => { p with segs := rest, narrow := p.narrow || d.narrow }) s)) := by
  refine (if_pos (partOf_listed part)).trans ?_
  unfold memberPart
  rw [part]
  refine (if_neg (by rw [awaited]; decide)).trans ((if_pos ok).trans ?_)
  rw [segs]
  exact if_pos own

/-- A member that fails ends its part, and what it was to append (R128). -/
theorem stripeMember_fails {id i : Nat} {d : MemberDone} {s : State} {a : Attend} {p : Part}
    (part : partOf s id i = some (a, p)) (awaited : p.mem.contains (d.member, 0xFF) = true) (failed : d.status ≠ 0) :
    stripeMember id i d s = onPart id i (fun p =>
      { p with segs := [], mem := p.mem.map (fun x => if x.1 = d.member then (d.member, d.status) else x) }) s := by
  refine (if_pos (partOf_listed part)).trans ?_
  unfold memberPart
  rw [part]
  exact (if_neg (by rw [awaited]; decide)).trans (if_neg failed)

/-- Settles O23: forwards, partials and ends, each by the equation of its effect. -/
theorem stripeEventsComplete : Obligations.StripeEventsComplete := by
  refine ⟨fun q f s up peer => ⟨fun h => ?_, fun h k => ?_, fun o h k => ?_⟩, ?_, fun id i d s a p up part awaited => ⟨?_, ?_⟩, ?_⟩
  · exact works_work rfl up peer (forwardArrives_unlinked h)
  · exact works_work rfl up peer (forwardArrives_noOp h k)
  · exact works_work rfl up peer (forwardArrives_op h k)
  · intro id i m rows narrow s a p up part awaited appended
    exact works_work rfl up rfl (stripePartial_counts part awaited appended)
  · intro x y toks rest ok segs own
    exact works_work rfl up rfl (stripeMember_appends part awaited ok segs own)
  · intro failed
    exact works_work rfl up rfl (stripeMember_fails part awaited failed)
  · intro id i d s up none_
    exact works_work rfl up rfl (if_neg (by simp only [none_, Bool.false_eq_true, not_false_eq_true]))

end Sys2Proof.Machine
end

section
/-! PROOFS. Ledger and pages: the steps of a seal. -/
namespace Sys2Proof.Machine

open Sys2Proof.Claims

/-! What choosing tables and coding blocks leaves as it is (R282 to R291). -/

/-- The state beside the tables of codes, their active lists and the registers that count them. -/
def besideTables (s : State) : State := { s with regs := [], raw := [], tables := [], actives := [] }

@[simp] theorem touchTable_beside (p role id : Nat) (s : State) : besideTables (touchTable p role id s) = besideTables s := rfl

@[simp] theorem createTable_beside (p role id gen : Nat) (wide : Bool) (lens : List Nat) (s : State) :
    besideTables (createTable p role id gen wide lens s) = besideTables s := rfl

@[simp] theorem refuseTable_beside (s : State) : besideTables (refuseTable s) = besideTables s := rfl

@[simp] theorem countBlocks_beside (p : Nat) (l : List BlockDir) (s : State) :
    besideTables (countBlocks p l s) = besideTables s := rfl

@[simp] theorem admitTable_beside (p role : Nat) (wide : Bool) (lens : List Nat) (s : State) :
    besideTables (admitTable p role wide lens s).2 = besideTables s := by
  unfold admitTable
  dsimp only
  split
  · exact touchTable_beside ..
  · split
    · exact refuseTable_beside s
    · split
      · split
        · exact createTable_beside ..
        · exact refuseTable_beside s
      · split
        · exact refuseTable_beside s
        · split
          · exact createTable_beside ..
          · exact refuseTable_beside s

@[simp] theorem chooseRole_beside (p role : Nat) (wide : Bool) (blocks : List (List (List Nat))) (s : State) :
    besideTables (chooseRole p role wide blocks s).2 = besideTables s := by
  unfold chooseRole
  extract_lets n best size wants all
  split
  · rfl
  · have kept := admitTable_beside p role wide (buildLengths (histogram n all)) s
    split <;> rename_i h <;> rw [h] at kept <;> exact kept

@[simp] theorem codeRole_beside (p role : Nat) (wide : Bool) (blocks : List (List (List Nat))) (s : State) :
    besideTables (codeRole p role wide blocks s).2 = besideTables s := by
  refine (each_keeps besideTables _ _ _ fun d _ u => ?_).trans (chooseRole_beside p role wide blocks s)
  split
  · exact touchTable_beside ..
  · rfl

/-- Coding a page changes code tables, active lists and their registers alone. -/
@[simp] theorem codeBody_beside (p : Nat) (h : Shape) (body : List Block) (s : State) :
    besideTables (codeBody p h body s).2 = besideTables s := by
  unfold codeBody
  split
  · rfl
  · refine List.foldlRecOn (motive := fun acc : List (Nat × BlockDir) × State => besideTables acc.2 = besideTables s) _ _ rfl ?_
    intro acc kept role _
    dsimp only
    split
    · exact kept
    · exact (codeRole_beside ..).trans kept

theorem crates_seals_of_beside {s t : State} (h : besideTables s = besideTables t) : s.crates = t.crates ∧ s.seals = t.seals := by
  have crates := congrArg State.crates h
  have seals := congrArg State.seals h
  exact ⟨crates, seals⟩

/-! Steps 2 to 5 of a seal (R71, R74). -/

/-- Without space on its page's stack a seal waits (R74). -/
theorem sealPage_waits {x : Seal} {q : Seq} {toks : List Token} {s : State}
    (h : areaFree s q.pitch (stackOf s q.pitch (globalPage q x.page))
      < charge (newCrate q s.order x.layer (globalPage q x.page) (stackOf s q.pitch (globalPage q x.page)) s.localTime
          (quantPage q.shape toks) [])) :
    sealPage x q toks s = s := if_pos h

/-- With space, a seal writes one crate: the page quantised and coded, in DRAM on the page's stack, and the seal's (R71). -/
theorem sealPage_writes {x : Seal} {q : Seq} {toks : List Token} {s : State}
    (h : charge (newCrate q s.order x.layer (globalPage q x.page) (stackOf s q.pitch (globalPage q x.page)) s.localTime
          (quantPage q.shape toks) []) ≤ areaFree s q.pitch (stackOf s q.pitch (globalPage q x.page))) :
    ∃ c, (sealPage x q toks s).crates = s.crates ++ [c] ∧ c.id = s.order ∧ c.pitch = q.pitch ∧ c.layer = x.layer
      ∧ c.page = globalPage q x.page ∧ c.stack = stackOf s q.pitch (globalPage q x.page) ∧ c.body = quantPage q.shape toks
      ∧ c.dram.isSome = true ∧ c.dir = (codeBody q.pitch q.shape (quantPage q.shape toks) s).1
      ∧ (sealPage x q toks s).seals = upd (fun y => y.id == x.id) (fun y => { y with crate := some c.id, toks := [] }) s.seals := by
  unfold sealPage
  extract_lets page stack body c0 r coded place c counted
  have room : ¬ areaFree s q.pitch stack < charge c0 := Nat.not_lt.mpr h
  rw [if_neg room]
  have kept : besideTables counted = besideTables s := by
    have tables : besideTables coded = besideTables s := codeBody_beside ..
    show besideTables (bump .hallSealStatSeals 0 1 (if _ then _ else coded)) = _
    split <;> exact tables
  obtain ⟨crates, seals⟩ := crates_seals_of_beside kept
  refine ⟨c, ?_, rfl, rfl, rfl, rfl, rfl, rfl, rfl, rfl, ?_⟩
  · show counted.crates ++ [c] = _
    rw [crates]
  · show upd _ _ counted.seals = _
    rw [seals]

/-- The seal of a full barrow slot, whose page the packer reads (R71, R74). -/
theorem sealCrateWritten_slot {id : Nat} {r : ReadResult} {s v : State} {x : Seal} {q : Seq} {ok : Bool}
    (found : s.seals.find? (fun y => y.id == id) = some x) (seq : seqOf s x.seq = some q) (unwritten : x.crate = none)
    (slot : x.fromSlot = true) (read : structFinding r s = (ok, v)) :
    sealCrateWritten id r s = if ok then sealPage x q x.toks v
      else damage q.uid (abandonSeals (fun y => y.seq == q.uid && y.layer == x.layer && y.fromSlot && y.crate.isNone) v) := by
  unfold sealCrateWritten
  rw [found]
  dsimp only
  rw [seq]
  refine (if_neg (by simp [unwritten])).trans ((if_pos slot).trans ?_)
  rw [read]

/-- The seal of a page of an import: its data is taken after that of the pages before it (R78). -/
theorem sealCrateWritten_import {id : Nat} {r : ReadResult} {s : State} {x : Seal} {q : Seq}
    (found : s.seals.find? (fun y => y.id == id) = some x) (seq : seqOf s x.seq = some q) (unwritten : x.crate = none)
    (import_ : x.fromSlot = false) :
    let u := each (importBefore s x) takeImportPage s
    (∀ y, u.seals.find? (fun z => z.id == id) = some y → y.toks ≠ [] → sealCrateWritten id r s = sealPage y q y.toks u)
    ∧ ((∀ y, u.seals.find? (fun z => z.id == id) = some y → y.toks = []) → sealCrateWritten id r s = u) := by
  intro u
  have taken : sealCrateWritten id r s = match u.seals.find? (fun z => z.id == id) with
      | some y => if y.toks.isEmpty then u else sealPage y q y.toks u
      | none => u := by
    unfold sealCrateWritten
    rw [found]
    dsimp only
    rw [seq]
    exact (if_neg (by simp [unwritten])).trans (if_neg (by simp [import_]))
  rw [taken]
  refine ⟨fun y there data => ?_, fun waits => ?_⟩
  · rw [there]
    exact if_neg (by simpa using data)
  · split
    · rename_i y there
      exact if_pos (by rw [waits y there]; rfl)
    · rfl

/-- Step 6 of a seal puts the crate of the next page into the page table (R71, R72, R255). -/
theorem sealSwap_next {id : Nat} {s : State} {x : Seal} {q : Seq} {k : Nat} {l : Layer}
    (found : s.seals.find? (fun y => y.id == id) = some x) (crate : x.crate = some k) (seq : seqOf s x.seq = some q)
    (layer : layerOf q x.layer = some l) (due : l.sealed = x.page) :
    let pages := if x.page < l.pages.length then setAt l.pages x.page (fun _ => some k)
      else l.pages ++ List.replicate (x.page - l.pages.length) none ++ [some k]
    let kept := { l with
      pages := pages, sealing := s.seals.any (fun y => y.id != id && y.seq == x.seq && y.layer == x.layer), sealed := l.sealed + 1 }
    let b := slotOf l l.cur
    let freed := { b with toks := [], stale := decide (0 < b.readers), alloc := decide (0 < b.readers) }
    let m := if x.fromSlot then { putSlot l.cur freed kept with cur := 1 - l.cur } else kept
    let u := onSeq x.seq (fun q => { q with
      layers := setAt q.layers x.layer (fun _ => m),
      import_ := if x.fromSlot then q.import_ else q.import_.map (fun i => { i with pagesLeft := i.pagesLeft - 1 }) })
      { s with seals := drop (fun y => y.id == id) s.seals }
    sealSwap id s = if rd u .pitchTierCfgPolicy q.pitch = 0 then wantFlash 1 k u else u := by
  intro pages kept b freed m u
  unfold sealSwap
  split
  next absent => rw [found] at absent; contradiction
  next x' found' =>
  obtain rfl : x = x' := Option.some.inj (found.symm.trans found')
  split
  next k' q' crate' seq' =>
    obtain rfl : k = k' := Option.some.inj (crate.symm.trans crate')
    obtain rfl : q = q' := Option.some.inj (seq.symm.trans seq')
    split
    next absent => rw [layer] at absent; contradiction
    next l' layer' =>
    obtain rfl : l = l' := Option.some.inj (layer.symm.trans layer')
    refine (if_neg (not_not.mpr due)).trans ?_
    extract_lets pages' more l1 b1 l2 l3 u1 v
    have freeing : ({ l2 with sealed := l2.sealed + 1, cur := 1 - l2.cur } : Layer)
        = { putSlot l.cur freed kept with cur := 1 - l.cur } := by
      show ({ putSlot l.cur freed l1 with sealed := (putSlot l.cur freed l1).sealed + 1, cur := 1 - (putSlot l.cur freed l1).cur } : Layer) = _
      unfold putSlot
      split <;> rfl
    have same : l3 = m := if_congr Iff.rfl freeing rfl
    clear_value l3
    subst same
    rfl
  next absent => exact absurd seq (absent k q crate)

/-- Settles O12: the steps of a seal, each by the equation of its effect. -/
theorem sealStepsComplete : Obligations.SealStepsComplete := by
  refine ⟨?_, ?_, fun x q toks s => ⟨sealPage_waits, sealPage_writes⟩, ?_⟩
  · intro id r s x q v up wf found seq unwritten slot
    exact ⟨fun read => works_work rfl up wf (sealCrateWritten_slot found seq unwritten slot read),
      fun read => works_work rfl up wf (sealCrateWritten_slot found seq unwritten slot read)⟩
  · intro id r s x q up wf found seq unwritten import_
    obtain ⟨written, waiting⟩ := sealCrateWritten_import (r := r) found seq unwritten import_
    exact ⟨fun y there data => works_work rfl up wf (written y there data), fun waits => works_work rfl up wf (waiting waits)⟩
  · intro id s x q k l up found crate seq layer next
    exact works_work rfl up rfl (sealSwap_next found crate seq layer next)

end Sys2Proof.Machine
end

section
/-! PROOFS. Attention: ATTEND and its result (R90, R91, R95, R98 to R100, R124, R132, R239). -/
namespace Sys2Proof.Machine

open Sys2Proof.Claims

/-! The checks of an ATTEND (R99), as attendTakes puts them together. -/

/-- The sequence entries of an ATTEND's body, each with the shape of the sequence that it names. -/
def seqEntries (c : Cmd) (s : State) (p : Nat) (t : Bytes) : List (Option Shape × Bytes) :=
  (chunks 32 (fieldOf c.entry 0x11 1 + 1) t).map (fun b => ((seqById s p (leAt b 0 4)).map (fun q => q.shape), b))

/-- The pieces of body and result that they name. -/
def attendPieces (c : Cmd) (s : State) (p : Nat) (t : Bytes) : List (Bool × Nat × Nat) :=
  (seqEntries c s p t).flatMap (fun x => entryPieces c.entry x.1 x.2)

/-- Where a piece lies. -/
def pieceAt (c : Cmd) (s : State) (x : Bool × Nat × Nat) : Except Status Place :=
  if x.1 then locate s c.ring (fieldOf c.entry 0x30 4) (fieldOf c.entry 0x34 6 + x.2.1) x.2.2 true
  else locate s c.ring (fieldOf c.entry 0x1C 4) (fieldOf c.entry 0x28 6 + x.2.1) x.2.2 false

theorem bodyRead_inv {c : Cmd} {s : State} {n win off : Nat} {t : Bytes} (h : bodyRead c s n win off = some t) :
    (∃ pl, locate s c.ring win off n false = .ok pl) ∧ readOperand s c win off n = .val t := by
  unfold bodyRead at h
  split at h
  · rename_i pl bs place read
    exact ⟨⟨pl, place⟩, read.trans (congrArg Got.val (Option.some.inj h))⟩
  · contradiction

theorem found_iff {x : Except Status Place} : (match x with
    | .ok _ => true
    | .error _ => false) = true ↔ ∃ pl, x = .ok pl := by
  cases x <;> simp

/-- What an ATTEND meets that takes its parts: its windows and pieces are found, its fields pass, and its data is at hand. -/
theorem attendTakes_inv {c : Cmd} {s : State} {p : Nat} {ins : List PartIn} (h : attendTakes c s p = some ins) :
    let n := fieldOf c.entry 0x11 1 + 1
    ∃ t, bodyRead c s (32 * n) (fieldOf c.entry 0x1C 4) (fieldOf c.entry 0x28 6) = some t
      ∧ cmdPitch s c = some p ∧ c.stageD = false ∧ (∃ pl, pieceAt c s (true, 0, 16 * n) = .ok pl)
      ∧ (∀ x ∈ attendPieces c s p t, ∃ pl, pieceAt c s x = .ok pl)
      ∧ ¬ ((!(entryOk c.entry)) = true ∨ (!((seqEntries c s p t).all (fun x => seqEntryOk x.2))) = true
        ∨ overlaps ((0, 16 * n) :: ((attendPieces c s p t).filter (fun x => x.1)).map (fun x => (x.2.1, x.2.1 + x.2.2))) = true)
      ∧ readParts s c (seqEntries c s p t) = .val ins := by
  intro n
  unfold attendTakes at h
  extract_lets e n' bw bo ow oo ok at h
  split at h
  next => contradiction
  next t body =>
    extract_lets es pieces outs at h
    split at h
    next checks =>
      have place (x : Bool × Nat × Nat) (found : ok x = true) : ∃ pl, pieceAt c s x = .ok pl := by
        obtain ⟨out, off, len⟩ := x
        cases out <;> exact found_iff.mp found
      simp only [Bool.and_eq_true, Bool.not_eq_true', beq_iff_eq] at checks
      obtain ⟨⟨⟨⟨⟨⟨pitch, power⟩, status⟩, found⟩, entry⟩, entries⟩, apart⟩ := checks
      split at h
      next ins' parts =>
        refine ⟨t, body, pitch, power, place _ status, fun x hx => place x (List.all_eq_true.mp found x hx), ?_,
          parts.trans (congrArg Got.val (Option.some.inj h))⟩
        rintro (bad | bad | bad)
        · exact absurd ((congrArg not entry).symm.trans bad) Bool.false_ne_true
        · exact absurd ((congrArg not entries).symm.trans bad) Bool.false_ne_true
        · exact absurd (apart.symm.trans bad) Bool.false_ne_true
      next => contradiction
    next => contradiction

/-- No check fails where every place is found. -/
theorem worstCheck_found {l : List (Except Status Place)} (h : ∀ x ∈ l, ∃ pl, x = .ok pl) : worstCheck l = none := by
  unfold worstCheck
  extract_lets errs
  have none_ : errs = [] := List.filterMap_eq_nil_iff.mpr fun x hx => by
    obtain ⟨pl, rfl⟩ := h x hx
    rfl
  rw [none_]
  rfl

/-- An ATTEND that takes its parts starts (R99). -/
theorem opAttend_ok {c : Cmd} {s : State} {p : Nat} {ins : List PartIn} (takes : attendTakes c s p = some ins) :
    opAttend c s = startAttend c p ins s := by
  obtain ⟨t, body, pitch, power, status, pieces, passes, parts⟩ := attendTakes_inv takes
  obtain ⟨place, read⟩ := bodyRead_inv body
  have found : worstCheck ((attendPieces c s p t).map (pieceAt c s)) = none :=
    worstCheck_found (List.forall_mem_map.mpr pieces)
  unfold opAttend
  extract_lets e n bw bo ow oo
  rw [pitch]
  refine (if_neg (by simp [power])).trans ?_
  have ends : worstCheck [locate s c.ring bw bo (32 * n) false, locate s c.ring ow oo (16 * n) true] = none :=
    worstCheck_found (List.forall_mem_cons.mpr ⟨place, List.forall_mem_singleton.mpr status⟩)
  rw [ends]
  dsimp only
  rw [show readOperand s c bw bo (32 * n) = .val t from read]
  show gotElse c _ (match worstCheck ((attendPieces c s p t).map (pieceAt c s)) with
    | some st => .val (complete c.id st 0 s)
    | none => _) s = _
  rw [found]
  exact congrArg (fun g => gotElse c (fun st s => complete c.id st 0 s) g s)
    ((if_neg passes).trans (congrArg (fun g => g.bind (fun ins => .val (startAttend c p ins s))) parts))

/-- The attention that a start lists (R90, R91, R98). -/
theorem startAttend_lists (c : Cmd) (p : Nat) (ins : List PartIn) (s : State) :
    ∃ a, (startAttend c p ins s).attends = insertBy (fun b => b.cmd) a s.attends
      ∧ a.cmd = c.id ∧ a.pitch = p ∧ a.layer = fieldOf c.entry 0x10 1 ∧ a.qgroup = fieldOf c.entry 0x12 1
      ∧ a.listed = false ∧ a.outWin = fieldOf c.entry 0x30 4 ∧ a.outOffset = fieldOf c.entry 0x34 6
      ∧ a.parts.length = ins.length := by
  unfold startAttend
  extract_lets a ids parts
  refine ⟨{ a with parts := parts }, ?_, rfl, rfl, rfl, rfl, rfl, rfl, rfl, by simp [parts]⟩
  unfold noteUses
  extract_lets u
  show (if _ then u else { u with seqs := _ } : State).attends = _
  split <;> rfl

/-! What a started ATTEND runs: the result of the attention that bears its number, the forward that does, or its checks. -/

theorem runOp_attend_checks {c : Cmd} {s : State} (op : c.op = .attend) (unlisted : s.attends.any (fun a => a.cmd == c.id) = false)
    (own : s.forwards.any (fun f => f.1 == c.id) = false) : runOp c s = opAttend c s := by
  have noForward : s.forwards.find? (fun f => f.1 == c.id) = none := by simpa using own
  simp only [runOp, op, unlisted, noForward, Bool.false_eq_true, if_false]

theorem runOp_attend_result {c : Cmd} {s : State} {a : Attend} (op : c.op = .attend)
    (found : s.attends.find? (fun a => a.cmd == c.id) = some a) : runOp c s = attendResult c.id s := by
  have listed : s.attends.any (fun a => a.cmd == c.id) = true :=
    List.any_eq_true.mpr ⟨a, List.mem_of_find?_eq_some found, by simpa using List.find?_some found⟩
  simp only [runOp, op, listed, if_true]

/-- The part of AttendStarts that holds: the ATTEND starts where no attention and no forward bears its number, as none does
under a number just given out (R427). -/
theorem attend_starts {r : Nat} {e : Entry} {s t : State} {c : Cmd} {p : Nat} {ins : List PartIn}
    (starts : started .attend r e s = some (c, t)) (takes : attendTakes c t p = some ins)
    (unlisted : t.attends.any (fun a => a.cmd == c.id) = false) (own : t.forwards.any (fun f => f.1 == c.id) = false) :
    Works (.attend r e) s (startAttend c p ins t) :=
  works_of_runOp starts ((runOp_attend_checks (started_cmd starts).1 unlisted own).trans (opAttend_ok takes))

/-! The result of an ATTEND (R95, R99, R100, R124, R132). -/

/-- Where the result writes of an ATTEND go (R95). -/
def resultPlaces (s : State) (c : Cmd) (a : Attend) : List (Except Status Place) :=
  (attendWrites s a).map (fun w => locate s c.ring a.outWin (a.outOffset + w.1) w.2.length true)

/-- The ranges among them of which a host half holds a line (R449). -/
def heldResults (s : State) (c : Cmd) (a : Attend) : List (Nat × Nat × Nat) :=
  ((resultPlaces s c a).zip (attendWrites s a)).filterMap (fun x => match x.1 with
    | .ok (.dram p o) => if mustSnoop s p o x.2.2.length true then some (p, o, x.2.2.length) else none
    | _ => none)

/-- The results written, each at its place (R100). -/
def putResults (id : Nat) (c : Cmd) (a : Attend) (s : State) : State :=
  each ((resultPlaces s c a).zip (attendWrites s a)) (fun x s => match x.1 with
    | .ok pl => resultWrite id pl x.2.2 s
    | .error _ => s) s

/-- Every part of an ATTEND counted (R132). -/
def countParts (a : Attend) (s : State) : State := each a.parts (fun p s => countPart a (partShape s p) p s) s

/-- The attention of a command gone. -/
def dropAttend (id : Nat) (s : State) : State := { s with attends := drop (fun b => b.cmd == id) s.attends }

/-- The trace record of an ATTEND that is done (R579). -/
def resultTrace (c : Cmd) (a : Attend) (s : State) : Trace :=
  { pitch := a.pitch, ring := c.ring, tag := c.tag, accepted := c.at_, listed := a.listedAt, first := a.firstAt.getD a.listedAt,
    merged := a.mergedAt, done := s.localTime }

section
variable {id : Nat} {s : State} {a : Attend} (found : s.attends.find? (fun a => a.cmd == id) = some a)
include found

/-- An attention whose work list is not built has no result to write (R141). -/
theorem attendResult_unlisted (unlisted : a.listed = false) : attendResult id s = s := by
  unfold attendResult
  rw [found]
  split
  next found' _ =>
    obtain rfl := Option.some.inj found'
    exact if_pos (.inl unlisted)
  next => rfl

variable {c : Cmd} (cmd : cmdOf s id = some c) (listed : a.listed = true) (ready : a.parts.all partReady = true)
include cmd listed ready

/-- The result of an attention whose parts all have their outcome. -/
theorem attendResult_ready : attendResult id s =
    if a.lead.isSome then memberResult a c s
    else match worstCheck (resultPlaces s c a) with
    | some st => complete id st 0 (dropAttend id (countParts a s))
    | none =>
      if !(heldResults s c a).isEmpty then
        onCmd id (fun x => { x with wait := .snoop }) (each (heldResults s c a) (fun x => snoop x.1 x.2.1 x.2.2) s)
      else
        let u := countParts a (putResults id c a s)
        writeTrace (resultTrace c a u)
          (finish id (attendStatus a) (countBy (fun (p : Part) => p.status.isNone) a.parts) (dropAttend id u)) := by
  have due : ¬ (a.listed = false ∨ a.parts.any (fun p => !(partReady p)) = true) := by
    have outcomes : a.parts.any (fun p => !(partReady p)) = false := by simpa using ready
    rw [listed, outcomes]
    decide
  unfold attendResult
  rw [found, cmd]
  exact if_neg due

end

/-- The result of an ATTEND, by the outcome of its window checks and the lines that are held. -/
theorem attendResultCompletes : AttendResultCompletes := by
  refine ⟨?_, fun id s a c up found cmd listed ready lead => ?_⟩
  · intro id s a c up found cmd listed ready alone ws places counted gone held put u
    have result := attendResult_ready found cmd listed ready
    simp only [alone, Option.isSome_none, Bool.false_eq_true, if_false] at result
    refine ⟨fun taken unheld => ?_, fun taken lines => ?_, fun st refused => ?_⟩
    · rw [show worstCheck (resultPlaces s c a) = none from taken, show heldResults s c a = [] from unheld] at result
      exact works_work rfl up rfl result
    · have waits : (!(heldResults s c a).isEmpty) = true := by
        rw [List.isEmpty_eq_false_iff.mpr (show heldResults s c a ≠ [] from lines), Bool.not_false]
      rw [show worstCheck (resultPlaces s c a) = none from taken] at result
      exact works_work rfl up rfl (result.trans (if_pos waits))
    · rw [show worstCheck (resultPlaces s c a) = some st from refused] at result
      exact works_work rfl up rfl result
  · exact works_work rfl up rfl ((attendResult_ready found cmd listed ready).trans (if_pos lead))

/-! A state in which an attention already bears the number of an accepted ATTEND, as nothing in AttendStarts forbids. -/

/-- A pitch that has one ring and nothing else. -/
def oneRing : PitchPlan :=
  { laidOut := true, granules := [], hallBase := 0, ringLo := 0, ringCount := 1, half := 0, dies := [], zones := 0, zoneUnits := 0,
    segments := [] }

/-- A running device whose ring has accepted an entry under number 5, with a DRAM window of 64 B, and an attention of
number 5 without parts. -/
def numberTaken : State :=
  onRing 0 (fun x => { x with accepted := [{ slot := 0, order := 5, at_ := 0, stageD := false }] })
    (wr .pciLinkUp 0 1 (wr .pciRingStateState 0 1 (wr .secPitchStateState 0 2
      { State.reset with
        phase := .running, plan := { Plan.empty with pitches := [oneRing] }, attends := [attendOf 5 0 0],
        windows := [{ newWindow 0 0 15 0 noChit 0 64 with gen := 1 }], winNext := 1 })))

/-- An ATTEND of one sequence entry, with QGROUP 1, SCALE 1.0, and that window for its body and its result. -/
def attendEntry : Entry :=
  BitVec.ofNat 512 (noChit * 2 ^ (8 * 0x04) + 1 * 2 ^ (8 * 0x12) + 0x3F800000 * 2 ^ (8 * 0x14) + 262144 * 2 ^ (8 * 0x1C)
    + 262144 * 2 ^ (8 * 0x30))

/-- The command that starts there, the state in which it does, and the parts that it takes. -/
def takenStart : Option (Cmd × State × List PartIn) :=
  (started .attend 0 attendEntry numberTaken).bind (fun x => (attendTakes x.1 x.2 0).map (fun ins => (x.1, x.2, ins)))

/-- The ATTEND takes its parts, and its start would list a second attention of its number. -/
theorem takenStart_twice : takenStart.any (fun x => x.2.1.attends.find? (fun a => a.cmd == x.1.id) == some (attendOf 5 0 0)
    && (settle x.2.1).attends.length != (settle (startAttend x.1 0 x.2.2 x.2.1)).attends.length) = true := by decide +kernel

/-- An ATTEND whose number an attention bears goes on with that attention, of which nothing is due yet. -/
theorem not_attendStarts : ¬ AttendStarts := by
  intro claim
  obtain ⟨⟨c, t, ins⟩, begun, twice⟩ := (Option.any_eq_true _ _).mp takenStart_twice
  obtain ⟨⟨c', t'⟩, starts, taken⟩ := Option.bind_eq_some_iff.mp begun
  obtain ⟨ins', takes, same⟩ := Option.map_eq_some_iff.mp taken
  obtain ⟨rfl, rfl, rfl⟩ : c' = c ∧ t' = t ∧ ins' = ins := by simpa using same
  simp only [Bool.and_eq_true, beq_iff_eq, bne_iff_ne] at twice
  obtain ⟨found, differ⟩ := twice
  have idle : runOp c' t' = t' :=
    (runOp_attend_result (started_cmd starts).1 found).trans (attendResult_unlisted found rfl)
  have real : Works (.attend 0 attendEntry) numberTaken t' := works_of_runOp starts idle
  have claimed := (claim 0 attendEntry numberTaken c' t' 0 ins' starts takes).1
  have ends : keepQueue numberTaken (settle t') = keepQueue numberTaken (settle (startAttend c' 0 ins' t')) :=
    Host.Outcome.next.inj (real.symm.trans claimed)
  exact differ (congrArg (fun u => u.attends.length) ends)

/-- Refutes O13: AttendStarts does not ask that the number of the accepted entry is new among the attentions. In
numberTaken an attention bears it, and the ATTEND that passes every check lists no second one. -/
theorem not_attendCommandsComplete : ¬ Obligations.AttendCommandsComplete := fun ⟨starts, _⟩ => not_attendStarts starts

end Sys2Proof.Machine
end

section
/-! PROOFS. Attention: the events of the stalls (R126, R149 to R157, R160, R163 to R169, R271, R313). -/
namespace Sys2Proof.Machine

open Sys2Proof.Claims

/-! Tile boundaries (R151, R152, R271, R313). -/

/-- A stall that runs no context, after which its dispatcher chooses. -/
def freeStall (k : Nat) (s : State) : State := schedule k (onStall k (fun a => { a with running := none }) s)

/-- The pass of a context counted, and the context past it. -/
def passCounted (k : Nat) (x : Ctx) (w : Work) (t : Tile) (s : State) : State :=
  onCtx x.id (fun _ => advanceCtx w x) (countPass k x w t (firstTile w.cmd s))

/-- A context past its pass leaves its stall free, and reaches its next tile where it has a new one. -/
def passEnds (k : Nat) (x : Ctx) (w : Work) (s : State) : State :=
  freeStall k (if (advanceCtx w x).tile ≠ x.tile then reachTile x.id s else s)

/-- The waits that a tile's read had for the unpacker of its crate's stack (R313, R325). -/
def crateStarved (id : Nat) (o : TileObs) (s : State) : State :=
  countStarve (((crateOf s id).map (fun c => c.stack)).getD 0) o s

section
variable {k : Nat} {o : TileObs} {s v : State} {x : Ctx} {w : Work} {t : Tile}
  (runs : (stallAt s k).running.bind (ctxOf s) = some x) (work : x.work = some w) (next : nextTile x = some t) (more : x.done = false)
include runs work next more

/-- A barrow slot that reads lets its pass count. -/
theorem tileBoundary_barrow_read {j : Nat} {b : List Token} (src : t.src = .barrow j b) (read : structFinding o.read s = (true, v)) :
    tileBoundary k o s = passEnds k x w (passCounted k x w t v) := by
  simp only [tileBoundary, runs, work, next, more, src, read, if_true, Bool.false_eq_true, if_false, passEnds, passCounted, freeStall]

/-- A barrow slot that does not read is lost to the ATTENDs of the run. -/
theorem tileBoundary_barrow_lost {j : Nat} {b : List Token} (src : t.src = .barrow j b) (lost : structFinding o.read s = (false, v)) :
    tileBoundary k o s = freeStall k (barrowLost w v) := by
  simp only [tileBoundary, runs, work, next, more, src, lost, Bool.false_eq_true, if_false, freeStall]

/-- A crate that reads lets its pass count, and ends the reserve of its copy. -/
theorem tileBoundary_crate_read {id : Nat} {h : Handle} (src : t.src = .crate id h)
    (read : readFinding id (tileTier (crateStarved id o s) t) o.read (crateStarved id o s) = (true, v)) :
    let u := passCounted k x w t v
    tileBoundary k o s = passEnds k x w (endReserve id (onCrate id (fun c => { c with lastUse := u.localTime }) u)) := by
  rw [crateStarved] at read
  simp only [tileBoundary, runs, work, next, more, src, read, if_true, Bool.false_eq_true, if_false, passEnds, passCounted, freeStall]

/-- A crate whose copy does not read counts no pass. -/
theorem tileBoundary_crate_lost {id : Nat} {h : Handle} (src : t.src = .crate id h)
    (lost : readFinding id (tileTier (crateStarved id o s) t) o.read (crateStarved id o s) = (false, v)) :
    tileBoundary k o s = freeStall k v := by
  rw [crateStarved] at lost
  simp only [tileBoundary, runs, work, next, more, src, lost, Bool.false_eq_true, if_false, freeStall]

/-- A tile whose seal is not swapped in yet reads nothing. -/
theorem tileBoundary_awaitSwap (src : t.src = .awaitSwap) : tileBoundary k o s = freeStall k s := by
  simp only [tileBoundary, runs, work, next, more, src, Bool.false_eq_true, if_false, freeStall]

end

theorem tileBoundaryCompletes : TileBoundaryCompletes := by
  intro k o s v x w t up stall wf runs work next more y free counted go
  have row : exec (.tileBoundary k o) s = Machine.work (stallOk k && o.read.wf) s (tileBoundary k o) := rfl
  have units : (stallOk k && o.read.wf) = true := Bool.and_eq_true_iff.mpr ⟨stall, wf⟩
  refine ⟨fun j b src => ⟨fun read => ?_, fun lost => ?_⟩, fun id h src => ⟨fun read => ?_, fun lost => ?_⟩, fun src => ?_⟩
  · have ends := tileBoundary_barrow_read runs work next more src read
    exact works_work row up units ends
  · have ends := tileBoundary_barrow_lost runs work next more src lost
    exact works_work row up units ends
  · have ends := tileBoundary_crate_read runs work next more src read
    exact works_work row up units ends
  · have ends := tileBoundary_crate_lost runs work next more src lost
    exact works_work row up units ends
  · have ends := tileBoundary_awaitSwap (o := o) runs work next more src
    exact works_work row up units ends

/-! Runs that end (R126, R149). -/

theorem runComplete_hands {k : Nat} {s : State} {x : Ctx} {w : Work} (ended : (residents s k).find? (fun x => x.done) = some x)
    (work : x.work = some w) : runComplete k s = schedule k (nextRun k x (each w.runs (deliverRun w.cmd) s)) := by
  simp only [runComplete, ended, work]

theorem runCompletes : RunCompletes := fun _ _ _ _ up stall ended work =>
  works_work rfl up stall (runComplete_hands ended work)

/-! Saves and restores (R163, R165, R169). -/

/-- A save counts by its reason: on its stall, and as a swap or a preemption in the till of its class. -/
def countSave (k : Nat) (x : Ctx) (s : State) : State :=
  let preempted := fun (t : Till) => { t with preempts := (t.preempts + 1) % 2 ^ 32 }
  match x.why with
  | .preempt => onTill x.pitch x.cls preempted (bump .stallCtxStatSavesPreempt k 1 s)
  | .handover => onTill x.pitch x.cls preempted (bump .stallCtxStatSavesHandover k 1 s)
  | .blocked => onTill x.pitch x.cls (fun t => { t with swaps := (t.swaps + 1) % 2 ^ 32 }) (bump .stallCtxStatSavesBlocked k 1 s)

section
variable {id k : Nat} {s : State} {x : Ctx} (named : ctxOf s id = some x)
include named

theorem contextSaved_saves (place : x.place = .saving k) :
    contextSaved id s = scheduleAll (countSave k x
      (countSaveTime x (onCtx id (fun y => { y with place := .saved k, savedOrder := s.order }) (ordered s)))) := by
  simp only [contextSaved, named, place, countSave]
  cases x.why <;> simp only [reduceCtorEq, if_true, if_false]

theorem contextRestored_readable (place : x.place = .restoring k) :
    let u := bump .stallCtxStatRestores k 1 (onCtx id (fun y => { y with place := .resident k }) (countSaveTime x s))
    contextRestored id true s = scheduleAll (if (stallAt u k).cls = x.cls then u else startSave k .handover id u) := by
  simp only [contextRestored, named, place, if_true]

theorem contextRestored_unreadable (place : x.place = .restoring k) :
    contextRestored id false s
      = scheduleAll (restartRuns x (report srcHall .saveRecord sevContained (some x.pitch) (countSaveTime x s))) := by
  simp only [contextRestored, named, place, Bool.false_eq_true, if_false]

end

theorem contextMovesComplete : ContextMovesComplete := by
  refine ⟨fun id s x k up named place => ?_, fun id s x k up named place => ⟨?_, ?_⟩⟩
  · have saves := contextSaved_saves named place
    refine ⟨fun why => ?_, fun why => ?_, fun why => ?_⟩ <;>
      exact works_work rfl up rfl (saves.trans (by simp only [countSave, why]))
  · exact works_work rfl up rfl (contextRestored_readable named place)
  · exact works_work rfl up rfl (contextRestored_unreadable named place)

/-! The timetable, and a stall that fails (R155 to R157, R160, R169). -/

theorem slotBoundary_enters {s : State} {t : TtSlot} (slot : (ttTable s)[rd s .hallTtStatusSlot 0]? = some t) :
    let k := rd s .hallTtStatusSlot 0
    let at_ := s.slotStart + 10000 * t.duration
    let u := { reach at_ s with slotStart := at_ }
    slotBoundary s = enterSlot (if k + 1 < (ttTable s).length then wr .hallTtStatusSlot 0 (k + 1) u
      else wr .hallTtStatusSlot 0 0 (endCycle at_ u)) := by
  intro k at_ u
  have sameTable : ttTable u = ttTable s := rfl
  rw [apply_ite enterSlot, ← sameTable]
  simp only [slotBoundary, slot, k, u, at_]

theorem slotBoundaryCompletes : SlotBoundaryCompletes := fun _ _ up slot =>
  works_work rfl up rfl (slotBoundary_enters slot)

section
variable {k id d : Nat} {s : State} (first : leastBy (fun g => g.2) (stallAt s k).grace = some (id, d))
include first

theorem graceExpiry_stops {x : Ctx} :
    let u := onStall k (fun x => { x with grace := drop (fun g => g.1 == id) x.grace }) (reach d s)
    ctxOf u id = some x → x.place = .resident k → x.done = false → graceExpiry k s = schedule k (stopCtx k .handover id u) := by
  intro u named place more
  simp only [graceExpiry, first, named, u, place, more, and_self, if_true]

theorem graceExpiry_passes :
    let u := onStall k (fun x => { x with grace := drop (fun g => g.1 == id) x.grace }) (reach d s)
    (∀ x, ctxOf u id = some x → x.place = .resident k → x.done = true) → graceExpiry k s = u := by
  intro u gone
  simp only [graceExpiry, first]
  split
  next x named => exact if_neg fun ⟨place, more⟩ => Bool.false_ne_true (more.symm.trans (gone x named place))
  next => rfl

end

theorem graceExpiryCompletes : GraceExpiryCompletes := fun _ _ _ _ up stall first =>
  ⟨fun _ named place more => works_work rfl up stall (graceExpiry_stops first named place more),
    fun gone => works_work rfl up stall (graceExpiry_passes first gone)⟩

theorem stallFail_retires {k : Nat} {s : State} (working : stallRetired s k = false) :
    let s1 := report (srcStall k) .stallFailed sevDegraded (some (stallPitch s k)) s
    let s2 := wr .hallStallRetiredRetired 0 (rd s1 .hallStallRetiredRetired 0 ||| 2 ^ k) s1
    let s3 := onStall k (fun _ => Stall.idle) s2
    let s4 := each (s3.ctxs.filter (fun x => x.place == .resident k || x.place == .saving k)) restartRuns s3
    let s5 := { s4 with ctxs := s4.ctxs.map (fun x => if x.place = .restoring k then { x with place := .saved k } else x) }
    let s6 := each (stallAt s2 k).queue placeWork s5
    stallFail k s = scheduleAll (sayStarved ((starvedClasses s6).filter (fun x => !((starvedClasses s).contains x))) s6) := by
  simp only [stallFail, working, Bool.false_eq_true, if_false]

theorem stallFailCompletes : StallFailCompletes := fun _ _ up stall working =>
  works_work rfl up stall (stallFail_retires working)

/-- Settles O14: each event by the equation of its effect. -/
theorem stallEventsComplete : Obligations.StallEventsComplete :=
  ⟨tileBoundaryCompletes, runCompletes, contextMovesComplete, slotBoundaryCompletes, graceExpiryCompletes, stallFailCompletes⟩

end Sys2Proof.Machine
end

section
/-! PROOFS. Dispatch: the order of a stall's queue, and the buckets of the queue wait (R145, R172). -/
namespace Sys2Proof.Machine

open Sys2Proof.Claims

/-! The queue of a stall (R145). -/

/-- The keys compare as R145 orders the runs, priorities falling and the rest rising. -/
theorem lexLt_workKey {a b : Work} (ha : a.prio ≤ 15) (hb : b.prio ≤ 15) :
    lexLt (workKey a) (workKey b) = true ↔ b.prio < a.prio ∨ (a.prio = b.prio ∧ (a.order < b.order ∨ (a.order = b.order
      ∧ (a.entry < b.entry ∨ (a.entry = b.entry ∧ a.first < b.first))))) := by
  simp only [workKey, lexLt, Bool.and_false, Bool.or_false, Bool.or_eq_true, Bool.and_eq_true, decide_eq_true_eq, beq_iff_eq]
  omega

theorem runBefore_of_lexLt {a b : Work} (ha : a.prio ≤ 15) (hb : b.prio ≤ 15) (h : lexLt (workKey a) (workKey b) = true) :
    runBefore a b := by
  have key := (lexLt_workKey ha hb).mp h
  unfold runBefore
  omega

theorem runBefore_of_not_lexLt {a b : Work} (ha : a.prio ≤ 15) (hb : b.prio ≤ 15) (h : ¬ lexLt (workKey a) (workKey b) = true) :
    runBefore b a := by
  have key := mt (lexLt_workKey ha hb).mpr h
  unfold runBefore
  omega

theorem runBefore_trans {a b c : Work} (h : runBefore a b) (k : runBefore b c) : runBefore a c := by
  unfold runBefore at *
  omega

/-- Inserting a run loses none and adds only that run. -/
theorem insertWork_perm (w : Work) (l : List Work) : (insertWork w l).Perm (w :: l) := by
  induction l with
  | nil => exact .refl _
  | cons x t ih =>
    rw [insertWork]
    split
    · exact .refl _
    · exact (ih.cons x).trans (.swap w x t)

/-- A queue in the order of R145 takes a run in its place. -/
theorem insertWork_ordered (w : Work) (l : List Work) (prio : ∀ x ∈ w :: l, x.prio ≤ 15) (sorted : l.Pairwise runBefore) :
    (insertWork w l).Pairwise runBefore := by
  induction l with
  | nil => exact List.pairwise_singleton ..
  | cons x t ih =>
    obtain ⟨hw, hx, ht⟩ : w.prio ≤ 15 ∧ x.prio ≤ 15 ∧ ∀ y ∈ t, y.prio ≤ 15 := by simpa using prio
    obtain ⟨first, rest⟩ := List.pairwise_cons.mp sorted
    rw [insertWork]
    split
    next less =>
      have ahead := runBefore_of_lexLt hw hx less
      exact .cons (List.forall_mem_cons.mpr ⟨ahead, fun y hy => runBefore_trans ahead (first y hy)⟩) sorted
    next notLess =>
      have behind := runBefore_of_not_lexLt hw hx notLess
      refine .cons (fun y hy => ?_) (ih (List.forall_mem_cons.mpr ⟨hw, ht⟩) rest)
      rcases List.mem_cons.mp ((insertWork_perm w t).mem_iff.mp hy) with rfl | old
      · exact behind
      · exact first y old

/-- Settles O49: a run goes in before the first that it comes before, and the rest of the queue stays as it is. -/
theorem runsQueueInOrder : Obligations.RunsQueueInOrder := ⟨insertWork_ordered, insertWork_perm⟩

/-! The histogram of the queue wait (R172). -/

/-- From 1 µs on the bucket goes by the binary logarithm of the whole microseconds. -/
theorem waitBucket_log2 {ns : Nat} (h : 1000 ≤ ns) : waitBucket ns = min 15 (Nat.log2 (ns / 1000) + 1) :=
  if_neg (Nat.not_lt.mpr h)

theorem waitBucket_between {ns j : Nat} (hj : j < 14) (low : 1000 * 2 ^ j ≤ ns) (high : ns < 1000 * 2 ^ (j + 1)) :
    waitBucket ns = j + 1 := by
  have pos := Nat.two_pow_pos j
  have log : Nat.log2 (ns / 1000) = j := (Nat.log2_eq_iff (by omega)).mpr (by omega)
  rw [waitBucket_log2 (by omega), log]
  omega

theorem waitBucket_last {ns : Nat} (h : 1000 * 16384 ≤ ns) : waitBucket ns = 15 := by
  have log : 14 ≤ Nat.log2 (ns / 1000) := (Nat.le_log2 (by omega)).mpr (by omega)
  rw [waitBucket_log2 (by omega)]
  omega

/-- Settles O43: the microseconds of bucket k are those whose binary logarithm is k - 1. -/
theorem waitBuckets : Obligations.WaitBuckets := by
  refine fun ns => ⟨fun short => if_pos short, fun k hk hk' low high => ?_, waitBucket_last⟩
  obtain ⟨j, rfl⟩ := Nat.exists_eq_add_of_le' hk
  exact waitBucket_between (by omega) low high

end Sys2Proof.Machine
end

section
/-! PROOFS. Dispatch: the commands of the device, and an entry of no opcode (R160, R393, R427, R439, R490, R491, R494, R551). -/
namespace Sys2Proof.Machine

open Sys2Proof.Claims

/-! TIMETABLE_SELECT, SHAPER_SET and FULL_RESET (R160, R393, R551). -/

theorem opTimetableSelect_ok {c : Cmd} (table : fieldOf c.entry 0x10 1 ≤ 1) (zero : zeroAt c.entry 0x11 47 = true) (s : State) :
    opTimetableSelect c s = startedCmd c.id (wr .hallTtStatusPending 0 1 (wr .hallTtStatusPendingTable 0 (fieldOf c.entry 0x10 1)
      { s with ttWaiters := s.ttWaiters ++ [(c.id, s.localTime, fieldOf c.entry 0x10 1)] })) :=
  if_neg (by simp [zero, table])

/-- A bound of every member and of the start is one of their minimum. -/
theorem le_foldl_min {r a : Nat} {l : List Nat} (ha : r ≤ a) (hl : ∀ x ∈ l, r ≤ x) : r ≤ l.foldl min a :=
  List.foldlRecOn l min ha fun _ below x hx => Nat.le_min.mpr ⟨below, hl x hx⟩

theorem opShaperSet_ok {c : Cmd} {s : State} :
    let ports := portsOf (fieldOf c.entry 0x10 1)
    let q := fieldOf c.entry 0x11 1
    let rate := fieldOf c.entry 0x14 4
    let burst := fieldOf c.entry 0x18 4
    ports ≠ [] → q ≤ 31 → zeroAt c.entry 0x12 2 = true → zeroAt c.entry 0x1C 36 = true →
    (∀ p ∈ ports, rd s .fabPortCfgSpeed p ≠ 0 ∧ rate ≤ speedMbps (rd s .fabPortCfgSpeed p)) → rate ≤ 4294967296 →
    (rate = 0 ∨ (9216 ≤ burst ∧ burst ≤ 16777216)) →
    opShaperSet c s = complete c.id .ok 0 (each ports (setShaper q rate burst) s) := by
  intro ports q rate burst some_ queue zero zero' fits most bounded
  have slow : rate ≤ (ports.map (fun p => speedMbps (rd s .fabPortCfgSpeed p))).foldl min 4294967296 :=
    le_foldl_min most (List.forall_mem_map.mpr fun p hp => (fits p hp).2)
  have set_ : ports.any (fun p => rd s .fabPortCfgSpeed p == 0) = false :=
    List.any_eq_false.mpr fun p hp => by simpa using (fits p hp).1
  have burstOk : (rate != 0 && (decide (burst < 9216) || decide (16777216 < burst))) = false := by
    rcases bounded with none_ | ⟨low, high⟩
    · simp [none_]
    · simp [low, high]
  refine if_neg (Bool.eq_false_iff.mp ?_)
  simp only [Bool.or_eq_false_iff, Bool.not_eq_false', decide_eq_false_iff_not, Nat.not_lt, List.isEmpty_eq_false_iff]
  exact ⟨⟨⟨⟨⟨⟨some_, queue⟩, zero⟩, zero'⟩, set_⟩, slow⟩, burstOk⟩

theorem opFullReset_ok {c : Cmd} (magic : fieldOf c.entry 0x10 4 = 0x4C595253) (zero : zeroAt c.entry 0x14 44 = true) (s : State) :
    opFullReset c s = fullReset causeCommand s :=
  if_neg (by simp [magic, zero])

/-! ATTEST (R489 to R495). -/

/-- An ATTEST that passes its checks is served unless it is held. -/
theorem opAttest_checked {c : Cmd} {s : State} (ok : attestOk s c = true)
    (own : ringPitch s c.ring = none ∨ ringPitch s c.ring = some (fieldOf c.entry 0x11 1)) :
    opAttest c s = if attestHeld s c then
        startedCmd c.id { s with attestWait := if s.attestWait.contains c.id then s.attestWait else s.attestWait ++ [c.id] }
      else attestServe c s := by
  rcases own with own | own <;> simp [opAttest, ok, own]

section
variable {c : Cmd} {s u : State} {pl : AttestPlace} (taken : u = { s with attestWait := s.attestWait.erase c.id })
  (out : attestOut u c = .val pl)
include taken out

theorem attestServe_quote (kind : fieldOf c.entry 0x10 1 = 0) : attestServe c s = quote c pl u := by
  subst taken
  simp only [attestServe, out, kind, Got.bind, gotElse]

theorem attestServe_provision {m : Bytes} (kind : fieldOf c.entry 0x10 1 = 1) (message : attestIn u c = .val m) :
    attestServe c s = provision c (fieldOf c.entry 0x11 1) pl m u := by
  subst taken
  simp only [attestServe, out, kind, message, Got.bind, gotElse]

theorem attestServe_chain (kind : fieldOf c.entry 0x10 1 = 2) : attestServe c s = chain c pl u := by
  subst taken
  simp only [attestServe, out, kind, Got.bind, gotElse]

end

/-- An ATTEST that starts is held, or served by its kind. -/
theorem attest_runs {r : Nat} {e : Entry} {s t : State} {c : Cmd} (starts : started .attest r e s = some (c, t))
    (ok : attestOk t c = true) (own : ringPitch t c.ring = none ∨ ringPitch t c.ring = some (fieldOf c.entry 0x11 1)) :
    (attestHeld t c = false → ∀ u, attestServe c t = u → Works (.attest r e) s u)
    ∧ (attestHeld t c = true → Works (.attest r e) s (startedCmd c.id
        { t with attestWait := if t.attestWait.contains c.id then t.attestWait else t.attestWait ++ [c.id] })) := by
  have runs : runOp c t = _ := (show runOp c t = opAttest c t by rw [runOp, (started_cmd starts).1]).trans (opAttest_checked ok own)
  refine ⟨fun free u served => ?_, fun held => ?_⟩
  · exact works_of_runOp starts (runs.trans ((if_neg (by simp [free])).trans served))
  · exact works_of_runOp starts (runs.trans (if_pos held))

theorem deviceCommandsRun : DeviceCommandsRun := by
  refine ⟨?_, ?_, ?_, ?_⟩
  · intro r e s c t starts table zero
    exact works_of_runOp starts (.trans (by rw [runOp, (started_cmd starts).1]) (opTimetableSelect_ok table zero t))
  · intro r e s c t starts ports q rate burst some_ queue zero zero' fits most bounded
    exact works_of_runOp starts (.trans (by rw [runOp, (started_cmd starts).1])
      (opShaperSet_ok some_ queue zero zero' fits most bounded))
  · intro r e s c t starts ok own u
    obtain ⟨served, held⟩ := attest_runs starts ok own
    exact ⟨fun free kind pl out => served free _ (attestServe_quote rfl out kind),
      fun free kind pl m out message => served free _ (attestServe_provision rfl out kind message),
      fun free kind pl out => served free _ (attestServe_chain rfl out kind), held⟩
  · intro r e s c t starts magic zero
    exact works_of_runOp starts (.trans (by rw [runOp, (started_cmd starts).1]) (opFullReset_ok magic zero t))

/-! The ends of an ATTEST that is held and of a session key (R491, R494). -/

theorem attestBusy_ends {id : Nat} {s : State} {c : Cmd} (listed : cmdOf s id = some c) (waits : s.attestWait.contains id = true)
    (behind : (s.live.active = true ∧ s.live.copied = true) ∨ attestBehind s c = true) :
    attestBusy id s = complete id .busy 0 (reach (c.at_ + 50000000) { s with attestWait := s.attestWait.erase id }) := by
  have held : ((s.live.active && s.live.copied) || attestBehind s c) = true := by simpa using behind
  simp only [attestBusy, listed]
  exact if_neg (by simp only [waits, held]; decide)

theorem sessionExpires_ends {scope : Nat} {s : State} {k : Session} (live : s.sessions.find? (fun k => k.scope == scope) = some k) :
    sessionExpires scope s
      = reach (k.bornAt + 60000000000) { s with sessions := drop (fun x => x.scope == scope) s.sessions } := by
  simp only [sessionExpires, live]

theorem attestTimeoutCompletes : AttestTimeoutCompletes := by
  refine ⟨fun id s c up listed waits behind => ?_, fun scope s k up live => ?_⟩
  · exact works_work rfl up rfl (attestBusy_ends listed waits behind)
  · have row : exec (.sessionKeyExpiry scope) s = .next (keepQueue s (sessionExpires scope s)) := due_up up rfl
    rw [Gives, row, sessionExpires_ends live]

/-! An entry of no opcode (R427, R439). -/

/-- An entry of no opcode that is fetched fails its first check. -/
theorem fetchEntry_none {r fn : Nat} {e : Entry} {s : State} {a : Accepted} {rest : List Accepted} (ring : ringFn s r = some fn)
    (queue : (ringOf s r).accepted = a :: rest) (fetch : mayFetch s r = true) (there : entryThere s r a.slot e = true) :
    let c := cmdOfEntry s none r fn a e
    fetchEntry none r e s = failWord c.id .badOpcode (startedCmd c.id
      (onRing r (fun x => { x with accepted := rest }) { s with cmds := s.cmds ++ [c] })) := by
  simp only [fetchEntry, ring, queue, fetch, there, Bool.not_true, Bool.or_self, Bool.false_eq_true, if_false, headerCheck]
  rfl

theorem badOpcodeCompletes : BadOpcodeCompletes := by
  intro r e s fn a rest up ok ring queue fetch e' there c
  exact works_work rfl up ok (fetchEntry_none ring queue fetch there)

/-- Settles O10: each command by the equation of its operation, each timer by that of its effect. -/
theorem deviceCommandsComplete : Obligations.DeviceCommandsComplete :=
  ⟨deviceCommandsRun, attestTimeoutCompletes, badOpcodeCompletes⟩

end Sys2Proof.Machine
end

section
/-! PROOFS. Dispatch: event rings, tills and register accesses (R173, R589, R613 to R628). -/
namespace Sys2Proof.Machine

open Sys2Proof.Claims

/-! Event rings (R589, R625). -/

/-- Bit 0 of a written word is the one that the row has. -/
theorem bit0_withBit0 (b : Bool) (v : Nat) : bit0 0 (withBit0 (b2n b) v) = some b := by
  cases b <;> simp [bit0, bit, withBit0, b2n]

theorem evtCfgWrite_writable {fn v : Nat} {s : State} (host : hostAnswers s = true) (may : writable s fn = true) :
    evtCfgWrite fn v s = evtCfgBits fn 0 64 v s :=
  if_pos (by simp [host, may])

theorem evtCfgBits_starts {fn v : Nat} {s : State} (off : on s .errEvtCfgEnable fn = false) :
    evtCfgBits fn 0 64 (withBit0 1 v) s = evtStart fn (storeFields .errEvtCfg fn 0 64 (withBit0 1 v) s) := by
  simp [evtCfgBits, off, show bit0 0 (withBit0 1 v) = some true from bit0_withBit0 true v]

theorem evtCfgBits_stops {fn v : Nat} {s : State} (enabled : on s .errEvtCfgEnable fn = true) :
    evtCfgBits fn 0 64 (withBit0 0 v) s = storeFields .errEvtCfg fn 0 64 (withBit0 0 v) s := by
  simp [evtCfgBits, enabled, show bit0 0 (withBit0 0 v) = some false from bit0_withBit0 false v]

/-! Tills (R173). -/

theorem tillWrite_allowed {fn p : Nat} {snap clear : Bool} {s : State} (may : tillAllowed s fn p = true) :
    tillWrite fn p snap clear s = tillDo snap clear p s := if_pos may

theorem eventRingsAndTillsComplete : EventRingsAndTillsComplete := by
  refine ⟨fun fn v s fnThere host may => ?_, fun fn p s fnThere pitch host may => ?_⟩
  · have row (w : Nat) : always (fnOk fn) s (evtCfgWrite fn w) = .next (keepQueue s (evtCfgBits fn 0 64 w s)) := by
      rw [always_ok fnThere, evtCfgWrite_writable host may]
    have enables : Gives (.evtRingEnable fn v) s (evtCfgBits fn 0 64 (withBit0 1 v) s) := row _
    have disables : Gives (.evtRingDisable fn v) s (evtCfgBits fn 0 64 (withBit0 0 v) s) := row _
    exact ⟨enables, disables, fun off => evtCfgBits_starts off ▸ enables, fun enabled => evtCfgBits_stops enabled ▸ disables⟩
  · have row (snap clear : Bool) : inHold (fnOk fn && pitchOk p) s (tillWrite fn p snap clear)
        = .next (keepQueue s (settle (tillDo snap clear p s))) := by
      rw [inHold_up host (Bool.and_eq_true_iff.mpr ⟨fnThere, pitch⟩), tillWrite_allowed may]
    exact ⟨row true false, row false true, row true true⟩

/-! Register accesses (R613 to R616, R621 to R628). -/

/-- A write of a function goes to BAR0 below the base of BAR2, and to BAR2 from there on. -/
theorem registerWrite_bar0 {fn off size v : Nat} {s : State} (host : hostAnswers s = true) (low : off < bar2) :
    registerWrite fn off size v s = writeBar0 fn off (min size accessMax) v (wakeFor off s) := by
  simp [registerWrite, host, Nat.not_le.mpr low]

theorem registerWrite_bar2 {fn off size v : Nat} {s : State} (host : hostAnswers s = true) :
    registerWrite fn (bar2 + off) size v s = writeBar2 fn off (min size accessMax) v s := by
  simp [registerWrite, host]

/-- A read of a function is answered once it may complete, and held until then (R624, R626). -/
theorem registerRead_fn {fn off size : Nat} {s : State} (host : hostAnswers s = true) :
    let u := wakeFor off s
    registerRead (.fn fn) off size s = if mayAnswer u off then completeRead fn off (min size accessMax) u
      else { u with readsHeld := u.readsHeld ++ [(fn, off, min size accessMax)] } := by
  simp [registerRead, host]

theorem completeRead_bar0 {fn off n : Nat} {s : State} (low : off < bar2) :
    let r := readBar0 (.fn fn) off n s
    completeRead fn off n s = { freshen (freshen (freshen r.2)) with answers := r.2.answers ++ [(.fn fn, off, r.1)] } := by
  simp only [completeRead, Nat.not_le.mpr low, if_false]

theorem completeRead_bar2 {fn off n : Nat} {s : State} (high : bar2 ≤ off) :
    let r := readBar2 fn (off - bar2) n s
    completeRead fn off n s = { freshen (freshen (freshen r.2)) with answers := r.2.answers ++ [(.fn fn, off, r.1)] } := by
  simp only [completeRead, high, if_true]

theorem registerRead_sideband {off size : Nat} {s : State} (vaux : s.power.vauxOk = true) :
    let r := readBar0 .sideband off (min size accessMax) s
    registerRead .sideband off size s
      = { freshen (freshen (freshen r.2)) with answers := r.2.answers ++ [(.sideband, off, r.1)] } :=
  if_neg (by simp [vaux])

/-- The words of a sideband read, and the state after them: one word after the other, each from the state that the one before
leaves. -/
def sidebandWords (off n : Nat) (s : State) : Bytes × State :=
  (List.range n).foldl (fun acc i =>
    (acc.1 ++ leBytes 8 (sidebandWord (off + 8 * i) acc.2).1, freshen (sidebandWord (off + 8 * i) acc.2).2)) ([], s)

theorem sidebandRead_words {off len : Nat} {s : State} (vaux : s.power.vauxOk = true) (low : 8 ≤ len) (high : len ≤ 64)
    (whole : len % 8 = 0) :
    sidebandRead off len s = answerSideband (.registers (sidebandWords off (len / 8) s).1) (sidebandWords off (len / 8) s).2 :=
  (if_neg (by simp [vaux])).trans (if_neg (by omega))

theorem sidebandRead_nothing {off len : Nat} {s : State} (vaux : s.power.vauxOk = true) (bad : len = 0 ∨ 64 < len ∨ len % 8 ≠ 0) :
    sidebandRead off len s = answerSideband (.registers []) s :=
  (if_neg (by simp [vaux])).trans (if_pos (by omega))

/-- What a row answers that acts in every phase and after which the block settles. -/
theorem works_workAlways {c : Instr} {s u : State} {ok : Bool} {f : State → State} (row : exec c s = workAlways ok s f)
    (ok' : ok = true) (effect : f s = u) : Works c s u := by
  rw [Works, row, workAlways_ok ok', effect]

theorem registerAccessCompletes : RegisterAccessCompletes := by
  refine ⟨fun fn off size v s fnThere host => ⟨fun low => ?_, ?_⟩, fun fn off size s fnThere host => ?_, fun off size s vaux => ?_,
    fun off len s vaux => ⟨fun low high whole => ?_, fun bad => ?_⟩⟩
  · exact works_workAlways rfl fnThere (registerWrite_bar0 host low)
  · exact works_workAlways rfl fnThere (registerWrite_bar2 host)
  · intro n u
    have row {t : State} (effect : registerRead (.fn fn) off size s = t) : Gives (.registerRead (.fn fn) off size) s t := by
      rw [← effect]
      exact always_ok fnThere
    refine ⟨fun may low => ?_, fun may high => ?_, fun held => ?_⟩
    · have answered : completeRead fn off n u = _ := completeRead_bar0 low
      exact row (((registerRead_fn host).trans (if_pos may)).trans answered)
    · have answered : completeRead fn off n u = _ := completeRead_bar2 high
      exact row (((registerRead_fn host).trans (if_pos may)).trans answered)
    · exact row ((registerRead_fn host).trans (if_neg (Bool.eq_false_iff.mp held)))
  · exact gives_always rfl (registerRead_sideband vaux)
  · exact gives_always rfl (sidebandRead_words vaux low high whole)
  · exact gives_always rfl (sidebandRead_nothing vaux bad)

/-- Settles O33: the rows of event rings and tills, and those of register accesses, each by the equation of its effect. -/
theorem registerRowsComplete : Obligations.RegisterRowsComplete := ⟨eventRingsAndTillsComplete, registerAccessCompletes⟩

end Sys2Proof.Machine
end

section
/-! PROOFS. Prefix store: PREFIX_LOOKUP, PREFIX_PUBLISH and PREFIX_DROP (R201, R202, R207, R212, R214, R220, R305, R346). -/
namespace Sys2Proof.Machine

open Sys2Proof.Claims

/-! Operands and outputs of these commands (R336, R346). -/

/-- Accesses in sequence do not depend on how they are grouped. -/
theorem Got.bind_assoc {α β γ : Type} (g : Got α) (f : α → Got β) (h : β → Got γ) :
    (g.bind f).bind h = g.bind (fun a => (f a).bind h) := by
  cases g <;> rfl

/-- An operand on a peer is found, its bytes lie there, and the command has a connection to ask on. -/
theorem operandOnPeer_inv {c : Cmd} {s : State} {n win off conn w o : Nat} (h : operandOnPeer c s n win off = some (conn, w, o)) :
    (∃ pl, locate s c.ring win off n false = .ok pl) ∧ (∃ len, readOperand s c win off n = .remote w o len)
      ∧ ringConn s c.ring = some conn := by
  unfold operandOnPeer at h
  split at h
  next pl w' o' len conn' place read link =>
    cases h
    exact ⟨⟨pl, place⟩, ⟨len, read⟩, link⟩
  next => contradiction

theorem readPlace_remote_length {s : State} {pl : Place} {len w o n : Nat} (h : readPlace s pl len = .remote w o n) : n = len := by
  cases pl with
  | host fn addr =>
    rw [readPlace] at h
    split at h <;> contradiction
  | dram p off =>
    rw [readPlace] at h
    split at h
    · contradiction
    · split at h <;> contradiction
  | hall addr => contradiction
  | peer conn window off => exact (Got.remote.inj h).2.2.symm

/-- What a command asks a peer for is the operand's own length. -/
theorem readOperand_remote_length {s : State} {c : Cmd} {win off len w o n : Nat}
    (h : readOperand s c win off len = .remote w o n) : n = len := by
  unfold readOperand at h
  split at h
  · contradiction
  · split at h
    · contradiction
    · split at h
      · contradiction
      · split at h
        · contradiction
        · exact readPlace_remote_length h

/-- A command whose operand lies on a peer asks for it and waits, whatever it would do with the bytes (R346). -/
theorem gotElse_onPeer {c : Cmd} {s : State} {n win off conn w o : Nat} (h : operandOnPeer c s n win off = some (conn, w, o))
    (fail : Status → State → State) (go : Bytes → Got State) :
    gotElse c fail ((readOperand s c win off n).bind go) s = asksPeer c conn w o n s := by
  obtain ⟨-, ⟨len, read⟩, link⟩ := operandOnPeer_inv h
  obtain rfl := readOperand_remote_length read
  simp only [read, Got.bind, gotElse, link]
  rfl

/-- A command whose operand is at hand goes on with its bytes. -/
theorem gotElse_read {c : Cmd} {s : State} {n win off : Nat} {bs : Bytes} (h : bodyRead c s n win off = some bs)
    (fail : Status → State → State) (go : Bytes → State) :
    gotElse c fail ((readOperand s c win off n).bind (fun bs => .val (go bs))) s = go bs := by
  simp only [(bodyRead_inv h).2, Got.bind, gotElse]

/-- The check of an output window that is left out or takes its bytes finds it. -/
theorem outputOk_found {c : Cmd} {s : State} {n win off : Nat} (h : outputOk c s n win off = true) :
    ∀ x ∈ (if win = 0 then [] else [locate s c.ring win off n true]), ∃ pl, x = .ok pl := by
  split
  next => exact fun _ hx => absurd hx List.not_mem_nil
  next used =>
    have taken := (Bool.or_eq_true ..).mp h |>.resolve_left (by simpa using used)
    exact List.forall_mem_singleton.mpr (found_iff.mp taken)

/-! PREFIX_LOOKUP (R201, R202, R207). -/

/-- A lookup of the keys over its token ids, once its result slot is released. -/
def startLookup (c : Cmd) (p : Nat) (bs : Bytes) (s : State) : State :=
  let n := fieldOf c.entry 0x1C 4
  let keys := keysFrom (fieldOf c.entry 0x10 8) (fieldOf c.entry 0x18 2) zeroKey 0 (chunks 1024 (n / 256) (bs.take (1024 * (n / 256))))
  let u := releaseSlot p (fieldOf c.entry 0x24 2) s
  let l : Lookup :=
    { cmd := c.id, keys := keys, pages := [], past := 0, shape := none, shardLost := false, tryEntry := none, tryCopies := [],
      ended := false }
  lookupOn c.id (startedCmd c.id { u with lookups := u.lookups ++ [l] })

/-- A new PREFIX_LOOKUP that passes its checks reads its token ids. -/
theorem opPrefixLookup_reads {c : Cmd} {s : State} {p : Nat} {pl : Place} (pitch : ringPitch s c.ring = some p)
    (new : lookupOf s c.id = none) (scope : scopeOf s p ≠ 0) (fields : lookupOk s p c.entry = true)
    (place : locate s c.ring (fieldOf c.entry 0x20 4) (fieldOf c.entry 0x28 6) (4 * fieldOf c.entry 0x1C 4) false = .ok pl)
    (output : outputOk c s 64 (fieldOf c.entry 0x30 4) (fieldOf c.entry 0x34 6) = true) :
    opPrefixLookup c s = gotElse c (lookupFails c.id)
      ((readOperand s c (fieldOf c.entry 0x20 4) (fieldOf c.entry 0x28 6) (4 * fieldOf c.entry 0x1C 4)).bind
        (fun bs => .val (startLookup c p bs s))) s := by
  unfold opPrefixLookup
  extract_lets e n win off copy checks
  rw [pitch, new]
  have found : worstCheck checks = none := worstCheck_found (List.forall_mem_cons.mpr ⟨⟨pl, place⟩, outputOk_found output⟩)
  refine (if_neg scope).trans ?_
  rw [found]
  exact if_neg (by simp [e, fields])

/-! PREFIX_PUBLISH (R211, R212, R214, R305). -/

/-- The token ids of a PREFIX_PUBLISH: none without TOKEN_WIN (R211). -/
def publishToks (c : Cmd) (s : State) : Got (Option Bytes) :=
  if fieldOf c.entry 0x1C 4 = 0 then .val none
  else (readOperand s c (fieldOf c.entry 0x1C 4) (fieldOf c.entry 0x20 6) (1024 * fieldOf c.entry 0x16 2)).bind (fun b => .val (some b))

/-- What a PREFIX_PUBLISH comes to with its token ids (R212, R214, R225). -/
def publishWith (c : Cmd) (p : Nat) (q : Seq) (s : State) (toks : Option Bytes) : State :=
  let first := bits (fieldOf c.entry 0x14 2) 0 13
  let n := fieldOf c.entry 0x16 2
  match publishKeys q first n toks with
  | none => complete c.id .badParam 0 s
  | some keys =>
    if q.st = .damaged then complete c.id .poison 0 s
    else if (q.st ≠ .active ∧ q.st ≠ .parked) ∨ (q.striped ∧ bit (fieldOf c.entry 0x18 1) 0 = false) then complete c.id .badState 0 s
    else startPublish c p q keys (recordBaseKeys p q first n toks s)

/-- The check of a TOKEN_WIN that is left out or found. -/
theorem tokenWindow_found {c : Cmd} {s : State}
    (h : fieldOf c.entry 0x1C 4 ≠ 0 →
      ∃ pl, locate s c.ring (fieldOf c.entry 0x1C 4) (fieldOf c.entry 0x20 6) (1024 * fieldOf c.entry 0x16 2) false = .ok pl) :
    ∀ x ∈ (if fieldOf c.entry 0x1C 4 = 0 then []
      else [locate s c.ring (fieldOf c.entry 0x1C 4) (fieldOf c.entry 0x20 6) (1024 * fieldOf c.entry 0x16 2) false]), ∃ pl, x = .ok pl := by
  split
  next => exact fun _ hx => absurd hx List.not_mem_nil
  next used => exact List.forall_mem_singleton.mpr (h used)

/-- A PREFIX_PUBLISH that passes its checks reads its token ids. -/
theorem opPrefixPublish_reads {c : Cmd} {s : State} {p : Nat} {q : Seq} (pitch : ringPitch s c.ring = some p)
    (scope : scopeOf s p ≠ 0) (fields : publishOk c.entry = true) (named : seqById s p (fieldOf c.entry 0x10 4) = some q)
    (input : fieldOf c.entry 0x1C 4 ≠ 0 →
      ∃ pl, locate s c.ring (fieldOf c.entry 0x1C 4) (fieldOf c.entry 0x20 6) (1024 * fieldOf c.entry 0x16 2) false = .ok pl)
    (output : outputOk c s (16 * fieldOf c.entry 0x16 2) (fieldOf c.entry 0x28 4) (fieldOf c.entry 0x30 6) = true) :
    opPrefixPublish c s = gotElse c (fun st s => complete c.id st 0 s)
      ((publishToks c s).bind (fun t => .val (publishWith c p q s t))) s := by
  unfold opPrefixPublish
  extract_lets e first n tw win checks toks
  rw [pitch]
  have found : worstCheck checks = none :=
    worstCheck_found (List.forall_mem_append.mpr ⟨tokenWindow_found input, outputOk_found output⟩)
  refine (if_neg scope).trans ?_
  rw [found]
  refine (if_neg (by simp [e, fields])).trans ?_
  rw [named]
  rfl

/-- The input of a PREFIX_PUBLISH that is at hand: its window is found, and its token ids are read. -/
theorem publishInput_inv {c : Cmd} {s : State} {toks : Option Bytes} (h : publishInput c s = some toks) :
    (fieldOf c.entry 0x1C 4 ≠ 0 →
      ∃ pl, locate s c.ring (fieldOf c.entry 0x1C 4) (fieldOf c.entry 0x20 6) (1024 * fieldOf c.entry 0x16 2) false = .ok pl)
      ∧ publishToks c s = .val toks := by
  unfold publishInput at h
  extract_lets tw at h
  split at h
  next without => exact ⟨fun used => absurd without used, (if_pos without).trans (congrArg Got.val (Option.some.inj h))⟩
  next used =>
    obtain ⟨bs, body, rfl⟩ := Option.map_eq_some_iff.mp h
    obtain ⟨place, read⟩ := bodyRead_inv body
    exact ⟨fun _ => place, (if_neg used).trans (by rw [read]; rfl)⟩

/-- A PREFIX_PUBLISH of a live sequence whose keys are settled takes its pages up. -/
theorem publishWith_starts {c : Cmd} {p : Nat} {q : Seq} {s : State} {toks : Option Bytes} {keys : List Bytes}
    (settled : publishKeys q (bits (fieldOf c.entry 0x14 2) 0 13) (fieldOf c.entry 0x16 2) toks = some keys)
    (live : q.st = .active ∨ q.st = .parked) (whole : q.striped = true → bit (fieldOf c.entry 0x18 1) 0 = true) :
    publishWith c p q s toks = startPublish c p q keys
      (recordBaseKeys p q (bits (fieldOf c.entry 0x14 2) 0 13) (fieldOf c.entry 0x16 2) toks s) := by
  have damaged : q.st ≠ .damaged := by rcases live with st | st <;> simp [st]
  have state : ¬ ((q.st ≠ .active ∧ q.st ≠ .parked) ∨ (q.striped = true ∧ bit (fieldOf c.entry 0x18 1) 0 = false)) := by
    rintro (⟨active, parked⟩ | ⟨striped, pages⟩)
    · exact live.elim active parked
    · exact absurd (whole striped) (by simp [pages])
  unfold publishWith
  extract_lets first n
  rw [settled]
  exact (if_neg damaged).trans (if_neg state)

/-! PREFIX_DROP (R207, R219, R220). -/

/-- The copies of the keys that a PREFIX_DROP reads are removed, one after the other. -/
def dropKeys (c : Cmd) (p n : Nat) (bs : Bytes) (s : State) : State :=
  dropEnd c.id (sweepAll (each ((chunks 16 n bs).zipIdx) (fun x => dropKey c.id p x.2 x.1)
    (startedCmd c.id { s with drops := s.drops ++ [{ cmd := c.id, waiting := [], status := .ok }] })))

/-- The checks of a PREFIX_DROP that names a result slot that there is, or 1 to 8,192 keys at a multiple of 16 (R219). -/
theorem dropChecks_pass {e : Entry} {slots : Nat} (kind : fieldOf e 0x10 1 ≤ 1) (fields : dropFieldsOk e = true)
    (slot : fieldOf e 0x10 1 = 1 → fieldOf e 0x12 2 < slots)
    (keys : fieldOf e 0x10 1 = 0 → 1 ≤ fieldOf e 0x14 4 ∧ fieldOf e 0x14 4 ≤ 8192 ∧ fieldOf e 0x20 6 % 16 = 0) :
    ¬ (1 < fieldOf e 0x10 1 ∨ (!(zeroAt e 0x11 1)) = true ∨ (!(zeroAt e 0x1C 4)) = true ∨ (!(zeroAt e 0x26 26)) = true
      ∨ (fieldOf e 0x10 1 = 1 ∧ slots ≤ fieldOf e 0x12 2)
      ∨ (fieldOf e 0x10 1 = 0 ∧ (fieldOf e 0x14 4 = 0 ∨ 8192 < fieldOf e 0x14 4 ∨ fieldOf e 0x20 6 % 16 ≠ 0))) := by
  simp only [dropFieldsOk, Bool.and_eq_true] at fields
  obtain ⟨⟨zero1, zero2⟩, zero3⟩ := fields
  simp only [zero1, zero2, zero3, Bool.not_true, Bool.false_eq_true, false_or]
  omega

/-- A PREFIX_DROP of a result slot releases it (R207, R220). -/
theorem opPrefixDrop_slot {c : Cmd} {s : State} {p : Nat} (pitch : ringPitch s c.ring = some p) (scope : scopeOf s p ≠ 0)
    (kind : fieldOf c.entry 0x10 1 = 1) (fields : dropFieldsOk c.entry = true)
    (slot : fieldOf c.entry 0x12 2 < rd s .pitchPrefixCfgResultSlots p) :
    opPrefixDrop c s = complete c.id .ok 0 (releaseSlot p (fieldOf c.entry 0x12 2) s) := by
  unfold opPrefixDrop
  extract_lets e kind' n win off check
  rw [pitch]
  have unread : kind' ≠ 0 := by simp [kind', e, kind]
  refine (if_neg scope).trans ?_
  rw [show check = none from if_neg unread]
  exact (if_neg (dropChecks_pass (by omega) fields (fun _ => slot) (fun keys => absurd keys unread))).trans (if_pos kind)

/-- A PREFIX_DROP of keys that passes its checks reads them (R219, R220). -/
theorem opPrefixDrop_reads {c : Cmd} {s : State} {p : Nat} {pl : Place} (pitch : ringPitch s c.ring = some p)
    (scope : scopeOf s p ≠ 0) (kind : fieldOf c.entry 0x10 1 = 0) (fields : dropFieldsOk c.entry = true)
    (some_ : 1 ≤ fieldOf c.entry 0x14 4) (most : fieldOf c.entry 0x14 4 ≤ 8192) (aligned : fieldOf c.entry 0x20 6 % 16 = 0)
    (place : locate s c.ring (fieldOf c.entry 0x18 4) (fieldOf c.entry 0x20 6) (16 * fieldOf c.entry 0x14 4) false = .ok pl) :
    opPrefixDrop c s = gotElse c (fun st s => complete c.id st 0 s)
      ((readOperand s c (fieldOf c.entry 0x18 4) (fieldOf c.entry 0x20 6) (16 * fieldOf c.entry 0x14 4)).bind
        (fun bs => .val (dropKeys c p (fieldOf c.entry 0x14 4) bs s))) s := by
  unfold opPrefixDrop
  extract_lets e kind' n win off check
  rw [pitch]
  have noSlot : kind' ≠ 1 := by simp [kind', e, kind]
  have found : check = none := (if_pos kind).trans (worstCheck_found (List.forall_mem_singleton.mpr ⟨pl, place⟩))
  refine (if_neg scope).trans ?_
  rw [found]
  exact (if_neg (dropChecks_pass (by omega) fields (fun slot => absurd slot noSlot) (fun _ => ⟨some_, most, aligned⟩))).trans
    (if_neg noSlot)

/-! The commands together. -/

theorem works_prefixLookup {r : Nat} {e : Entry} {s t u : State} {c : Cmd} (starts : started .prefixLookup r e s = some (c, t))
    (effect : opPrefixLookup c t = u) : Works (.prefixLookup r e) s u :=
  works_of_runOp starts (.trans (by rw [runOp, (started_cmd starts).1]) effect)

theorem works_prefixPublish {r : Nat} {e : Entry} {s t u : State} {c : Cmd} (starts : started .prefixPublish r e s = some (c, t))
    (effect : opPrefixPublish c t = u) : Works (.prefixPublish r e) s u :=
  works_of_runOp starts (.trans (by rw [runOp, (started_cmd starts).1]) effect)

theorem works_prefixDrop {r : Nat} {e : Entry} {s t u : State} {c : Cmd} (starts : started .prefixDrop r e s = some (c, t))
    (effect : opPrefixDrop c t = u) : Works (.prefixDrop r e) s u :=
  works_of_runOp starts (.trans (by rw [runOp, (started_cmd starts).1]) effect)

/-- Settles O8: each command passes its checks, and goes on with its operand or asks the peer for it. -/
theorem prefixCommandsComplete : Obligations.PrefixCommandsComplete := by
  refine ⟨?_, ?_, ?_, ?_, ?_, ?_, ?_⟩
  · intro r e s c t p bs starts pitch new scope fields n body output keys u l
    obtain ⟨pl, place⟩ := (bodyRead_inv body).1
    exact works_prefixLookup starts ((opPrefixLookup_reads pitch new scope fields place output).trans (gotElse_read body ..))
  · intro r e s c t p q toks keys starts pitch scope fields named input output first n settled live whole
    obtain ⟨place, read⟩ := publishInput_inv input
    have reads := opPrefixPublish_reads pitch scope fields named place output
    rw [read] at reads
    exact works_prefixPublish starts (reads.trans (publishWith_starts settled live whole))
  · intro r e s c t p starts pitch scope kind fields slot
    exact works_prefixDrop starts (opPrefixDrop_slot pitch scope kind fields slot)
  · intro r e s c t p bs starts pitch scope kind fields n some_ most aligned body
    obtain ⟨pl, place⟩ := (bodyRead_inv body).1
    exact works_prefixDrop starts
      ((opPrefixDrop_reads pitch scope kind fields some_ most aligned place).trans (gotElse_read body ..))
  · intro r e s c t p conn w off starts pitch new scope fields output onPeer
    obtain ⟨⟨pl, place⟩, -, -⟩ := operandOnPeer_inv onPeer
    exact works_prefixLookup starts ((opPrefixLookup_reads pitch new scope fields place output).trans (gotElse_onPeer onPeer ..))
  · intro r e s c t p q conn w off starts pitch scope fields named used output onPeer
    obtain ⟨place, -, -⟩ := operandOnPeer_inv onPeer
    have reads := opPrefixPublish_reads pitch scope fields named (fun _ => place) output
    rw [publishToks, if_neg used, Got.bind_assoc] at reads
    exact works_prefixPublish starts (reads.trans (gotElse_onPeer onPeer ..))
  · intro r e s c t p conn w off starts pitch scope kind fields n some_ most aligned onPeer
    obtain ⟨⟨pl, place⟩, -, -⟩ := operandOnPeer_inv onPeer
    exact works_prefixDrop starts
      ((opPrefixDrop_reads pitch scope kind fields some_ most aligned place).trans (gotElse_onPeer onPeer ..))

end Sys2Proof.Machine
end

section
/-! PROOFS. Prefix store: the messages of the stock book (R194, R195, R198, R199, R202, R214 to R217, R220, R223, R229). -/
namespace Sys2Proof.Machine

open Sys2Proof.Claims

/-- What a row answers that acts while the device runs and after which nothing settles. -/
theorem gives_due {c : Instr} {s u : State} {ok : Bool} {f : State → State} (row : exec c s = due ok s f) (up : Up s)
    (ok' : ok = true) (effect : f s = u) : Gives c s u := by
  rw [Gives, row, due_up up ok', effect]

/-! Probes (R194, R199, R202). -/

theorem stockProbe_found {q scope : Nat} {key : Bytes} {s : State} {e : StockEntry} (held : localEntry s scope key = some e) :
    stockProbe q (rd s .hallStockCfgEpoch 0) scope key s = tell q (.probeAnswer (some e)) s := by
  simp only [stockProbe, held, ne_eq, not_true_eq_false, if_false]

theorem stockProbe_missed {q scope : Nat} {key : Bytes} {s : State} (none_ : localEntry s scope key = none) :
    stockProbe q (rd s .hallStockCfgEpoch 0) scope key s = tell q (.probeAnswer none) s := by
  simp only [stockProbe, none_, ne_eq, not_true_eq_false, if_false]

theorem stockProbe_otherEpoch {q n scope : Nat} {key : Bytes} {s : State} (other : n ≠ rd s .hallStockCfgEpoch 0) :
    stockProbe q n scope key s = tell q (.probeAnswer none) (bump .hallStockStatEpochMiss 0 1 s) := if_pos other

/-- A probe is answered as its epoch and the entry that the device has say. -/
theorem stockProbeAnswered : StockProbeAnswered := by
  refine ⟨fun q scope key s e up peer held => ?_, fun q scope key s up peer none_ => ?_, fun q n scope key s up peer other => ?_⟩
  · exact gives_due rfl up peer (stockProbe_found held)
  · exact gives_due rfl up peer (stockProbe_missed none_)
  · exact gives_due rfl up peer (stockProbe_otherEpoch other)

/-! The home: inserts, drops and the durable mark (R195, R198, R215, R216, R220, R223). -/

theorem decideInsert_otherEpoch {n : Nat} {e : StockEntry} {k : Copy} {s : State} (other : n ≠ rd s .hallStockCfgEpoch 0) :
    decideInsert n e k s = (.busy, s) := if_pos other

theorem decideInsert_otherHome {e : StockEntry} {k : Copy} {s : State} (away : homeOf s e.key ≠ some (deviceId s)) :
    decideInsert (rd s .hallStockCfgEpoch 0) e k s = (.peerLost, s) := (if_neg (not_not.mpr rfl)).trans (if_pos away)

/-- The home of a key that it has no entry of: a new entry while its store has room (R215). -/
theorem decideInsert_new {e : StockEntry} {k : Copy} {s : State} (here : homeOf s e.key = some (deviceId s))
    (new : entryIn s.homes e.scope e.key = none) :
    decideInsert (rd s .hallStockCfgEpoch 0) e k s = if s.homes.length < s.plan.stockEntries then
        (.copyAdded, putHome { e with copies := [some k, none, none, none], pop := 0, hot := decide (rd s .hallStockCfgHotPop 0 = 0) } s)
      else (.noSpace, s) := by
  simp only [decideInsert, here, new, ne_eq, not_true_eq_false, if_false]

theorem stockDrop_sameEpoch {q scope d p : Nat} {key : Bytes} {s : State} :
    stockDrop q (rd s .hallStockCfgEpoch 0) scope key d p s = tell q (.dropAnswer false) (homeDrop scope key d p s) :=
  if_neg (not_not.mpr rfl)

theorem stockDrop_otherEpoch {q n scope d p : Nat} {key : Bytes} {s : State} (other : n ≠ rd s .hallStockCfgEpoch 0) :
    stockDrop q n scope key d p s = tell q (.dropAnswer true) s := if_pos other

theorem durableMarked_unknown {scope d p : Nat} {key : Bytes} {s : State} (none_ : entryIn s.homes scope key = none) :
    durableMarked scope key d p s = s := by
  simp only [durableMarked, markCopy, none_]

theorem durableMarked_entry {scope d p : Nat} {key : Bytes} {s : State} {e : StockEntry} (found : entryIn s.homes scope key = some e) :
    durableMarked scope key d p s = putHome { e with copies := e.copies.map (Option.map
      (fun x => if x.device = d ∧ x.pitch = p then { x with durable := true } else x)) } s := by
  have marks : (fun c : Option Copy => match c with
      | some x => if x.device = d ∧ x.pitch = p then some { x with durable := true } else some x
      | none => none) = Option.map (fun x => if x.device = d ∧ x.pitch = p then { x with durable := true } else x) := by
    funext c
    cases c with
    | none => rfl
    | some x => exact (apply_ite some ..).symm
  simp only [durableMarked, markCopy, found]
  exact congrArg (fun f => putHome { e with copies := e.copies.map f } s) marks

/-- What a home answers to an insert is what it decides. -/
theorem stockInsert_decided {q n : Nat} {e : StockEntry} {k : Copy} {s u : State} {a : InsertAnswer}
    (decided : decideInsert n e k s = (a, u)) : stockInsert q n e k s = tell q (.insertAnswer a) u := by
  rw [stockInsert, decided]

/-- Inserts, drops and the durable mark at the home, each by what it decides. -/
theorem homeEventsComplete : HomeEventsComplete := by
  refine ⟨fun q n e k s up peer => ?_, fun q scope key d p s up peer pitch => ?_, fun q n scope key d p s up peer pitch other => ?_,
    fun scope key d p s up pitch => ⟨fun none_ => ?_, fun e found => ?_⟩⟩
  · intro ends here
    have row {a : InsertAnswer} {u : State} (decided : decideInsert n e k s = (a, u)) : ends a u :=
      works_work rfl up peer (stockInsert_decided decided)
    refine ⟨fun other => row (decideInsert_otherEpoch other), ?_, ?_, ?_, fun _ x _ => row rfl⟩
    · rintro rfl away
      exact row (decideInsert_otherHome away)
    · rintro ⟨rfl, home⟩ new room
      exact row ((decideInsert_new home new).trans (if_pos room))
    · rintro ⟨rfl, home⟩ new full
      exact row ((decideInsert_new home new).trans (if_neg (Nat.not_lt.mpr full)))
  · exact works_work rfl up (Bool.and_eq_true_iff.mpr ⟨peer, pitch⟩) stockDrop_sameEpoch
  · exact works_work rfl up (Bool.and_eq_true_iff.mpr ⟨peer, pitch⟩) (stockDrop_otherEpoch other)
  · exact works_work rfl up pitch (durableMarked_unknown none_)
  · exact works_work rfl up pitch (durableMarked_entry found)

/-! The answers of a home (R195, R202, R214, R220). -/

/-- A lookup that awaits the entry of its page ends with an answer of none. -/
theorem probeAnswered_none {id : Nat} {s : State} {l : Lookup} (found : lookupOf s id = some l) (asks : l.tryEntry = none)
    (goes : l.ended = false) : probeAnswered id l.at_ none s = lookupEnd id s := by
  simp [probeAnswered, found, asks, goes]

/-- A lookup that awaits the entry of its page uses it, unless it is of another key. -/
theorem probeAnswered_entry {id : Nat} {s : State} {l : Lookup} (found : lookupOf s id = some l) (asks : l.tryEntry = none)
    (goes : l.ended = false) (e : StockEntry) :
    probeAnswered id l.at_ (some e) s = if some e.key ≠ l.keys[l.at_]? then lookupEnd id s
      else if (useEntry id e s).1 then lookupOn id (useEntry id e s).2 else (useEntry id e s).2 := by
  simp [probeAnswered, found, asks, goes]

theorem stockInsertAnswer_awaited {id : Nat} {a : InsertAnswer} {s : State}
    (awaited : s.pubs.any (fun r => r.id == id && (r.st == .sent || r.st == .retry)) = true) :
    stockInsertAnswer id a s = insertAnswered id a s := if_pos awaited

theorem insertRetry_due {id : Nat} {s : State} {r : PubRec} (waits : s.pubs.find? (fun r => r.id == id && r.st == .retry) = some r)
    (core : coreThere s 2 = true) :
    insertRetry id s =
      let u := reach r.retryAt s
      if r.since + 1000000000 * rd u .hallStockCfgOrphan 0 ≤ u.localTime then forgetRecord id u else sendInsert id u := by
  simp only [insertRetry, waits, core, Bool.true_eq_false, if_false]

/-- The answers that reach lookups, records and drops, and the retry of a record, each by the equation of its effect. -/
theorem stockAnswersComplete : StockAnswersComplete := by
  refine ⟨fun id s l up found asks goes => ⟨?_, fun e other => ?_, fun e key => ?_⟩, fun id a s up awaited => ?_,
    fun id i busy s up => ?_, fun id s r up waits core => ?_⟩
  · exact works_work rfl up rfl (probeAnswered_none found asks goes)
  · exact works_work rfl up rfl ((probeAnswered_entry found asks goes e).trans (if_pos other))
  · exact works_work rfl up rfl ((probeAnswered_entry found asks goes e).trans (if_neg (not_not.mpr key)))
  · exact works_work rfl up rfl (stockInsertAnswer_awaited awaited)
  · exact works_work (f := dropAnswered id i busy) rfl up rfl rfl
  · exact works_work rfl up rfl (insertRetry_due waits core)

/-! What an insert comes to at its publisher (R195, R198, R214 to R217, R229). -/

/-- The page of a record as its pitch's other copy has it, where that copy is here (R215). -/
def dedupPage (r : PubRec) (h : Copy) (s : State) : State :=
  match s.pubs.find? (fun x => x.id == h.record && x.pitch == h.pitch) with
  | some x => repoint r.seq r.page x.crates s
  | none => s

section
variable {id : Nat} {s : State} {r : PubRec} (found : s.pubs.find? (fun r => r.id == id) = some r)
include found

theorem insertAnswered_dedup (h : Copy) :
    let u := pageDone r.cmd r.page .ok false true nullHandle (dedupPage r h s)
    insertAnswered id (.dedup h) s
      = forgetRecord id (if r.cmd.isNone then u else bump .pitchPrefixPubPagesAdded r.pitch 1 u) := by
  simp only [insertAnswered, found]
  rfl

theorem insertAnswered_busy : insertAnswered id .busy s = if r.cmd.isNone then retryLater id s
    else forgetRecord id (pageDone r.cmd r.page .busy false false nullHandle s) := by
  simp only [insertAnswered, found]

/-- PEER_LOST is counted for a page of a publication, and not for a record that a replay sends anew (R229). -/
theorem insertAnswered_peerLost : insertAnswered id .peerLost s = if r.cmd.isNone then retryLater id s
    else forgetRecord id (bump .pitchPrefixPubPeerLost r.pitch 1 (pageDone r.cmd r.page .peerLost false false nullHandle s)) := by
  cases again : r.cmd.isNone <;> simp only [insertAnswered, found, again, Bool.false_eq_true, if_true, if_false]

end

/-- The record is found, and each answer has its own end; a record that a replay sends anew differs after BUSY and PEER_LOST. -/
theorem insertSettles : InsertSettles := by
  intro id s r found ends count
  refine ⟨?_, fun h => ?_, ?_, ?_, fun k w => ?_, fun again => ⟨?_, ?_⟩, fun first => ⟨?_, ?_⟩⟩
  · rw [insertAnswered, found]
  · exact insertAnswered_dedup found h
  · rw [insertAnswered, found]
  · rw [insertAnswered, found]
  · rw [insertAnswered, found]
  · exact (insertAnswered_busy found).trans (if_pos again)
  · exact (insertAnswered_peerLost found).trans (if_pos again)
  · exact (insertAnswered_busy found).trans (if_neg (ne_true_of_eq_false first))
  · exact (insertAnswered_peerLost found).trans (if_neg (ne_true_of_eq_false first))

/-- Settles O20: the messages of the stock book, where they arrive. -/
theorem stockEventsComplete : Obligations.StockEventsComplete :=
  ⟨stockProbeAnswered, homeEventsComplete, stockAnswersComplete, insertSettles⟩

end Sys2Proof.Machine
end

section
/-! PROOFS. Prefix store: replicas, POP and the reports of hits (R199, R200, R224). -/
namespace Sys2Proof.Machine

open Sys2Proof.Claims

/-- A replica or entry of this key. -/
def sameReplica (scope : Nat) (key : Bytes) (x : StockEntry × Nat) : Bool := x.1.scope == scope && x.1.key == key

/-! A pushed replica (R199). -/

section
variable {e : StockEntry} {s : State}

theorem replicaPushed_known (known : s.replicas.any (sameReplica e.scope e.key) = true) :
    replicaPushed e s = { s with replicas := upd (sameReplica e.scope e.key) (fun x => (e, x.2)) s.replicas } := if_pos known

variable (new : s.replicas.any (sameReplica e.scope e.key) = false)
include new

theorem replicaPushed_room (room : s.replicas.length < s.plan.replicaEntries) :
    replicaPushed e s = { s with replicas := s.replicas ++ [(e, 0)] } :=
  (if_neg (ne_true_of_eq_false new)).trans (if_pos room)

theorem replicaPushed_displaces {y : StockEntry × Nat} (full : s.plan.replicaEntries ≤ s.replicas.length)
    (least : leastBy (fun (x : StockEntry × Nat) => x.1.pop) s.replicas = some y) :
    replicaPushed e s = { s with replicas := drop (sameReplica y.1.scope y.1.key) s.replicas ++ [(e, 0)] } := by
  refine (if_neg (ne_true_of_eq_false new)).trans ((if_neg (Nat.not_lt.mpr full)).trans ?_)
  rw [least]
  rfl

end

/-! Reports of hits (R200, R224). -/

theorem hitReport_paused {s : State} (stage : stageOn s 1 = true) : hitReport none s = s := if_pos stage

/-- What this device has to report: the hits of its replicas, and those of pages that other devices answered for (R200). -/
def dueHits (s : State) : List (Nat × Bytes × Nat) :=
  (s.replicas.filter (fun x => decide (0 < x.2))).map (fun x => (x.1.scope, x.1.key, x.2)) ++ s.askedHits

/-- The peer that a hit is reported to: the home of its key, where a service connection reaches it (R200). -/
def hitHome (s : State) (x : Nat × Bytes × Nat) : Option Nat := (homeOf s x.2.1).bind (servicePeer s)

/-- A report that is not paused goes to the homes, and the counts start anew. -/
theorem hitReport_sent {s : State} (stage : stageOn s 1 = false) :
    let u := each (distinct ((dueHits s).filterMap (hitHome s)))
      (fun q u => tell q (.hits ((dueHits s).filter (fun x => hitHome s x == some q))) u) s
    hitReport none s = { u with replicas := u.replicas.map (fun x => (x.1, 0)), askedHits := [] } :=
  if_neg (ne_true_of_eq_false stage)

/-- Settles O21: pushes by what the store holds, reports by whose they are and the stage, and the other rows as they are defined. -/
theorem replicaEventsComplete : Obligations.ReplicaEventsComplete := by
  refine ⟨fun e s up => ⟨fun known => ?_, fun new room => ?_, fun y new full least => ?_⟩, fun scope key s up => ?_,
    fun l s up => ?_, fun s up stage => ?_, fun s up stage => ?_, fun s up => ?_⟩
  · exact gives_due rfl up rfl (replicaPushed_known known)
  · exact gives_due rfl up rfl (replicaPushed_room new room)
  · exact gives_due rfl up rfl (replicaPushed_displaces new full least)
  · exact gives_due (f := replicaWithdrawn scope key) rfl up rfl rfl
  · exact gives_due (f := hitReport (some l)) rfl up rfl rfl
  · exact gives_due rfl up rfl (hitReport_paused stage)
  · exact gives_due rfl up rfl (hitReport_sent stage)
  · exact gives_due (f := popHalving) rfl up rfl rfl

end Sys2Proof.Machine
end

section
/-! PROOFS. Prefix store: holds on records, and code tables of copies (R202, R203, R205, R209, R210, R223, R317). -/
namespace Sys2Proof.Machine

open Sys2Proof.Claims

/-! The holder (R203, R205, R209, R210, R223). -/

/-- The flash handles of a record's crates, of those that have a flash copy. -/
def flashHandles (s : State) (r : PubRec) : List Handle := r.crates.filterMap (fun id => (crateOf s id).bind (fun c => c.flash))

theorem holdRequested_noRecord {q p id : Nat} {s : State}
    (none_ : s.pubs.find? (fun r => r.id == id && r.pitch == p && r.durable) = none) :
    holdRequested q p id s = tell q (.holdAnswer none) s := by
  simp only [holdRequested, none_]

/-- A durable record is held where every crate of it has a flash copy (R203, R205). -/
theorem holdRequested_record {q p id : Nat} {s : State} {r : PubRec}
    (found : s.pubs.find? (fun r => r.id == id && r.pitch == p && r.durable) = some r) :
    holdRequested q p id s = if (flashHandles s r).length = r.crates.length then
        tell q (.holdAnswer (some ((flashHandles s r).map (fun h => { h with tier := 4 }))))
          { s with holds := s.holds ++ [{ peer := q, pitch := p, record := id, crates := r.crates }] }
      else tell q (.holdAnswer none) s := by
  simp only [holdRequested, found]
  rfl

theorem holdReleased_held {q p id : Nat} {s : State} {h : RemoteHold}
    (found : s.holds.find? (fun h => h.peer == q && h.pitch == p && h.record == id) = some h) :
    holdReleased q p id s = sweepAll { s with holds := s.holds.erase h } := by
  simp only [holdReleased, found]

theorem orphanRelease_unreachable {q : Nat} {s : State} (lost : (peerOf s q).reachable = false) :
    let u := reach ((peerOf s q).unreachableSince + 1000000000 * rd s .hallStockCfgOrphan 0) s
    let d := (peerPlan u q).map (fun r => r.deviceId)
    orphanRelease q s = sweepAll { u with
      holds := drop (fun h => h.peer == q) u.holds,
      pubs := drop (fun r => homeOf u r.key == d && (r.st == .standing || r.st == .retry)) u.pubs } :=
  if_neg (ne_true_of_eq_false lost)

/-! The requester (R202, R203, R205, R223). -/

/-- The handles that a holder has answered, as this device addresses them. -/
def heldHandles (given : Option (List Nat)) : List Handle := ((given.getD []).filterMap handleOf).map (fun h => { h with tier := 4 })

section
variable {id : Nat} {s : State} {l : Lookup} {e : StockEntry} {k : Copy} {rest : List Copy} {given : Option (List Nat)}
  (found : lookupOf s id = some l) (tries : l.tryEntry = some e) (copies : l.tryCopies = k :: rest)
include found tries copies

/-- A lookup that has asked for a hold takes the page with a handle for each layer, and else goes on without the copy. -/
theorem holdAnswered_asked :
    holdAnswered id l.at_ given s = if given.isSome = true ∧ (heldHandles given).length = e.shape.layers then
        lookupOn id (addPage id e k.device ((heldHandles given).map Ref.remote) { s with
          myHolds := s.myHolds ++ [{ device := k.device, pitch := k.pitch, record := k.record, handles := heldHandles given }] })
      else if rest.isEmpty then lookupEnd id (onLookup id (fun l => { l with tryEntry := none, tryCopies := [] })
        (sendDrop e.scope e.key k.device k.pitch s))
      else askHold id e rest (sendDrop e.scope e.key k.device k.pitch s) := by
  simp only [holdAnswered, found, tries, copies, ne_eq, not_true_eq_false, if_false]
  rfl

theorem holdAnswered_granted (granted : given.isSome = true) (whole : (heldHandles given).length = e.shape.layers) :
    holdAnswered id l.at_ given s = lookupOn id (addPage id e k.device ((heldHandles given).map Ref.remote) { s with
      myHolds := s.myHolds ++ [{ device := k.device, pitch := k.pitch, record := k.record, handles := heldHandles given }] }) :=
  (holdAnswered_asked found tries copies).trans (if_pos ⟨granted, whole⟩)

theorem holdAnswered_refused (refused : given.isSome = false ∨ (heldHandles given).length ≠ e.shape.layers) :
    holdAnswered id l.at_ given s = if rest.isEmpty then lookupEnd id (onLookup id
        (fun l => { l with tryEntry := none, tryCopies := [] }) (sendDrop e.scope e.key k.device k.pitch s))
      else askHold id e rest (sendDrop e.scope e.key k.device k.pitch s) := by
  refine (holdAnswered_asked found tries copies).trans (if_neg ?_)
  rintro ⟨granted, whole⟩
  exact refused.elim (ne_false_of_eq_true granted) (absurd whole)

end

/-- Holds at the holder by the record and its crates, at the requester by the answer. -/
theorem holdEventsComplete : HoldEventsComplete := by
  refine ⟨fun q p id s up peer pitch => ?_, fun q p id s h up peer pitch found => ?_, fun q s up peer lost => ?_,
    fun id s l e k rest given up found tries copies => ?_⟩
  · intro record handles
    have row {u : State} (effect : holdRequested q p id s = u) : Works (.holdRequest q p id) s u :=
      works_work rfl up (Bool.and_eq_true_iff.mpr ⟨peer, pitch⟩) effect
    exact ⟨fun none_ => row (holdRequested_noRecord none_),
      fun r some_ short => row ((holdRequested_record some_).trans (if_neg short)),
      fun r some_ whole => row ((holdRequested_record some_).trans (if_pos whole))⟩
  · exact works_work rfl up (Bool.and_eq_true_iff.mpr ⟨peer, pitch⟩) (holdReleased_held found)
  · exact works_work rfl up peer (orphanRelease_unreachable lost)
  · intro got hold u
    exact ⟨fun granted whole => works_work rfl up rfl (holdAnswered_granted found tries copies granted whole),
      fun refused => works_work rfl up rfl (holdAnswered_refused found tries copies refused)⟩

/-! Code tables (R317). -/

section
variable {id f : Nat} {s : State}
  (asked : s.pendingTables.any (fun x => x.1 == id && x.2.1 == leBytes 8 f && x.2.2.isNone) = true)
include asked

theorem tableAnswered_none : tableAnswered id f none s = fetchFails id s := by
  simp only [tableAnswered, asked, Bool.not_true, Bool.false_eq_true, if_false]

theorem tableAnswered_some (l : List Nat) : tableAnswered id f (some l) s = { s with
    pendingTables := upd (fun x => x.1 == id && x.2.1 == leBytes 8 f) (fun x => (x.1, x.2.1, some l)) s.pendingTables } := by
  simp only [tableAnswered, asked, Bool.not_true, Bool.false_eq_true, if_false]

end

/-- Tables are answered from what the device knows, and an answer reaches the fetch that asked. -/
theorem tableFetchesComplete : TableFetchesComplete := by
  refine ⟨fun q f s up peer => ?_, fun id f s up asked => ⟨?_, fun l => ?_⟩⟩
  · exact gives_due (f := tableRequested q f) rfl up peer rfl
  · exact works_work rfl up rfl (tableAnswered_none asked)
  · exact works_work rfl up rfl (tableAnswered_some asked l)

/-- Settles O22: the rows of holds and those of code tables, each by the equation of its effect. -/
theorem holdAndTableEventsComplete : Obligations.HoldAndTableEventsComplete := ⟨holdEventsComplete, tableFetchesComplete⟩

end Sys2Proof.Machine
end

section
/-! PROOFS. Tiers: fetches, from the hint to the copy in tier 1 (R240 to R246, R271, R317, R318). -/
namespace Sys2Proof.Machine

open Sys2Proof.Claims

theorem scheduleFetches_queues {uid : Nat} {s : State} {q : Seq} {h : Hint} (seq : seqOf s uid = some q) (hint : q.hint = some h)
    (unplanned : q.planned = false) (hinted : q.nextHint ≠ 0) :
    scheduleFetches uid s = each (List.range q.layers.length) (fun j s =>
      each (layerBelow s q j) (fun c => queueFetch .hinted j (h.next + j * h.gap) c.id) s)
      (onSeq uid (fun q => { q with planned := true }) (reach (planStart s q h) s)) := by
  simp only [scheduleFetches, seq, hint, unplanned, hinted, Bool.false_eq_true, or_self, if_false]

/-! A fetch that ends (R244, R245, R271, R316 to R318). -/

/-- The code lengths of the table that a block of a fetched copy names, where they are known (R316, R317). -/
def namedLengths (s : State) (c : Crate) (refs : List (Nat × Nat × Bytes)) (i g : Nat) : Option (List Nat) :=
  (refs.find? (fun r => r.1 == i && r.2.1 == g)).bind (fun r => fetchedLengths s c r.2.2)

/-- A crate with what its fetched copy decodes to: the body, the directory in this pitch, the digest (R316). -/
def Crate.unpacked (body : List Block) (dir : List BlockDir) (bs : Bytes) (c : Crate) : Crate :=
  { c with body := body, dir := dir, packDir := dir, digest := (bs.drop 8).take 8 }

section
variable {id : Nat} {o : ReadResult} {s t : State} {c : Crate} {f : Fetch}
  (named : crateOf s id = some c) (fetch : c.fetch = some f) (started : f.started = true)
include named fetch started

theorem fetchDone_read (near : f.tier ≠ 4) (read : readFinding id f.tier o s = (true, t)) : fetchDone id o s = placeFetched id t := by
  simp only [fetchDone, named, fetch, started, near, read, Bool.true_eq_false, if_false, ne_eq, not_false_eq_true, if_true]

theorem fetchDone_unreadable (near : f.tier ≠ 4) (lost : readFinding id f.tier o s = (false, t)) :
    fetchDone id o s = fetchFails id (onCrate id (fun c => { c with fetch := some f, reserve := true }) t) := by
  simp only [fetchDone, named, fetch, started, near, lost, Bool.true_eq_false, if_false, ne_eq, not_false_eq_true, if_true]

/-- Of a copy on another device only a refusal matters: every other answer lets the data that came decide (R244, R318). -/
theorem fetchDone_far (far : f.tier = 4) : fetchDone id o s = if cameBack o then fetchDone id .ok s else fetchFails id s := by
  simp only [fetchDone, named, fetch, started, far, Bool.true_eq_false, if_false, ne_eq, not_true_eq_false]
  cases o <;> rfl

variable {x : Read} (far : f.tier = 4) (came : cameBack o = true) (read : s.reads.find? (fun x => x.want == .crate id) = some x)
  (whole : x.done = true) (tables : s.pendingTables.any (fun t => t.1 == id && t.2.2.isNone) = false)
include far came read whole tables

theorem fetchDone_noIndex (index : packIndex c.shape (readBytes x) = none) : fetchDone id o s = fetchFails id s := by
  rw [fetchDone_far named fetch started far, if_pos came]
  simp only [fetchDone, named, fetch, started, far, read, whole, tables, index, Bool.true_eq_false, Bool.false_eq_true, if_false,
    ne_eq, not_true_eq_false, or_self]

variable {l : List BlockDir} {refs : List (Nat × Nat × Bytes)} (index : packIndex c.shape (readBytes x) = some (l, refs))
include index

/-- A block that does not decode fails the fetch, and is reported (R318). -/
theorem fetchDone_undecodable (bad : unpackBody c.shape (readBytes x) (namedLengths s c refs) = none) :
    fetchDone id o s = fetchFails id (reportAt c.stack .decodeFailure sevContained (some c.pitch)
      (((List.range l.length).find? (fun i => (unpackBlock c.shape (readBytes x) (namedLengths s c refs) i).isNone)).getD 0) s) := by
  unfold namedLengths at bad
  rw [fetchDone_far named fetch started far, if_pos came]
  simp only [fetchDone, named, fetch, started, far, read, whole, tables, index, bad, Bool.true_eq_false, Bool.false_eq_true, if_false,
    ne_eq, not_true_eq_false, or_self]
  rfl

theorem fetchDone_unpacked {body : List Block} (good : unpackBody c.shape (readBytes x) (namedLengths s c refs) = some body) :
    let m := mapTables c l refs s
    fetchDone id o s = placeFetched id (onCrate id (Crate.unpacked body m.1 (readBytes x))
      { m.2 with reads := drop (fun y => y.id == x.id) m.2.reads }) := by
  unfold namedLengths at good
  rw [fetchDone_far named fetch started far, if_pos came]
  simp only [fetchDone, named, fetch, started, far, read, whole, tables, index, good, Bool.true_eq_false, Bool.false_eq_true, if_false,
    ne_eq, not_true_eq_false, or_self]
  rfl

end

/-- Settles O15: the plan of a hint by the fetches that it queues, and the ends of a fetch by where its copy lay. -/
theorem fetchesComplete : Obligations.FetchesComplete := by
  refine ⟨?_, ?_, ?_, ?_, ?_⟩
  · intro uid s q h up seq hint unplanned hinted
    exact works_work rfl up rfl (scheduleFetches_queues seq hint unplanned hinted)
  · intro id o s t c f up wf named fetch started near read
    exact works_work rfl up wf (fetchDone_read named fetch started near read)
  · intro id o s t c f up wf named fetch started near lost
    exact works_work rfl up wf (fetchDone_unreadable named fetch started near lost)
  · intro id o s c f up wf named fetch started far refused
    exact works_work rfl up wf ((fetchDone_far named fetch started far).trans (if_neg (ne_true_of_eq_false refused)))
  · intro id o s c f x up wf named fetch started far came read whole tables bs
    refine ⟨fun index => ?_, fun l refs index => ⟨fun body good => ?_, fun bad => ?_⟩⟩
    · exact works_work rfl up wf (fetchDone_noIndex named fetch started far came read whole tables index)
    · exact works_work rfl up wf (fetchDone_unpacked named fetch started far came read whole tables index good)
    · exact works_work rfl up wf (fetchDone_undecodable named fetch started far came read whole tables index bad)

end Sys2Proof.Machine
end

section
/-! PROOFS. Tiers: evictions, promotion, and delta coding in tier 1 (R236, R237, R250, R254, R267, R271, R273, R308, R310, R319). -/
namespace Sys2Proof.Machine

open Sys2Proof.Claims

/-! Evictions (R236, R250, R254, R267, R273). -/

/-- Stage B and a full quota are what holds a copy to flash back (R250, R254, R273). -/
theorem toFlash_allowed {s : State} {c : Crate} (stageB : stageOn s 2 = false)
    (room : c.origin.isSome = true ∨ flashRoom s c = true) :
    ¬ (stageOn s 2 = true ∨ c.origin.isNone = true ∧ flashRoom s c = false) := by
  rintro (stage | ⟨noOrigin, full⟩)
  · exact ne_true_of_eq_false stageB stage
  · rcases room with origin | free
    · exact Option.isSome_iff_ne_none.mp origin (Option.isNone_iff_eq_none.mp noOrigin)
    · exact ne_true_of_eq_false full free

section
variable {id : Nat} {o : ReadResult} {s t : State} {c : Crate} (named : crateOf s id = some c)
include named

theorem evictionCopyDone_drops (copying : c.copying = .dropDram) :
    evictionCopyDone id o s = dropDram id (onCrate id (fun c => { c with copying := .none }) s) := by
  simp only [evictionCopyDone, named, copying]

section
variable {l : Nat} (copying : c.copying = .toLease l)
include copying

theorem evictionCopyDone_leaseGone (gone : s.leases.find? (fun x => x.id == l && x.st == .live) = none) :
    evictionCopyDone id o s = onCrate id (fun c => { c with copying := .none }) s := by
  simp only [evictionCopyDone, named, copying, onCrate, gone]

variable {x : Lease} (live : s.leases.find? (fun x => x.id == l && x.st == .live) = some x)
include live

theorem evictionCopyDone_lease_unreadable
    (lost : readFinding id 1 o (onCrate id (fun c => { c with copying := .none }) s) = (false, t)) :
    evictionCopyDone id o s = t := by
  rw [onCrate] at lost
  simp only [evictionCopyDone, named, copying, onCrate, live, lost]

theorem evictionCopyDone_lease_read
    (read : readFinding id 1 o (onCrate id (fun c => { c with copying := .none }) s) = (true, t)) :
    let u := standalone id t
    let h : Handle := { newHandle u c 2 with device := ((peerPlan u x.peer).map (fun q => q.deviceId)).getD 0 }
    let v := onCrate id (fun c => { c with lease := some (h, l) }) (freshen u)
    evictionCopyDone id o s = if c.pinned then v else dropDram id v := by
  rw [onCrate] at read
  simp only [evictionCopyDone, named, copying, onCrate, live, read]

end

section
variable (copying : c.copying = .toFlash) (stageB : stageOn s 2 = false) (room : c.origin.isSome = true ∨ flashRoom s c = true)
include copying stageB room

theorem evictionCopyDone_flash_unreadable
    (lost : readFinding id (if inDram c then 1 else 2) o (onCrate id (fun c => { c with copying := .none }) s) = (false, t)) :
    evictionCopyDone id o s = t := by
  simp only [evictionCopyDone, named, copying, if_neg (toFlash_allowed stageB room), lost]

variable (read : readFinding id (if inDram c then 1 else 2) o (onCrate id (fun c => { c with copying := .none }) s) = (true, t))
include read

/-- A copy for which no zone is free waits on. -/
theorem evictionCopyDone_noZone
    (full : programFlash id (if (if inDram c then 1 else 2) = 1 then standalone id t else t) = none) :
    evictionCopyDone id o s = onCrate id (fun c => { c with copying := .toFlash }) t := by
  simp only [evictionCopyDone, named, copying, if_neg (toFlash_allowed stageB room), read, full]

theorem evictionCopyDone_flash_written {u : State}
    (written : programFlash id (if (if inDram c then 1 else 2) = 1 then standalone id t else t) = some u) :
    let v := markDurable id (onCrate id Crate.noLease u)
    evictionCopyDone id o s = if c.lease.isSome ∨ c.pinned then v else dropDram id v := by
  simp only [evictionCopyDone, named, copying, if_neg (toFlash_allowed stageB room), read, written]

end
end

theorem evictionCopiesComplete : EvictionCopiesComplete := by
  refine ⟨?_, ?_, ?_⟩
  · intro id o s c up wf named copying
    exact works_work rfl up wf (evictionCopyDone_drops named copying)
  · intro id o s c l up wf named copying s1
    exact ⟨fun gone => works_work rfl up wf (evictionCopyDone_leaseGone named copying gone),
      fun x t live lost => works_work rfl up wf (evictionCopyDone_lease_unreadable named copying live lost),
      fun x t live read => works_work rfl up wf (evictionCopyDone_lease_read named copying live read)⟩
  · intro id o s c up wf named copying stageB room s1 tier body
    exact ⟨fun t lost => works_work rfl up wf (evictionCopyDone_flash_unreadable named copying stageB room lost),
      fun t read full => works_work rfl up wf (evictionCopyDone_noZone named copying stageB room read full),
      fun t u read written => works_work rfl up wf (evictionCopyDone_flash_written named copying stageB room read written)⟩

/-! Promotion to the hall (R237, R271). -/

section
variable {id : Nat} {o : ReadResult} {s t : State} {c : Crate} (named : crateOf s id = some c) (promoting : c.promoting = true)
include named promoting

theorem promotionDone_left (away : inDram c = false) :
    promotionDone id o s = onCrate id (fun c => { c with promoting := false }) s := by
  simp only [promotionDone, named, promoting, away, Bool.true_eq_false, if_false, if_true]

variable (here : inDram c = true)
include here

theorem promotionDone_unreadable
    (lost : readFinding id 1 o (onCrate id (fun c => { c with promoting := false }) s) = (false, t)) :
    promotionDone id o s = t := by
  simp only [promotionDone, named, promoting, here, lost, Bool.true_eq_false, if_false]

theorem promotionDone_read
    (read : readFinding id 1 o (onCrate id (fun c => { c with promoting := false }) s) = (true, t)) :
    promotionDone id o s
      = onCrate id (fun k => { k with hall := if inDram k then some (newHandle t c 0) else none }) (freshen t) := by
  simp only [promotionDone, named, promoting, here, read, Bool.true_eq_false, if_false]

end

/-! Delta coding (R307, R308, R310, R319). -/

/-- A crate may be stored as differences from a base: both lie in tier 1, neither is a dependant, the crate is no base itself,
and no eviction copies it (R307, R308). -/
def deltaFits (s : State) (id : Nat) (c base : Crate) : Bool :=
  inDram c && inDram base && base.base.isNone && c.base.isNone && !(isBase s id) && c.copying == .none

/-- A crate stored as differences from a base, its DRAM copy under a new handle (R308). -/
def Crate.asDelta (dir : List BlockDir) (b : Nat) (h : Handle) (c : Crate) : Crate :=
  { c with packDir := c.dir, dir := dir, base := some b, dram := some h, leaving := c.left c.dram.toList }

/-- A dependant stored standalone again, its DRAM copy under a new handle (R310). -/
def Crate.rebased (dir : List BlockDir) (h : Handle) (c : Crate) : Crate :=
  { c with rebasing := false, base := none, dir := dir, packDir := if lowerCopy c then c.packDir else dir, dram := some h,
           leaving := c.left c.dram.toList }

theorem deltaFits_eq_true_iff {s : State} {id : Nat} {c base : Crate} : deltaFits s id c base = true ↔
    ¬ (inDram c = false ∨ inDram base = false ∨ base.base.isSome ∨ c.base.isSome ∨ isBase s id ∨ c.copying ≠ .none) := by
  simp [deltaFits, and_assoc]

section
variable {id b : Nat} {o ob : ReadResult} {s : State} {c : Crate} (named : crateOf s id = some c) (recoding : c.recoding = some b)
  (stageB : stageOn s 2 = false)
include named recoding stageB

theorem recodeDone_noBase (gone : crateOf (onCrate id (fun c => { c with recoding := none }) s) b = none) :
    recodeDone id o ob s = onCrate id (fun c => { c with recoding := none }) s := by
  simp only [recodeDone, named, recoding, stageB, Bool.false_eq_true, if_false, gone]

variable {base : Crate} (there : crateOf (onCrate id (fun c => { c with recoding := none }) s) b = some base)
include there

theorem recodeDone_unfit (unfit : deltaFits (onCrate id (fun c => { c with recoding := none }) s) id c base = false) :
    recodeDone id o ob s = onCrate id (fun c => { c with recoding := none }) s := by
  have dropped := mt deltaFits_eq_true_iff.mpr (ne_true_of_eq_false unfit)
  simp only [recodeDone, named, recoding, stageB, Bool.false_eq_true, if_false, there, if_pos (not_not.mp dropped)]

variable (fits : deltaFits (onCrate id (fun c => { c with recoding := none }) s) id c base = true)
include fits

/-- The base is read, and then the crate; where both read, the crate is stored anew if a block gains (R308, R319). -/
theorem recodeDone_fits :
    let x := readFinding b (if base.hall.isSome then 0 else 1) ob (onCrate id (fun c => { c with recoding := none }) s)
    let y := readFinding id 1 o x.2
    let r := deltaBody c.pitch c.shape c.body base.body c.dir y.2
    recodeDone id o ob s = if x.1 = false ∨ y.1 = false then y.2
      else if r.1.any (fun d => d.mode == 2) then countBlocks c.pitch (r.1.filter (fun d => d.mode == 2))
        (onCrate id (Crate.asDelta r.1 b (newHandle r.2 c 1)) (freshen r.2))
      else y.2 := by
  simp only [recodeDone, named, recoding, stageB, Bool.false_eq_true, if_false, there, if_neg (deltaFits_eq_true_iff.mp fits)]
  rfl

end

section
variable {id : Nat} {o : ReadResult} {s t : State} {c : Crate} (named : crateOf s id = some c) (rebasing : c.rebasing = true)
  (dependant : c.base.isSome = true)
include named rebasing dependant

theorem rebaseDone_reads : rebaseDone id o s = match readFinding id 1 o s with
    | (false, t) => t
    | (true, t) =>
      let r := codeBody c.pitch c.shape c.body t
      bump .pitchDeltaStatRebased c.pitch 1 (countBlocks c.pitch r.1
        (onCrate id (Crate.rebased r.1 (newHandle r.2 c 1)) (freshen r.2))) := by
  have due : ¬ (c.rebasing = false ∨ c.base.isNone = true) := by
    simpa [rebasing] using Option.isSome_iff_ne_none.mp dependant
  simp only [rebaseDone, named, if_neg due]
  rfl

end

theorem crateRecodingsComplete : CrateRecodingsComplete := by
  refine ⟨?_, ?_, ?_⟩
  · intro id o s c up wf named promoting s1
    exact ⟨fun away => works_work rfl up wf (promotionDone_left named promoting away),
      fun t here lost => works_work rfl up wf (promotionDone_unreadable named promoting here lost),
      fun t here read => works_work rfl up wf (promotionDone_read named promoting here read)⟩
  · intro id o ob s c b up wf baseWf named recoding stageB s1
    have units : (o.wf && ob.wf) = true := Bool.and_eq_true_iff.mpr ⟨wf, baseWf⟩
    have row {u : State} (effect : recodeDone id o ob s = u) : Works (.recodeDone ⟨id, o, ob⟩) s u := works_work rfl up units effect
    refine ⟨fun gone => row (recodeDone_noBase named recoding stageB gone), fun base there => ⟨fun unfit => ?_, fun fits lost => ?_,
      fun fits baseReads reads => ?_⟩⟩
    · exact row (recodeDone_unfit named recoding stageB there unfit)
    · exact row ((recodeDone_fits named recoding stageB there fits).trans (if_pos ((Bool.and_eq_false_iff).mp lost)))
    · exact row ((recodeDone_fits named recoding stageB there fits).trans
        (if_neg (not_or.mpr ⟨ne_false_of_eq_true baseReads, ne_false_of_eq_true reads⟩)))
  · intro id o s c t up wf named rebasing dependant
    have reads := rebaseDone_reads (o := o) named rebasing dependant
    exact ⟨fun lost => works_work rfl up wf (by rw [reads, lost]), fun read => works_work rfl up wf (by rw [reads, read]; rfl)⟩

/-- Settles O17: each event by the equation of its effect. -/
theorem crateEventsComplete : Obligations.CrateEventsComplete := ⟨evictionCopiesComplete, crateRecodingsComplete⟩

end Sys2Proof.Machine
end

section
/-! PROOFS. Tiers: flash copies, garbage collection and the catalogue's replay (R255, R259, R261, R264, R271, R273, R315). -/
namespace Sys2Proof.Machine

open Sys2Proof.Claims

/-! A flash copy that waits (R255, R261, R273). -/

section
variable {id : Nat} {o : ReadResult} {s t : State} {c : Crate} (named : crateOf s id = some c) (wanted : c.flashWanted ≠ 0)
  (none_ : c.flash = none) (source : inDram c = true ∨ c.lease.isSome = true) (allowed : flashAllowed s c = true)
  (first : heldBehind s id = false)
include wanted none_ source allowed first

/-- The copy waits, has a source, and nothing holds its write back. -/
theorem flashCopy_due : ¬ (c.flashWanted = 0 ∨ c.flash.isSome = true ∨ (inDram c = false ∧ c.lease.isNone = true)
    ∨ flashAllowed s c = false ∨ heldBehind s id = true) := by
  have stays : ¬ (inDram c = false ∧ c.lease.isNone = true) := by
    rintro ⟨away, noLease⟩
    rcases source with here | leased
    · exact ne_true_of_eq_false away here
    · exact Option.isSome_iff_ne_none.mp leased (Option.isNone_iff_eq_none.mp noLease)
  have noFlash : ¬ c.flash.isSome = true := by rw [none_]; decide
  simp only [wanted, noFlash, stays, allowed, first, Bool.true_eq_false, Bool.false_eq_true, or_self, not_false_eq_true]

include named

theorem flashCopyWritten_unreadable (lost : readFinding id (if inDram c then 1 else 2) o s = (false, t)) :
    flashCopyWritten id o s = t := by
  simp only [flashCopyWritten, named, if_neg (flashCopy_due wanted none_ source allowed first), lost]

variable (read : readFinding id (if inDram c then 1 else 2) o s = (true, t))
include read

theorem flashCopyWritten_noZone (full : programFlash id (if inDram c then standalone id t else t) = none) :
    flashCopyWritten id o s = t := by
  simp only [flashCopyWritten, named, if_neg (flashCopy_due wanted none_ source allowed first), read, full]

theorem flashCopyWritten_programs {u : State} (written : programFlash id (if inDram c then standalone id t else t) = some u) :
    flashCopyWritten id o s = markDurable id u := by
  simp only [flashCopyWritten, named, if_neg (flashCopy_due wanted none_ source allowed first), read, written]

end

/-! Garbage collection (R259, R260, R271). -/

/-- The copy of a crate moves from the victim to the collection zone of its pitch; one that does not read is dropped. The flag
falls when a copy finds no place (R259, R271). -/
def moveLive (p : Nat) (lost : List Nat) (acc : Bool × State) (id : Nat) : Bool × State :=
  if lost.contains id then (acc.1, dropCopyOf id 3 (bump .flashHealthUncorrectable 0 1 acc.2)) else
  match crateOf acc.2 id with
  | none => acc
  | some c => match appendZone 2 p (placeOf acc.2 c (newHandle acc.2 c 3)) acc.2 with
    | none => (false, acc.2)
    | some u => (acc.1, spendFlash (packSize c.shape c.packDir)
      (onCrate id (fun k => { k with flash := some (newHandle acc.2 c 3) }) (freshen u)))

/-- A zone after its erasure: free, empty, worn once more, and no longer marked (R259, R262). -/
def Zone.erased (z : Zone) : Zone :=
  { z with state := 0, crates := [], places := [], units := 0, erases := z.erases + 1, marked := false,
           blocks := z.blocks.map (fun b => (b.1, b.2.1, 0)), old := false }

theorem gcZoneDone_victim {p z : Nat} {lost : List Nat} {s : State} {x : Zone}
    (found : s.zones.find? (fun y => y.pitch == p && y.id == z) = some x) (victim : isVictim s x = true) (runs : gcRuns s p = true) :
    let r := (liveIn s x).foldl (moveLive p lost) (true, s)
    gcZoneDone p z lost s = if r.1 = false then s else bump .flashWearGcZones p 1 (putZone x.erased r.2) := by
  simp only [gcZoneDone, found, victim, runs, Bool.true_eq_false, or_self, if_false]
  rfl

/-! The catalogue (R264, R315). -/

/-- The holder of a remote copy is asked for its hold again, where it is a peer (R264). -/
def askAgain (h : MyHold) (s : State) : State :=
  match peerOfDevice s h.device with
  | some q => tell q (.holdAsk h.pitch h.record) s
  | none => s

theorem replayDone_replays {p ms : Nat} {failed : List (Nat × Nat × Nat)} {s : State} (replays : s.replaying.contains p = true) :
    let cat := ((s.catalogue.find? (fun x => x.1 == p)).map (fun x => x.2)).getD Catalogue.empty
    let u := each cat.holds askAgain (reach (s.bootedAt + ms * 1000000) s)
    let granted := cat.holds.filter (fun h => !(failed.contains (h.device, h.pitch, h.record)))
    let back := fun (t : CodeTable) => { t with restored := true, risen := false, current := false }
    let v := each cat.records (replayRecord failed cat.holds) (each cat.seqs (replaySeq failed cat.holds)
      { u with myHolds := u.myHolds ++ granted, tables := u.tables ++ cat.tables.map back })
    let w := raiseTo .secBootReplayMs 0 (min ms 65535) { v with replaying := v.replaying.erase p }
    replayDone p ms failed s = if w.replaying.isEmpty then wr .secBootStage 0 8 w else w := by
  refine if_neg ?_
  rw [replays]
  decide

/-- Settles O18: each event by the equation of its effect. -/
theorem flashEventsComplete : Obligations.FlashEventsComplete := by
  refine ⟨?_, ?_, ?_⟩
  · intro id o s c up wf named wanted none_ source allowed first tier body
    exact ⟨fun t lost => works_work rfl up wf (flashCopyWritten_unreadable named wanted none_ source allowed first lost),
      fun t read full => works_work rfl up wf (flashCopyWritten_noZone named wanted none_ source allowed first read full),
      fun t u read written => works_work rfl up wf (flashCopyWritten_programs named wanted none_ source allowed first read written)⟩
  · intro p z lost s x up pitch found victim runs move r
    have collects := gcZoneDone_victim (lost := lost) found victim runs
    exact ⟨fun moved => works_work rfl up pitch (collects.trans (if_neg (ne_false_of_eq_true moved))),
      fun stuck => works_work rfl up pitch (collects.trans (if_pos stuck))⟩
  · intro p ms failed s up pitch replays
    exact works_work rfl up pitch (replayDone_replays replays)

end Sys2Proof.Machine
end

section
/-! PROOFS. Tiers: leases between devices (R265 to R267, R269, R273, R485). -/
namespace Sys2Proof.Machine

open Sys2Proof.Claims

/-! The lender answers (R265 to R267). -/

/-- A pitch may lend one more GiB to a peer: the two share a market, stage A is off, the pitch is in use, LEND_GIB allows it, and
its crate area keeps room (R265, R266, R273). -/
def lends (q p : Nat) (s : State) : Bool :=
  sameMarket s q && !(stageOn s 1) && rd s .secPitchStateState p == 2
    && decide (lentCount s p < rd s .pitchTierCfgLendGib p)
    && decide (dramUsed s p + gib * (lentCount s p + 2) < gib * rd s .pitchTierCapCrateGib p)

/-- The last granule of a pitch that may be lent (R267). -/
def lastGranule (p : Nat) (s : State) : Option Nat :=
  ((List.range (pitchPlan s p).granules.length).filter (mayLend s p)).getLast?

/-- The window over a granule that a lender opens for a peer (R267). -/
def lendWindow (q p g : Nat) (s : State) : Window :=
  newWindow p 0 3 (((connsOfPeer s q).find? (fun c => connOfPitch s c p)).getD 0xFFFF) noChit (g * gib) gib

section
variable {q p g : Nat} {s : State}

/-- A lender grants where it lends, a granule is free and a window opens; else it refuses. -/
theorem leaseAsk_eq : leaseAsk q p s = match lends q p s, lastGranule p s with
    | true, some g => (match openWindow (lendWindow q p g s) s with
      | none => tell q .leaseRefuse s
      | some (h, u) =>
        let l : Lease := { id := u.order, lent := true, peer := q, pitch := p, window := h, granule := g, st := .live, deadline := 0 }
        tell q (.leaseGrant h) { ordered u with leases := u.leases ++ [l] })
    | _, _ => tell q .leaseRefuse s := rfl

theorem leaseAsk_grants {h : Nat} {u : State} (may : lends q p s = true) (free : lastGranule p s = some g)
    (opens : openWindow (lendWindow q p g s) s = some (h, u)) :
    let l : Lease := { id := u.order, lent := true, peer := q, pitch := p, window := h, granule := g, st := .live, deadline := 0 }
    leaseAsk q p s = tell q (.leaseGrant h) { ordered u with leases := u.leases ++ [l] } := by
  simp only [leaseAsk_eq, may, free, opens]

theorem leaseAsk_noWindow (may : lends q p s = true) (free : lastGranule p s = some g)
    (full : openWindow (lendWindow q p g s) s = none) : leaseAsk q p s = tell q .leaseRefuse s := by
  simp only [leaseAsk_eq, may, free, full]

theorem leaseAsk_refuses (none_ : lends q p s = false ∨ lastGranule p s = none) : leaseAsk q p s = tell q .leaseRefuse s := by
  rcases none_ with mayNot | noGranule
  · simp only [leaseAsk_eq, mayNot]
  · rw [leaseAsk_eq, noGranule]
    cases lends q p s <;> rfl

end

theorem leaseAskAnswered : LeaseAskAnswered := by
  intro q p' p s up peer asker pitch may free window
  have units : (peerOk q && pitchOk p' && pitchOk p) = true := by rw [peer, asker, pitch]; rfl
  have row {u : State} (effect : leaseAsk q p s = u) : Works (.leaseAsk q p' p) s u := works_work rfl up units effect
  exact ⟨fun g h u lends_ granule opens => row (leaseAsk_grants lends_ granule opens),
    fun g lends_ granule full => row (leaseAsk_noWindow lends_ granule full), fun none_ => row (leaseAsk_refuses none_)⟩

/-! The borrower (R267, R269, R273). -/

theorem borrowedLeaseEvents : BorrowedLeaseEvents := by
  refine ⟨fun q p w s up peer pitch => ?_, fun q p s up peer pitch => ?_, fun id s up => ?_⟩
  · exact works_work (f := leaseGranted q p w) rfl up (Bool.and_eq_true_iff.mpr ⟨peer, pitch⟩) rfl
  · exact works_work (f := leaseRefused q p) rfl up (Bool.and_eq_true_iff.mpr ⟨peer, pitch⟩) rfl
  · exact works_work (f := leaseReturned id) rfl up rfl rfl

theorem leaseRecalled_live {q w : Nat} {s : State} {l : Lease}
    (held : s.leases.find? (fun l => !l.lent && l.peer == q && l.window == w && l.st == .live) = some l) :
    let d := s.localTime + 50000000
    let due := fun (x : Lease) => { x with st := .recalled, deadline := d }
    let u := bump .hallLeaseRecalls 0 1 { s with leases := upd (fun x => x.id == l.id) due s.leases }
    leaseRecalled q w s = postTo [0, l.pitch + 1] 0x0010 srcPedlar
      (leBytes 1 l.pitch ++ leBytes 1 0 ++ leBytes 2 (((peerPlan u q).map (fun r => r.deviceId)).getD 0) ++ leBytes 4 (d / 1000)) u := by
  simp only [leaseRecalled, held]

/-! The ends of leases (R267, R273, R485). -/

/-- A lease is gone from the table of leases. -/
def dropLease (id : Nat) (s : State) : State := { s with leases := drop (fun x => x.id == id) s.leases }

section
variable {id : Nat} {s : State} {l : Lease} (named : leaseOf s id = some l)
include named

theorem endLent_closes (lent : l.lent = true) :
    endLent id s = zeroGranule l.pitch l.granule (closeWindow (bits l.window 0 18) (dropLease id s)) := by
  simp only [endLent, named, lent, if_true, dropLease]

theorem recallDrop_confirms (lent : l.lent = true) : recallDrop id s = tell l.peer (.recallDropDone l.window)
    (zeroGranule l.pitch l.granule (closeWindow (bits l.window 0 18) (dropLease id s))) := by
  simp only [recallDrop, named, lent, if_true, endLent_closes named lent]

theorem leaseDeadline_recalled (recalled : l.st = .recalled) :
    let u := bump .hallLeaseDeadlineMissed 0 1 (reach l.deadline s)
    leaseDeadline id s = if l.lent then endLent id u else loseLease id u := by
  simp only [leaseDeadline, named, recalled, ne_eq, not_true_eq_false, if_false]

theorem recallDropConfirmed_asked (asked : l.st = .dropAsked) : recallDropConfirmed id s = dropLease id s := by
  simp only [recallDropConfirmed, named, asked, if_true, dropLease]

theorem recallDropTimeout_asked (asked : l.st = .dropAsked) :
    recallDropTimeout id s = trustLapses l.peer 1 (bump .secPitchStateUntrusted l.pitch 1
      (report (srcPort 0) .untrusted sevContained (some l.pitch) (reach l.deadline (dropLease id s)))) := by
  simp only [recallDropTimeout, named, asked, ne_eq, not_true_eq_false, if_false, dropLease]

end

theorem borrowerOrphan_unreachable {q : Nat} {s : State} (lost : (peerOf s q).reachable = false) :
    let u := reach ((peerOf s q).unreachableSince + 1000000000 * rd s .hallStockCfgOrphan 0) s
    borrowerOrphan q s = each ((u.leases.filter (fun l => l.lent && l.peer == q)).map (fun l => l.id)) endLent u :=
  if_neg (ne_true_of_eq_false lost)

theorem leaseEndsComplete : LeaseEndsComplete := by
  refine ⟨?_, ?_, ?_, ?_, ?_⟩
  · intro q w s l up peer held
    exact works_work rfl up peer (leaseRecalled_live held)
  · intro id s l up named lent
    exact ⟨works_work rfl up rfl (endLent_closes named lent), works_work rfl up rfl (recallDrop_confirms named lent)⟩
  · intro id s l up named recalled
    exact works_work rfl up rfl (leaseDeadline_recalled named recalled)
  · intro q s up peer lost
    exact works_work rfl up peer (borrowerOrphan_unreachable lost)
  · intro id s l up named asked
    exact ⟨works_work rfl up rfl (recallDropConfirmed_asked named asked), works_work rfl up rfl (recallDropTimeout_asked named asked)⟩

/-- Settles O19: the lender's answer, the borrower's lease, and the ends of leases, each by the equation of its effect. -/
theorem leaseEventsComplete : Obligations.LeaseEventsComplete := ⟨leaseAskAnswered, borrowedLeaseEvents, leaseEndsComplete⟩

end Sys2Proof.Machine
end

section
/-! PROOFS. Etlos: WIN_OPEN and the revocation of a window (R335 to R338, R341, R342). -/
namespace Sys2Proof.Machine

open Sys2Proof.Claims

/-- What a WIN_OPEN meets whose fields are in range: none of the checks of R338 that fail it, whatever its kind. -/
theorem winFieldsOk_inv {s : State} {e : Entry} (h : winFieldsOk s e = true) :
    let kind := fieldOf e 0x10 1
    let perms := fieldOf e 0x11 1
    let base := fieldOf e 0x18 6
    let len := fieldOf e 0x20 6
    ¬ (3 < kind ∨ 15 < perms ∨ (!(zeroAt e 0x1E 2)) = true ∨ (!(zeroAt e 0x26 2)) = true ∨ (!(zeroAt e 0x28 24)) = true
        ∨ len % 64 ≠ 0 ∨ len < 64 ∨ (kind ≤ 1 ∧ base % 64 ≠ 0) ∨ (kind = 2 ∧ 1024 ≤ base) ∨ (kind = 3 ∧ 16384 < base + len / 8))
      ∧ ¬ (kind = 2 ∧ (fieldOf e 0x12 2 = 0xFFFF ∨ bit perms permRemoteRead = true ∨ len ≠ 64 * ringSize s base))
      ∧ ¬ (2 ≤ kind ∧ fieldOf e 0x14 4 ≠ noChit) := by
  intro kind perms base len
  simp only [winFieldsOk, Bool.and_eq_true, decide_eq_true_eq, beq_iff_eq] at h
  obtain ⟨⟨⟨⟨⟨⟨⟨kinds, permsIn⟩, zero1⟩, zero2⟩, zero3⟩, whole⟩, long⟩, own⟩ := h
  simp only [zero1, zero2, zero3, Bool.not_true, Bool.false_eq_true, false_or]
  split at own
  · rename_i mem
    have aligned : base % 64 = 0 := by simpa using own
    refine ⟨?_, ?_, ?_⟩ <;> omega
  · split at own
    · rename_i ring
      simp only [Bool.and_eq_true, decide_eq_true_eq, bne_iff_ne, ne_eq, Bool.not_eq_true', beq_iff_eq] at own
      obtain ⟨⟨⟨⟨rings, linked⟩, unread⟩, size⟩, chit⟩ := own
      refine ⟨by omega, ?_, fun x => x.2 chit⟩
      rintro ⟨-, noConn | read | other⟩
      · exact linked noConn
      · exact absurd read (ne_true_of_eq_false unread)
      · exact other size
    · simp only [Bool.and_eq_true, decide_eq_true_eq, beq_iff_eq] at own
      obtain ⟨chits, chit⟩ := own
      refine ⟨by omega, by omega, fun x => x.2 chit⟩

/-- A WIN_OPEN that passes its checks opens its window and answers its handle (R335, R337, R338). -/
theorem opWinOpen_ok {c : Cmd} {s u : State} {p h : Nat} (pitch : ringPitch s c.ring = some p)
    (fields : winFieldsOk s c.entry = true)
    (region : regionOk s p (fieldOf c.entry 0x10 1) (fieldOf c.entry 0x12 2) (fieldOf c.entry 0x18 6) (fieldOf c.entry 0x20 6) = true)
    (conn : fieldOf c.entry 0x12 2 = 0xFFFF ∨ connOfPitch s (fieldOf c.entry 0x12 2) p = true)
    (chit : fieldOf c.entry 0x14 4 = noChit ∨ chitOwned s (p + 1) (fieldOf c.entry 0x14 4) = true)
    (quota : windowsOf s p < rd s .fabWinUseQuota p)
    (opened : openWindow (newWindow p (fieldOf c.entry 0x10 1) (fieldOf c.entry 0x11 1) (fieldOf c.entry 0x12 2)
      (fieldOf c.entry 0x14 4) (fieldOf c.entry 0x18 6) (fieldOf c.entry 0x20 6)) s = some (h, u)) :
    opWinOpen c s = complete c.id .ok h u := by
  obtain ⟨ranges, ring, noChits⟩ := winFieldsOk_inv fields
  have access : ¬ ((!(regionOk s p (fieldOf c.entry 0x10 1) (fieldOf c.entry 0x12 2) (fieldOf c.entry 0x18 6)
        (fieldOf c.entry 0x20 6))) = true
      ∨ (fieldOf c.entry 0x12 2 ≠ 0xFFFF ∧ (!(connOfPitch s (fieldOf c.entry 0x12 2) p)) = true)
      ∨ (fieldOf c.entry 0x14 4 ≠ noChit ∧ (!(chitOwned s (p + 1) (fieldOf c.entry 0x14 4))) = true)) := by
    rintro (outside | ⟨some_, foreign⟩ | ⟨some_, foreign⟩)
    · simp [region] at outside
    · simp [conn.resolve_left some_] at foreign
    · simp [chit.resolve_left some_] at foreign
  unfold opWinOpen
  extract_lets e kind perms conn' chit' base len bad
  rw [pitch]
  refine (if_neg ranges).trans ((if_neg ring).trans ((if_neg noChits).trans ((if_neg access).trans
    ((if_neg (Nat.not_le.mpr quota)).trans ?_))))
  rw [opened]

/-- A WIN_REVOKE of a window of its own pitch marks it and waits (R341, R342). -/
theorem opWinRevoke_ok {c : Cmd} {s : State} {p : Nat} {w : Window} (pitch : ringPitch s c.ring = some p)
    (named : windowAt s (bits (fieldOf c.entry 0x10 4) 0 18) = some w) (zero : zeroAt c.entry 0x14 44 = true)
    (local_ : bit (fieldOf c.entry 0x10 4) 31 = false) (gen : w.gen = bits (fieldOf c.entry 0x10 4) 18 13) (own : w.pitch = p) :
    opWinRevoke c s =
      let mark := fun (x : Window) => { x with revoking := true, waiters := x.waiters ++ [c.id] }
      startedCmd c.id { s with windows := upd (fun x => x.index == w.index) mark s.windows } := by
  unfold opWinRevoke
  extract_lets e h
  rw [pitch, named]
  exact if_neg (by simp [e, h, zero, local_, gen, own])

/-- A revoking window that has drained closes, and every revoke that waits for it completes (R342). -/
theorem winRevokeDone_closes {i : Nat} {s : State} {w : Window} (named : windowAt s i = some w) (marked : w.revoking = true) :
    winRevokeDone i s = each w.waiters (fun id s => complete id .ok 0 s)
      (bump .fabWinUseRevokes w.pitch w.waiters.length (closeWindow i s)) := by
  unfold winRevokeDone
  rw [named]
  exact if_neg (by simp [marked])

/-- Settles O9: the two commands pass their checks, and the end of a revocation is the equation of its effect. -/
theorem windowCommandsComplete : Obligations.WindowCommandsComplete := by
  refine ⟨?_, ?_, ?_⟩
  · intro r e s c t p h u starts pitch fields kind conn chit region linked owned quota opened
    exact works_of_runOp starts (.trans (by rw [runOp, (started_cmd starts).1])
      (opWinOpen_ok pitch fields region linked owned quota opened))
  · intro r e s c t p w starts pitch h named zero local_ gen own mark
    exact works_of_runOp starts (.trans (by rw [runOp, (started_cmd starts).1]) (opWinRevoke_ok pitch named zero local_ gen own))
  · intro i s w up index named marked
    exact works_work rfl up index (winRevokeDone_closes named marked)

end Sys2Proof.Machine
end

section
/-! PROOFS. Etlos: received packets (R329, R358, R361, R370, R395 to R398, R548). -/
namespace Sys2Proof.Machine

open Sys2Proof.Claims

/-! A frame at a port (R329, R548). -/

/-- A frame that arrives is held back by its port and power state, or goes as its association takes it. -/
theorem arrives_eq (f : Frame) (s : State) : arrives f s = packetEffect f s := by
  have port : (!(portUsable s f.port)) = true ↔ portUsable s f.port = false := by simp
  unfold arrives packetEffect receive
  rcases admission f s with u | ⟨q, t⟩ <;> simp only [port]

theorem packetsHandled : PacketsHandled := by
  have row (g : Frame) {f : Frame} {s : State} {i : Instr} (arrival : exec i s = work f.wf s (arrives g)) (up : Up s)
      (port : f.wf = true) : Works i s (packetEffect g s) := works_work arrival up port (arrives_eq g s)
  exact ⟨fun f _ => row (asWrite f) rfl, fun f _ => row (asPacket opReadReq 0 f) rfl, fun f _ => row (asPacket opReadResp 0 f) rfl,
    fun f _ => row (asPacket opAck 0 f) rfl, fun f _ => row (asPacket opNak 0 f) rfl, fun f _ => row (asCtrl 1 f) rfl,
    fun f _ => row (asCtrl 2 f) rfl, fun f _ => row (asCtrl 3 f) rfl, fun f _ => row (asCtrl 4 f) rfl⟩

/-! An admitted frame (R329, R358, R361, R370). -/

/-- A frame of another version than its peer's, or of no opcode of R329. -/
def badFrame (s : State) (q : Nat) (f : Frame) : Prop := f.ver ≠ versionFor s q ∨ f.opcode = 0 ∨ 6 < f.opcode

/-- A frame on a connection that is not valid, or not its peer's. -/
def farFrame (s : State) (q : Nat) (f : Frame) : Prop := on s .fabConnCfgValid f.conn = false ∨ connPeer s f.conn ≠ q

/-- A frame on its connection, counted in FRAMES. -/
def countedFrame (f : Frame) (s : State) : State := touch f.conn (bump .fabRxStatFrames f.port 1 s)

section
variable {q : Nat} {f : Frame} {s : State}

theorem admitted_bad (bad : badFrame s q f) : admitted q f s = stranger f.port s := if_pos bad

variable (known : ¬ badFrame s q f)
include known

theorem admitted_far (far : farFrame s q f) : admitted q f s = match (connsOfPeer s q).head? with
    | some k => sendNak k 3 f.window f.offset false false f (bump .fabRxStatFrames f.port 1 s)
    | none => s := by
  have foreign : (!(on s .fabConnCfgValid f.conn)) = true ∨ connPeer s f.conn ≠ q := by simpa [farFrame] using far
  exact (if_neg known).trans (if_pos foreign)

variable (near : ¬ farFrame s q f)
include near

theorem admitted_otherMode (mode : f.ordered ≠ on s .fabConnCfgMode f.conn) : admitted q f s = stranger f.port s := by
  have own : ¬ ((!(on s .fabConnCfgValid f.conn)) = true ∨ connPeer s f.conn ≠ q) := by simpa [farFrame] using near
  exact (if_neg known).trans ((if_neg own).trans (if_pos mode))

variable (mode : f.ordered = on s .fabConnCfgMode f.conn)
include mode

/-- A frame of its connection's mode is counted, and goes by its opcode. -/
theorem admitted_counted : admitted q f s =
    let u := countedFrame f s
    if f.opcode = opCtrl then ctrlArrives f.conn f u
    else if rd u .fabConnStateState f.conn ≠ 1 then u
    else if f.epoch ≠ (connOf u f.conn).epoch then bump .fabConnStateEpochDrops f.conn 1 u
    else if f.opcode = opAck then ackArrives f.conn f u
    else sequenced f.conn f u := by
  have own : ¬ ((!(on s .fabConnCfgValid f.conn)) = true ∨ connPeer s f.conn ≠ q) := by simpa [farFrame] using near
  exact (if_neg known).trans ((if_neg own).trans (if_neg (not_not_intro mode)))

theorem admitted_ctrl (ctrl : f.opcode = opCtrl) : admitted q f s = ctrlArrives f.conn f (countedFrame f s) :=
  (admitted_counted known near mode).trans (if_pos ctrl)

variable (data : f.opcode ≠ opCtrl) (live : rd (countedFrame f s) .fabConnStateState f.conn = 1)
include data live

theorem admitted_otherEpoch (epoch : f.epoch ≠ (connOf (countedFrame f s) f.conn).epoch) :
    admitted q f s = bump .fabConnStateEpochDrops f.conn 1 (countedFrame f s) :=
  (admitted_counted known near mode).trans ((if_neg data).trans ((if_neg (not_not_intro live)).trans (if_pos epoch)))

theorem admitted_inEpoch (epoch : f.epoch = (connOf (countedFrame f s) f.conn).epoch) : admitted q f s =
    if f.opcode = opAck then ackArrives f.conn f (countedFrame f s) else sequenced f.conn f (countedFrame f s) :=
  (admitted_counted known near mode).trans
    ((if_neg data).trans ((if_neg (not_not_intro live)).trans (if_neg (not_not_intro epoch))))

end

theorem admittedFrames : AdmittedFrames := by
  intro q f s bad far u
  exact ⟨admitted_bad, admitted_far, admitted_otherMode, admitted_ctrl, admitted_otherEpoch, admitted_inEpoch⟩

/-! Data in P2 (R548). -/

theorem packetEffect_waits {g : Frame} {s : State} (port : portUsable s g.port = true) (p2 : rd s .pwrStateState 0 = 2)
    (noAck : g.opcode ≠ opAck) (noCtrl : g.opcode ≠ opCtrl) : packetEffect g s = queueIngress g (startWake s) :=
  (if_neg (by simp [port, p2])).trans (if_pos ⟨p2, noAck, noCtrl⟩)

/-- Outside P0 an arrival sets the device waking. -/
theorem startWake_move {s : State} (low : rd s .pwrStateState 0 ≠ 0) : (startWake s).power.move = .waking := by
  rw [show startWake s = _ from if_neg fun rests => low rests.1]

@[simp] theorem startWake_ports (s : State) : (startWake s).ports = s.ports := by
  unfold startWake
  split <;> rfl

@[simp] theorem startWake_portOf (s : State) (p : Nat) : portOf (startWake s) p = portOf s p := by
  simp only [portOf, startWake_ports]

@[simp] theorem startWake_frameLen (s : State) : frameLen (startWake s) = frameLen s := by
  unfold startWake
  split <;> rfl

theorem queueIngress_fits {g : Frame} {s : State}
    (fits : sumBy (frameLen s) (portOf s g.port).ingress + frameLen s g ≤ 1048576) :
    queueIngress g s = onPort g.port (fun x => { x with ingress := x.ingress ++ [g] }) s := if_neg (Nat.not_lt.mpr fits)

/-- A port after a change of it. -/
theorem portOf_onPort {p : Nat} {s : State} (f : Port → Port) (there : p < s.ports.length) :
    portOf (onPort p f s) p = f (portOf s p) := by
  simp [portOf, onPort, there]

@[simp] theorem asWrite_port (f : Frame) : (asWrite f).port = f.port := by
  unfold asWrite
  split <;> rfl

theorem dataWaitsInP2 : DataWaitsInP2 := by
  intro f s up ok there port p2 fits noAck noCtrl u
  have queued : u = onPort f.port (fun x => { x with ingress := x.ingress ++ [asWrite f] }) (startWake s) :=
    asWrite_port f ▸ queueIngress_fits (by simpa using fits)
  have waits : packetEffect (asWrite f) s = u := packetEffect_waits (by simpa using port) p2 noAck noCtrl
  refine ⟨works_work rfl up ok ((arrives_eq _ s).trans waits), ?_, ?_⟩
  · rw [queued, onPort_power]
    exact startWake_move (by rw [p2]; decide)
  · rw [queued, portOf_onPort _ (by simpa using there), startWake_portOf]

/-- Settles O24: a port's frame comes to its effect row by row, and an admitted frame to the branch that its checks choose. -/
theorem packetsReceived : Obligations.PacketsReceived := ⟨packetsHandled, admittedFrames, dataWaitsInP2⟩

end Sys2Proof.Machine
end

section
/-! PROOFS. Etlos: the timers of the transport (R356, R357, R359, R360, R366, R381, R384, R385). -/
namespace Sys2Proof.Machine

open Sys2Proof.Claims

/-! Retransmission (R357, R366, R384). -/

/-- A packet whose timer has ended goes out again, on its next path; the port that it leaves by counts it (R357, R366). -/
def resendExpired (c : Nat) (k : TxPkt) (s : State) : State :=
  match ((connOf (resend c k s) c).unacked.find? (fun y => y.frame.psn == k.frame.psn)).bind (fun y => y.path) with
  | some path => if (nextPath s c k.path).isSome then bump .fabReliabilityRtoExpiries path.1 1 (resend c k s) else resend c k s
  | none => resend c k s

theorem rtoExpires_resends {c psn : Nat} {s : State} {p : TxPkt}
    (unacked : (connOf s c).unacked.find? (fun k => k.frame.psn == psn) = some p) :
    rtoExpires c psn s =
      let x := connOf s c
      let s1 := putConn { x with rto := min 10000000 (2 * x.rto), expiries := x.expiries + 1 } (reach (p.sentAt + x.rto) s)
      let s2 := wr .fabConnCcCwnd c (maxPayload s1) (showRto c s1)
      let s3 := each (if isLy7 s (connPeer s c) then x.unacked else [p]) (resendExpired c) s2
      if rd s3 .fabTransportCfgRetryMax 0 ≤ x.expiries + 1 then peerLost (connPeer s3 c) s3 else s3 := by
  simp only [rtoExpires, unacked]
  rfl

theorem rtoExpiryResends : RtoExpiryResends := by
  intro c psn s p up conn x unacked s1 s2 again s3
  exact works_work rfl up conn (rtoExpires_resends unacked)

/-! Acknowledgement, probes and paths (R356, R359, R360, R381, R385). -/

theorem delayedAck_sent {c : Nat} {s : State} {f : Frame} (waits : (connOf s c).ackFrame = some f) :
    delayedAck c s = sendAck c f (connOf s c).ackAt (reach ((connOf s c).ackAt + 2000) s) := by
  simp only [delayedAck, waits]

theorem silenceProbe_sent {q : Nat} {s : State} (reachable : (peerOf s q).reachable = true) (unasked : (peerOf s q).probeAt = none) :
    silenceProbe q s = probePeer q (reach ((peerOf s q).lastHeard + 1000000) s) :=
  if_neg (by simp [reachable, unasked])

theorem probeUnanswered_lost {q t : Nat} {s : State} (asked : (peerOf s q).probeAt = some t) :
    probeUnanswered q s = peerLost q (reach (t + 10000000) s) := by
  simp only [probeUnanswered, asked]

/-- An unreachable peer is probed 1 ms after the last probe, or at once where none has been sent. -/
theorem unreachableProbe_sent {q : Nat} {s : State} (lost : (peerOf s q).reachable = false) :
    unreachableProbe q s =
      let x := peerOf s q
      probePeer q (reach ((x.probeAt.map (fun t => t + 1000000)).getD x.unreachableSince) s) := by
  refine (if_neg (ne_true_of_eq_false lost)).trans ?_
  cases asked : (peerOf s q).probeAt <;> simp only [asked, Option.map, Option.getD]

theorem avoidEnds_rejoins {c k : Nat} {s : State} (avoided : bit (rd s .fabConnCcAvoided c) k = true) :
    avoidEnds c k s =
      let u := reach (pathOf (connOf s c) k).avoidUntil s
      pumpAll c (wr .fabConnCcAvoided c (rd u .fabConnCcAvoided c - 2 ^ k) u) :=
  if_neg (by simp [avoided])

theorem otherTimersComplete : OtherTimersComplete := by
  refine ⟨?_, ?_, ?_, ?_, ?_, ?_⟩
  · intro c s f up conn waits
    exact gives_due rfl up conn (delayedAck_sent waits)
  · intro q s up peer reachable unasked
    exact gives_due rfl up peer (silenceProbe_sent reachable unasked)
  · intro q s t up peer asked
    exact works_work rfl up peer (probeUnanswered_lost asked)
  · intro q s up peer lost
    exact gives_due rfl up peer (unreachableProbe_sent lost)
  · intro c k s up conn avoided
    exact gives_due rfl up conn (avoidEnds_rejoins avoided)
  · intro s up
    exact gives_due (f := baseInterval) rfl up rfl rfl

/-- Settles O25: each timer by the equation of its effect. -/
theorem transportTimersComplete : Obligations.TransportTimersComplete := ⟨rtoExpiryResends, otherTimersComplete⟩

end Sys2Proof.Machine
end

section
/-! PROOFS. Etlos: a port's frame leaves (R326 to R328, R388, R389, R391, R396, R398, R400). -/
namespace Sys2Proof.Machine

open Sys2Proof.Claims

theorem frameStart_down {p : Nat} {s : State} (down : portUsable s p = false) : frameStart p s = s := if_pos (by simp [down])

/-- What is left once queue k of a port has given up its head frame (R388 to R390). -/
def headTaken (p k round : Nat) (l : List EgressQ) (s : State) : State :=
  onPort p (fun x => { x with egress := takeHead s p k l, round := round }) s

section
variable {p : Nat} {s : State} (usable : portUsable s p = true)
include usable

/-- No frame may go: the credits of the weighted group rise (R388, R389). -/
theorem frameStart_spins (none_ : choose s p (portOf s p) = none) : frameStart p s = onPort p (spinRounds s p) s := by
  refine (if_neg (by simp [usable])).trans ?_
  rw [none_]

variable {k round : Nat} {l : List EgressQ} {f : Frame} {rest : List Frame} {q : Nat}
  (chosen : choose s p (portOf s p) = some (k, l, round)) (head : (queueAt l k).frames = f :: rest) (src : f.src = some q)
include chosen head src

/-- The head frame of the chosen queue leaves where its association is up, protected by the next counter (R388, R396, R398,
R400). -/
theorem frameStart_leaves (live : assocUp (headTaken p k round l s) q = true) :
    frameStart p s =
      let s1 := headTaken p k round l s
      let g := { f with keyPhase := rd s1 .fabAssocStateKeyPhase q, counter := (peerOf s1 q).txCounter + 1 }
      let s2 := onPeer q (fun x => { x with txCounter := (peerOf s1 q).txCounter + 1 }) s1
      let w : Sent :=
        { frame := g, dscp := rd s1 .fabEgressCfgDscp (32 * p + k), ecn := 0, pcp := rd s1 .fabEgressCfgPcp (32 * p + k),
          ipv4 := on s1 .fabTransportCfgIpv4 0, tagged := taggedPort s1 p, udp := udpHeader s1 g,
          assoc := assocHeader (peerOf s1 q).assocId g, plain := etlosHeader g ++ g.payload }
      let u := freshen { s2 with wire := s2.wire ++ [w] }
      if counterLast g.counter then trustLapses q 2 u else u := by
  refine (if_neg (by simp [usable])).trans ?_
  unfold headTaken at live ⊢
  simp only [chosen, head, src, live, protect, Bool.not_true, Bool.false_eq_true, if_false]

/-- The head frame of the chosen queue is discarded where its association is not up (R396). -/
theorem frameStart_discards (closed : assocUp (headTaken p k round l s) q = false) : frameStart p s = headTaken p k round l s := by
  refine (if_neg (by simp [usable])).trans ?_
  unfold headTaken at closed ⊢
  simp only [chosen, head, src, closed, Bool.not_false, if_true]

end

/-- Settles O26: a port that is down, one that may send nothing, and the frame that leaves, each by the equation of its effect. -/
theorem egressFrameLeaves : Obligations.EgressFrameLeaves := by
  refine ⟨?_, ?_, ?_⟩
  · intro p s up port down
    exact gives_due rfl up port (frameStart_down down)
  · intro p s up port usable none_
    exact gives_due rfl up port (frameStart_spins usable none_)
  · intro p s k l round f rest q up port usable chosen head src s1
    refine ⟨fun closed => ?_, fun live => ?_⟩
    · exact gives_due rfl up port (frameStart_discards usable chosen head src closed)
    · exact gives_due rfl up port (frameStart_leaves usable chosen head src live)

end Sys2Proof.Machine
end

section
/-! PROOFS. Etlos: the states of ports, and MAC control frames (R371, R386, R403 to R405, R535). -/
namespace Sys2Proof.Machine

open Sys2Proof.Claims

section
variable {p : Nat} {s : State} (planned : rd s .fabPortCfgSpeed p ≠ 0)
include planned

/-- Lanes that align at the planned speed bring the port up, to rest where stage C holds it (R403, R535). -/
theorem portUp_comesUp (low : rd s .fabPortStatusState p ≠ 2) :
    portUp p (rd s .fabPortCfgSpeed p) s =
      let u := postEvent 0 0x0001 (srcPort p) (leBytes 1 p) (forgetBase p (wr .fabPortStatusState p 2 s))
      if stageOn u 3 ∧ 4 ≤ p then wr .fabPortStatusState p 3 (onPort p (fun x => { x with idle := true }) u)
      else each u.conns (fun c => pumpAll c.num) u :=
  (if_neg (not_or.mpr ⟨planned, low⟩)).trans (if_neg (not_not_intro rfl))

/-- Lanes that align at another speed are reported, and the port tries again after 1 s (R371, R403, R405). -/
theorem portUp_otherSpeed {v : Nat} (low : rd s .fabPortStatusState p ≠ 2) (other : v ≠ rd s .fabPortCfgSpeed p) :
    portUp p v s =
      let u := report (srcPort p) .portDown sevDegraded none
        (wr .fabPortStatusState p 4 (wr .fabPortStatusCause p 3 (wr .fabPortStatusEqSettled p 0 s)))
      postEvent 0 0x0002 (srcPort p) (leBytes 1 p ++ leBytes 1 3 ++ leBytes 1 0)
        (onPort p (fun x => { x with retryAt := u.localTime + 1000000000 }) u) :=
  (if_neg (not_or.mpr ⟨planned, low⟩)).trans (if_pos other)

theorem portRetry_trains (waits : rd s .fabPortStatusState p = 0 ∨ rd s .fabPortStatusState p = 4) :
    portRetry p s = wr .fabPortStatusState p 1 (reach (portOf s p).retryAt s) :=
  if_neg (by omega)

/-- A reset takes the port down or drops what it holds, restores its own registers, and trains it (R12, R405). -/
theorem portReset_trains :
    portReset p s =
      let u := if portUsable s p ∨ rd s .fabPortStatusState p = 3 then portDown p 4 0 s else leavePort p s
      wr .fabPortStatusState p 1 (restore (fun d i => match d.kind with
        | .port => (match d.reg with
          | .fabLaneStat => i / 4 == p
          | _ => i == p)
        | _ => false) u) :=
  if_neg planned

end

/-- A port that a failed lane takes down reports it, names the lane, and leaves its connections (R352, R371, R404). -/
theorem portDown_lane (p lane : Nat) (s : State) :
    portDown p 2 lane s =
      let u := bump .fabPortStatusLinkDowns p 1 (wr .fabPortStatusState p 0 (wr .fabPortStatusCause p 2 s))
      let v := postEvent 0 0x0002 (srcPort p) (leBytes 1 p ++ leBytes 1 2 ++ leBytes 1 lane)
        (report (srcPort p) .portDown sevDegraded none (wr .fabPortStatusFailedLane p lane u))
      leavePort p (onPort p (fun x => { x with idle := false, retryAt := v.localTime + 1000000000 }) v) := by
  simp only [portDown, true_or, if_true]

/-- A lane takes its port down where the port is up and uses it (R404). -/
theorem laneFails_used {p lane : Nat} {s : State} (live : rd s .fabPortStatusState p = 2)
    (used : lane < lanesOf (rd s .fabPortCfgSpeed p) (rd s .fabPortCfgLaneClass p)) :
    laneFails p lane s = portDown p 2 lane s := if_pos ⟨live, used⟩

theorem eqSettled_up {p : Nat} {s : State} (live : rd s .fabPortStatusState p = 2) :
    eqSettled p s = wr .fabPortStatusEqSettled p 1 s := if_pos live

theorem portStatesComplete : PortStatesComplete := by
  refine ⟨?_, ?_, ?_, ?_, ?_, ?_, ?_⟩
  · intro p s up port planned low
    exact works_work rfl up port (portUp_comesUp planned low)
  · intro p v s up port planned low other
    exact works_work rfl up port (portUp_otherSpeed planned low other)
  · intro p lane s up port four live used
    exact works_work rfl up (by simp [port, four]) ((laneFails_used live used).trans (portDown_lane p lane s))
  · intro p s up port planned waits
    exact gives_due rfl up port (portRetry_trains planned waits)
  · intro p s up port planned
    exact works_work (f := portReset p) rfl up port (portReset_trains planned)
  · intro fn p s up port function other
    exact works_work rfl up (by simp [port, function]) (if_neg other)
  · intro p s up port live
    exact gives_due rfl up port (eqSettled_up live)

theorem macControlFrameCounted : MacControlFrameCounted := fun p _ up port =>
  gives_due (f := bump .fabPortStatusMacCtrl p 1) rfl up port rfl

/-- Settles O28: the events of a port by the equations of their effects, and the count of its MAC control frames. -/
theorem portEventsComplete : Obligations.PortEventsComplete := ⟨portStatesComplete, macControlFrameCounted⟩

end Sys2Proof.Machine
end

section
/-! PROOFS. Etlos: the steps of a rekey and the outcomes of an attestation (R395, R399, R400, R487, R488). -/
namespace Sys2Proof.Machine

open Sys2Proof.Claims

/-! Rekeys (R399, R400). -/

section
variable {q : Nat} {s : State}

/-- A rekey starts at the age limit where this device starts the rekeys and no counter has reached its own limit, else at once
(R399). -/
theorem rekeyStart_asks (live : assocUp s q = true) (idle : on s .fabAssocStateRekeying q = false) :
    rekeyStart q s =
      let x := peerOf s q
      let at_ := 2 ^ rd s .fabAssocCfgRekeyAt 0
      let u := if initiates s q ∧ x.txCounter < at_ ∧ x.rxHigh < at_
        then reach (x.bornAt + rd s .fabAssocCfgRekeyAge 0 * 3600000000000) s else s
      tell q .rekeyShare (onPeer q (fun x => { x with startedAt := u.localTime }) (wr .fabAssocStateRekeying q 1 u)) :=
  if_neg (by simp [live, idle])

theorem rekeyExchanged_installs (exchange : exchanging s q = true) :
    rekeyExchanged q s = tell q .installed (onPeer q (fun x => { x with nextReady := true }) s) :=
  if_neg (by simp [exchange])

theorem installed_switches (live : assocUp s q = true) (rekeying : on s .fabAssocStateRekeying q = true)
    (old : switched s q = false) :
    installed q s = wr .fabAssocStateKeyPhase q (1 - rd s .fabAssocStateKeyPhase q)
      (onPeer q (fun x => { x with txCounter := 0 }) s) :=
  if_neg (by simp [live, rekeying, old])

/-- The old key is destroyed 1 ms after the first frame of the new phase, and the age of the keys counts anew (R399). -/
theorem retireOldKey_ends {t : Nat} (old : (peerOf s q).oldPhase = true) (since : (peerOf s q).rekeyAt = some t) :
    retireOldKey q s =
      let u := reach (t + 1000000) s
      bump .fabAssocStateRekeys q 1 (wr .fabAssocStateRekeying q 0 (onPeer q (fun x =>
        { x with oldPhase := false, oldSeen := [], oldHigh := 0, rekeyAt := none, bornAt := u.localTime, failSaid := none }) u)) := by
  simp only [retireOldKey, old, since]

/-- A failed exchange ends, and REKEY_FAIL says so unless it has said so within the last second (R400). -/
theorem rekeyFails_ends (failed : Bool) (exchange : exchanging s q = true) :
    rekeyFails q failed s =
      let u := if failed then s else reach ((peerOf s q).startedAt + 50000000) s
      let v := wr .fabAssocStateRekeying q 0 u
      let quiet := ((peerOf u q).failSaid.map (fun t => decide (u.localTime < t + 1000000000))).getD false
      if quiet then v
      else postEvent 0 0x0005 (srcPort 0) (leBytes 2 q) (onPeer q (fun x => { x with failSaid := some v.localTime }) v) := by
  refine (if_neg (by simp [exchange])).trans ?_
  generalize (if failed then s else reach ((peerOf s q).startedAt + 50000000) s) = u
  cases said : (peerOf u q).failSaid <;> simp only [said, Option.map, Option.getD]

theorem rekeyRetry_asks (live : assocUp s q = true) (idle : on s .fabAssocStateRekeying q = false)
    (said : (peerOf s q).failSaid.isSome = true) :
    rekeyRetry q s =
      let u := reach ((peerOf s q).startedAt + 100000000) s
      tell q .rekeyShare (onPeer q (fun x => { x with startedAt := u.localTime }) (wr .fabAssocStateRekeying q 1 u)) :=
  if_neg (by simp [live, idle, Option.isNone_eq_false_iff.mpr said])

end

theorem rekeyStepsComplete : RekeyStepsComplete := by
  refine ⟨?_, ?_, ?_, ?_, ?_, ?_⟩
  · intro q s up peer live idle
    exact gives_due rfl up peer (rekeyStart_asks live idle)
  · intro q s up peer exchange
    exact gives_due rfl up peer (rekeyExchanged_installs exchange)
  · intro q s up peer live rekeying old
    exact gives_due rfl up peer (installed_switches live rekeying old)
  · intro q s t up peer old since
    exact gives_due rfl up peer (retireOldKey_ends old since)
  · intro q failed s up peer exchange
    exact gives_due rfl up peer (rekeyFails_ends failed exchange)
  · intro q s up peer live idle said
    exact gives_due rfl up peer (rekeyRetry_asks live idle said)

/-! Mutual attestations (R395, R487, R488). -/

/-- The checks of an attestation hold: of an LY-9 all five, of another peer those of the chain and the measurements (R487). -/
def attestHolds (s : State) (q : Nat) (o : AttestOutcome) : Bool :=
  let device := ((peerPlan s q).map (fun r => r.kind == .ly9)).getD false
  o.chainOk && (!device || (o.lmsOk && o.deviceIdOk && o.confEqual)) && o.measuresOk

/-- A peer is trusted, and its association is up at phase 0 with a fresh record (R395, R487). -/
def trusts (q : Nat) (s : State) : State :=
  let u := wr .secPeerTrustTrusted q 1 (wr .fabAssocStateKeyPhase q 0 (wr .fabAssocStateRekeying q 0 (wr .fabAssocStateState q 2 s)))
  onPeer q (fun x => { Peer.fresh q with
    reachable := x.reachable, bornAt := u.localTime, lastHeard := u.localTime, assocId := freeBits u 32 }) (freshen u)

/-- An attestation by its two questions: whether its checks hold, and whether the association is up. -/
theorem peerAttested_eq (q : Nat) (o : AttestOutcome) (s : State) :
    peerAttested q o s =
      if attestHolds s q o && assocUp s q then s
      else if attestHolds s q o then peerAnswers q (trusts q s)
      else
        let v := bump .secPeerTrustFails q 1 s
        if on v .secPeerTrustTrusted q ∨ assocUp v q then trustLapses q 3 v else wr .secPeerTrustCause q 3 v := by
  unfold peerAttested attestHolds
  cases peerPlan s q <;> rfl

section
variable {q : Nat} {o : AttestOutcome} {s : State}

theorem peerAttested_trusts (holds : attestHolds s q o = true) (closed : assocUp s q = false) :
    peerAttested q o s = peerAnswers q (trusts q s) := by
  simp [peerAttested_eq, holds, closed]

theorem peerAttested_again (holds : attestHolds s q o = true) (live : assocUp s q = true) : peerAttested q o s = s := by
  simp [peerAttested_eq, holds, live]

theorem peerAttested_fails (fails : attestHolds s q o = false) :
    peerAttested q o s =
      let v := bump .secPeerTrustFails q 1 s
      if on v .secPeerTrustTrusted q ∨ assocUp v q then trustLapses q 3 v else wr .secPeerTrustCause q 3 v := by
  simp [peerAttested_eq, fails]

end

theorem peerAttestationCompletes : PeerAttestationCompletes := by
  intro q s o up peer device holds u fresh v
  refine ⟨fun ok closed => ?_, fun ok live => ?_, fun fails => ?_⟩
  · exact works_work rfl up peer (peerAttested_trusts ok closed)
  · exact works_work rfl up peer (peerAttested_again ok live)
  · exact works_work rfl up peer (peerAttested_fails fails)

/-- Settles O27: the steps of a rekey and the outcomes of an attestation, each by the equation of its effect. -/
theorem associationEventsComplete : Obligations.AssociationEventsComplete := ⟨rekeyStepsComplete, peerAttestationCompletes⟩

end Sys2Proof.Machine
end

section
/-! PROOFS. Host port: every row answers, and the queue drains. -/
namespace Sys2Proof.Machine

open Sys2Proof.Claims

/-- An outcome under a check of operands: a next state with the queue as it was where the check holds, and else the fault of
a unit that the device lacks (log entry 3). -/
def AnswersUnder (ok : Bool) (s : State) (o : Out State) : Prop :=
  (ok = true → ∃ t, o = .next t ∧ t.pending = s.pending) ∧ (ok = false → o = .fault .noSuchUnit)

section
variable {ok : Bool} {s : State} {f : State → State}

theorem due_answersUnder : AnswersUnder ok s (due ok s f) :=
  ⟨fun h => h ▸ due_answers f, fun h => h ▸ due_bad⟩

theorem work_answersUnder : AnswersUnder ok s (work ok s f) := due_answersUnder

theorem always_answersUnder : AnswersUnder ok s (always ok s f) :=
  ⟨fun h => h ▸ always_answers f, fun h => h ▸ rfl⟩

theorem workAlways_answersUnder : AnswersUnder ok s (workAlways ok s f) := always_answersUnder

theorem inHold_answersUnder : AnswersUnder ok s (inHold ok s f) := always_answersUnder

end

/-- Every row answers through one of the wrappers, under the check of its own operands. -/
theorem exec_answersUnder (c : Instr) (s : State) : AnswersUnder c.wf s (exec c s) := by
  cases c with
  | macControlFrame | delayedAck | silenceProbe | unreachableProbe | avoidHoldExpiry | baseRttInterval | egressFrameStart
  | rekeyStart | rekeyExchangeDone | rxInstalled | oldKeyRetire | rekeyTimeout | rekeyRetry | portLinkRetry | serdesEqSettled
  | dmaTimeout | dmaCompleterAbort | coalTimer | stockProbe | replicaPush | replicaHitReport | popHalving | tableFetchRequest
  | replicaWithdraw | sessionKeyExpiry | trialConfirmTimer | fwConfirm | liveActivate | abtoserFault | deviceQuiet
  | quietIdleTimer | powerStateEntryDone | knownEventWake | p3PollWake | p3PollHoldEnd => exact due_answersUnder
  | pcieLinkUp | pcieSurpriseDown | busMasterEnableWrite | registerWrite | boot | hrefclkLoss => exact workAlways_answersUnder
  | pcieHotReset | evtRingEnable | evtRingDisable | registerRead | sidebandRegisterRead | captureClear | alertClear
  | logReadAdvance | logBudgetWindow | pldmBaseRequest | pldmPlatformRequest | pldmFruRequest | fatalHoldExpiry
  | pldmFwComponent | pldmActivateFirmware | powerOn | tileStart | vauxFail | perstAssert | perstDeassert | supplyReset
  | thermalTrip | thermalTripRelease => exact always_answersUnder
  | tillSnap | tillClear | telemetrySnapshot | supplyStageEnter | powerCapAction | powerCapRelease
  | thermalStep | thermalRecover | pwrCtrlWrite | auxclkLoss | onfiVccqOvercurrent => exact inHold_answersUnder
  | supplyStageEnd k mv => exact inHold_answersUnder (f := fun s => resumePushes (endStage k mv s))
  | _ => exact work_answersUnder

/-- Settles O2, row by row. -/
theorem everyCommandAnswers : Obligations.EveryCommandAnswers := exec_answersUnder

/-- Settles O3: the command at the front answers and leaves the rest of the queue. -/
theorem queueInvariantKept : Obligations.QueueInvariantKept := by
  intro s wf
  cases queue : s.pending with
  | nil => exact ⟨s, step_nil queue, queue, wf⟩
  | cons c rest =>
    have whole : ∀ x ∈ c :: rest, x.wf = true := queue ▸ wf
    obtain ⟨t, answer, (left : t.pending = rest)⟩ := (exec_answersUnder c { s with pending := rest }).1 (whole c List.mem_cons_self)
    exact ⟨t, (step_cons queue).trans answer, left, fun x hx => whole x (List.mem_cons_of_mem c (left ▸ hx))⟩

/-- As many steps as commands wait all answer, and the queue is then empty. -/
theorem runSteps_drains : ∀ (n : Nat) (s : State), QueueOk s → s.pending.length = n → ∃ t, runSteps n s = some t ∧ t.pending = []
  | 0, s, _, len => ⟨s, rfl, List.eq_nil_of_length_eq_zero len⟩
  | n + 1, s, wf, len => by
    obtain ⟨u, answer, left, wf'⟩ := queueInvariantKept s wf
    obtain ⟨t, runs, empty⟩ := runSteps_drains n u wf' (by simp [left, len])
    exact ⟨t, by rw [runSteps, answer]; exact runs, empty⟩

/-- Settles O5, by the invariant of O3 and induction on the length of the queue. -/
theorem queueDrains : Obligations.QueueDrains := fun s wf => runSteps_drains _ s wf rfl

/-- Settles O6: a row that starts at once has the effect of its operation. -/
theorem ringCommandRuns : Obligations.RingCommandRuns := fun _ _ _ _ _ _ => works_started

end Sys2Proof.Machine
end

section
/-! PROOFS. Host port: the checks of every entry (R439, R466). -/
namespace Sys2Proof.Machine

open Sys2Proof.Claims

/-- The first of a list of checks that fails: its status. -/
def firstFailure (l : List (Bool × Status)) : Option Status := (l.find? (fun x => x.1)).map (fun x => x.2)

theorem firstFailure_cons_or (b : Bool) (st : Status) (l : List (Bool × Status)) (last : Option Status) :
    (firstFailure ((b, st) :: l)).or last = if b then some st else (firstFailure l).or last := by
  cases b <;> rfl

/-- The checks of R439 in their order, and then that of R466. -/
theorem headerCheck_eq (s : State) (op : Opcode) (fn : Nat) (e : Entry) :
    headerCheck s (some op) fn e = (firstFailure (headerFailures s op fn e)).or
      (if fn ≠ 0 ∧ pitchState s (fn - 1) = 1 ∧ op ≠ .attest then some .badState else none) := by
  have bound : (decide (fn ≠ 0) && !(pitchState s (fn - 1) == 1 || pitchState s (fn - 1) == 2)) = notBound s fn := by
    cases fn <;> rfl
  have chit : (decide (fieldOf e 4 4 ≠ 0xFFFFFFFF) && !(chitOwned s fn (fieldOf e 4 4))) = true
      ↔ fieldOf e 4 4 ≠ noChit ∧ chitOwned s fn (fieldOf e 4 4) = false := by simp [noChit]
  have reserved : (decide (bits (fieldOf e 1 1) 2 6 ≠ 0) || !(zeroAt e 0x0C 4)
        || (decide (fieldOf e 8 4 ≠ 0) && !(bit (fieldOf e 1 1) flagChained))) = true
      ↔ bits (fieldOf e 1 1) 2 6 ≠ 0 ∨ !(zeroAt e 0x0C 4) ∨ (fieldOf e 8 4 ≠ 0 ∧ bit (fieldOf e 1 1) flagChained = false) := by
    simp [or_assoc]
  simp only [headerFailures, firstFailure_cons_or, bound, chit, reserved]
  rfl

theorem headerCheck_fails {s : State} {op : Opcode} {fn : Nat} {e : Entry} {st : Status}
    (fails : firstFailure (headerFailures s op fn e) = some st) : headerCheck s (some op) fn e = some st := by
  rw [headerCheck_eq, fails, Option.some_or]

/-- An entry that is fetched and fails a check does nothing else. -/
theorem fetchEntry_fails {op : Opcode} {r fn : Nat} {e : Entry} {s t : State} {a : Accepted} {rest : List Accepted} {c : Cmd}
    {st : Status} (ring : ringFn s r = some fn) (queue : (ringOf s r).accepted = a :: rest) (fetch : mayFetch s r = true)
    (there : entryThere s r a.slot e = true) (made : c = cmdOfEntry s (some op) r fn a e)
    (fetched : t = onRing r (fun x => { x with accepted := rest }) { s with cmds := s.cmds ++ [c] })
    (fails : headerCheck t (some op) fn e = some st) :
    fetchEntry (some op) r e s = failCmd (some op) c.id st (startedCmd c.id t) := by
  simp only [fetchEntry, ring, queue, fetch, there, Bool.not_true, Bool.or_self, Bool.false_eq_true, if_false, ← made, ← fetched, fails]
  rfl

/-- Settles O60: the list of checks is the order in which they are made, and an entry that fails one comes to nothing else. -/
theorem headerChecks : Obligations.HeaderChecks := by
  refine ⟨badOpcodeCompletes, ?_⟩
  intro op r e s fn a rest st up ok ring queue fetch e' there c t fails
  exact works_work (exec_submitRow op r e s) up ok (fetchEntry_fails ring queue fetch there rfl rfl (headerCheck_fails fails))

end Sys2Proof.Machine
end

section
/-! PROOFS. Host port: the commands of the chit unit, and host writes to chits (R441 to R446). -/
namespace Sys2Proof.Machine

open Sys2Proof.Claims

/-! CHIT_SET and CHIT_ADD (R442). -/

section
variable {c : Cmd} {add : Bool} {s : State}

theorem chitUpdateCmd_ok (owned : chitOwned s (cmdOwner s c) (fieldOf c.entry 0x10 4) = true)
    (zero₁ : zeroAt c.entry 0x14 4 = true) (zero₂ : zeroAt c.entry 0x20 32 = true) :
    chitUpdateCmd c add s =
      complete c.id .ok (if add then (chitVal s (fieldOf c.entry 0x10 4) + fieldOf c.entry 0x18 8) % 2 ^ 64 else fieldOf c.entry 0x18 8)
        (updateChit (if add then .add (fieldOf c.entry 0x10 4) (fieldOf c.entry 0x18 8)
          else .set (fieldOf c.entry 0x10 4) (fieldOf c.entry 0x18 8)) s) := by
  simp [chitUpdateCmd, owned, zero₁, zero₂]

theorem chitUpdateCmd_foreign (foreign : chitOwned s (cmdOwner s c) (fieldOf c.entry 0x10 4) = false) :
    chitUpdateCmd c add s = failWord c.id .access s := if_pos (by simp [foreign])

theorem chitUpdateCmd_reserved (owned : chitOwned s (cmdOwner s c) (fieldOf c.entry 0x10 4) = true)
    (nonzero : zeroAt c.entry 0x14 4 = false ∨ zeroAt c.entry 0x20 32 = false) :
    chitUpdateCmd c add s = failWord c.id .badParam s :=
  (if_neg (by simp [owned])).trans (if_pos (by simpa using nonzero))

end

/-- A row of CHIT_SET or CHIT_ADD that starts runs the one operation of both. -/
theorem works_chitUpdate {op : Opcode} {r : Nat} {e : Entry} {s t u : State} {c : Cmd} (either : op ∈ [Opcode.chitSet, .chitAdd])
    (starts : started op r e s = some (c, t)) (effect : chitUpdateCmd c (op == .chitAdd) t = u) : Works (submitRow op r e) s u := by
  refine works_of_runOp starts (.trans ?_ effect)
  rw [runOp, (started_cmd starts).1]
  rcases List.mem_pair.mp either with rfl | rfl <;> rfl

theorem chitValuesSet : ChitValuesSet :=
  ⟨fun _ _ _ _ _ starts owned zero₁ zero₂ => works_chitUpdate (by simp) starts (chitUpdateCmd_ok owned zero₁ zero₂),
    fun _ _ _ _ _ starts owned zero₁ zero₂ => works_chitUpdate (by simp) starts (chitUpdateCmd_ok owned zero₁ zero₂)⟩

/-- Settles O48: the two commands are one operation, whose checks come before its update. -/
theorem chitSetAndAdd : Obligations.ChitSetAndAdd :=
  ⟨chitValuesSet, fun _ either _ _ _ _ _ starts foreign => works_chitUpdate either starts (chitUpdateCmd_foreign foreign),
    fun _ either _ _ _ _ _ starts owned nonzero => works_chitUpdate either starts (chitUpdateCmd_reserved owned nonzero)⟩

/-! CHIT_WAIT and its deadline (R443 to R445). -/

theorem bnot_ne_true {b : Bool} (h : b = true) : ¬ (!b) = true := by simp [h]

/-- A CHIT_WAIT that passes its checks and whose threshold is not reached arms its trigger. -/
theorem opChitWait_arms {c : Cmd} {t : State} {g : Trigger} (trigger : g = triggerOf c (cmdOwner t c) t.localTime)
    (owned : chitOwned t g.owner g.index = true) (action : g.action ≤ 3) (zero₁ : zeroAt c.entry 0x15 1 = true)
    (zero₂ : zeroAt c.entry 0x26 2 = true) (zero₃ : zeroAt c.entry 0x36 2 = true) (deadline : fieldOf c.entry 0x20 4 ≤ 60000000)
    (fields : actionOk t g.owner g (fieldOf c.entry 0x28 4) = true)
    (quota : countBy (fun (x : Trigger) => x.owner == g.owner) t.triggers < rd t .pciChitRangeTrigQuota g.owner)
    (below : chitVal t g.index < g.threshold) :
    opChitWait c t = startedCmd c.id { t with triggers := t.triggers ++ [g] } := by
  subst trigger
  have kind : ¬ (3 < fieldOf c.entry 0x14 1 ∨ !(zeroAt c.entry 0x15 1) ∨ !(zeroAt c.entry 0x26 2) ∨ !(zeroAt c.entry 0x36 2)
      ∨ 60000000 < fieldOf c.entry 0x20 4) := by simp [zero₁, zero₂, zero₃, deadline, show fieldOf c.entry 0x14 1 ≤ 3 from action]
  exact (if_neg (bnot_ne_true owned)).trans <| (if_neg kind).trans <| (if_neg (bnot_ne_true fields)).trans <|
    (if_neg (Nat.not_le.mpr quota)).trans (if_neg (Nat.not_le.mpr below))

theorem chitWaitArms : ChitWaitArms := by
  intro r e s c t starts g owned action zero₁ zero₂ zero₃ deadline fields quota below
  refine works_of_runOp (op := .chitWait) starts (.trans (by rw [runOp, (started_cmd starts).1]) ?_)
  exact opChitWait_arms rfl owned action zero₁ zero₂ zero₃ deadline fields quota below

theorem chitDeadline_passes {id d : Nat} {s : State} {g : Trigger} (armed : s.triggers.find? (fun t => t.cmd == id) = some g)
    (deadline : g.deadline = some d) :
    chitDeadline id s = complete id .timeout 0 (reach d { s with triggers := drop (fun x => x.cmd == id) s.triggers }) := by
  simp only [chitDeadline, armed, deadline]

theorem chitDeadlinePasses : ChitDeadlinePasses :=
  fun _ _ _ _ up armed deadline => works_work rfl up rfl (chitDeadline_passes armed deadline)

/-! Host writes to the chit pages (R446). -/

theorem chitPageWrite_own {fn c v : Nat} {s : State} (page : c < 16384) (owned : chitOwned s fn c = true) :
    chitPageWrite fn (0x400000 + 8 * c) 8 v s = updateChit (.set c v) (startWake s) := by
  have chit : (0x400000 + 8 * c - 0x400000) / 8 = c := by omega
  exact (if_neg (by omega)).trans ((if_pos ⟨rfl, by omega, chit.symm ▸ owned⟩).trans (by rw [chit]))

theorem chitPageWrite_refused {fn off size v : Nat} {s : State} (low : 0x400000 ≤ off) (high : off < 0x420000)
    (other : size ≠ 8 ∨ off % 8 ≠ 0 ∨ chitOwned s fn ((off - 0x400000) / 8) = false) :
    chitPageWrite fn off size v s
      = report srcHost .refusedAccess sevContained (if fn = 0 then none else some (fn - 1)) (startWake s) := by
  refine (if_neg (by omega)).trans (if_neg fun own => ?_)
  obtain ⟨eight, aligned, owned⟩ := own
  simp [eight, aligned, owned] at other

theorem chitWriteCompletes : ChitWriteCompletes :=
  ⟨fun _ _ _ _ up fnThere page owned => works_work rfl up fnThere (chitPageWrite_own page owned),
    fun _ _ _ _ _ up fnThere low high other => works_work rfl up fnThere (chitPageWrite_refused low high other)⟩

/-- Settles O31, command by command. -/
theorem chitCommandsComplete : Obligations.ChitCommandsComplete :=
  ⟨chitValuesSet, chitWaitArms, chitDeadlinePasses, chitWriteCompletes⟩

end Sys2Proof.Machine
end

section
/-! PROOFS. Host port: the bytes of completions, status records and report records (R10, R97, R217, R436, R438). -/
namespace Sys2Proof.Machine

open Sys2Proof.Claims

/-! Numbers in byte strings, lowest byte first (R10). -/

@[simp] theorem leBytes_length : ∀ n v : Nat, (leBytes n v).length = n
  | 0, _ => rfl
  | n + 1, v => by rw [leBytes, List.length_cons, leBytes_length n]

theorem leNat_leBytes : ∀ n v : Nat, leNat (leBytes n v) = v % 256 ^ n
  | 0, v => by simp [leBytes, leNat, Nat.mod_one]
  | n + 1, v => by
    rw [leBytes, leNat, leNat_leBytes n, BitVec.toNat_ofNat, Nat.pow_succ' (n := n), Nat.mod_mul (a := 256)]

@[simp] theorem leAt_leBytes (n v : Nat) : leAt (leBytes n v) 0 n = v % 256 ^ n := by
  rw [leAt, List.drop_zero, List.take_of_length_le (by simp), leNat_leBytes]

theorem leAt_append_left {a b : Bytes} {off n : Nat} (h : off + n ≤ a.length) : leAt (a ++ b) off n = leAt a off n := by
  rw [leAt, leAt, List.drop_append_of_le_length (by omega), List.take_append_of_le_length (by rw [List.length_drop]; omega)]

theorem leAt_append_right {a b : Bytes} {off n : Nat} (h : a.length ≤ off) : leAt (a ++ b) off n = leAt b (off - a.length) n := by
  rw [leAt, leAt, List.drop_append, List.drop_of_length_le h, List.nil_append]

/-- A field of a table of records of one size. -/
theorem leAt_flatMap {α : Type} {f : α → Bytes} {w off n : Nat} (width : ∀ x, (f x).length = w) (fits : off + n ≤ w) :
    ∀ (l : List α) (i : Nat) (x : α), l[i]? = some x → leAt (l.flatMap f) (w * i + off) n = leAt (f x) off n
  | y :: l, 0, x, found => by
    obtain rfl : y = x := by simpa using found
    rw [List.flatMap_cons, Nat.mul_zero, Nat.zero_add, leAt_append_left (by rw [width]; exact fits)]
  | y :: l, i + 1, x, found => by
    rw [List.flatMap_cons, leAt_append_right (by rw [width, Nat.mul_succ]; omega), width,
      ← leAt_flatMap width fits l i x (by simpa using found)]
    congr 1
    rw [Nat.mul_succ]
    omega

/-! Status codes (R438). -/

/-- A status code is one byte. -/
theorem Status.code_lt (st : Status) : st.code < 256 := by cases st <;> decide

theorem leAt_compBytes (r : Nat) (k : Completion) (phase head : Nat) :
    let b := compBytes r k phase head
    b.length = 16 ∧ leAt b 0 2 = k.tag % 256 ^ 2 ∧ leAt b 2 1 = k.status.code ∧ leAt b 3 1 = phase % 256 ∧ leAt b 4 2 = head % 256 ^ 2
      ∧ leAt b 6 2 = r % 256 ^ 2 ∧ leAt b 8 8 = k.result % 256 ^ 8 := by
  have code := Nat.mod_eq_of_lt k.status.code_lt
  simp [compBytes, leAt_append_left, leAt_append_right, code]

theorem leAt_statusRecord (a : Attend) (h : Shape) (p : Part) : leAt (statusRecord a h p) 0 1 = (p.status.getD .ok).code := by
  have code := Nat.mod_eq_of_lt (p.status.getD .ok).code_lt
  simp [statusRecord, leAt_append_left, code]

theorem leAt_reportBytes {x : Publish} {i : Nat} {p : Option Status × Bool × Bool × Nat} (page : x.pages[i]? = some p) :
    leAt (reportBytes x) (16 * i) 1 = (p.1.getD .ok).code := by
  have code := Nat.mod_eq_of_lt (p.1.getD .ok).code_lt
  have record := leAt_flatMap (off := 0) (n := 1) (w := 16) (f := fun (p : Option Status × Bool × Bool × Nat) =>
    leBytes 1 ((p.1.getD .ok).code) ++ leBytes 1 (b2n p.2.1 + 2 * b2n p.2.2.1) ++ leBytes 6 0 ++ leBytes 8 p.2.2.2)
    (fun _ => by simp) (by omega) x.pages i p page
  rw [reportBytes, ← Nat.add_zero (16 * i), record]
  simp [leAt_append_left, code]

/-- Settles O41: the codes are those of the table, and each record has its code in its first byte. -/
theorem statusCodes : Obligations.StatusCodes := by
  refine ⟨by decide, fun r k phase head => ?_, leAt_statusRecord, fun _ _ _ => leAt_reportBytes⟩
  obtain ⟨-, -, code, -⟩ := leAt_compBytes r k phase head
  exact code

/-- Settles O42: each field is at its offset, and a number of its width reads back. -/
theorem completionLayout : Obligations.CompletionLayout := by
  refine ⟨fun r k phase head ring tag phase₁ head₁ result => ?_, fun r k s => ⟨_, _, rfl⟩⟩
  obtain ⟨len, tag', code, phase', head', ring', result'⟩ := leAt_compBytes r k phase head
  refine ⟨len, tag'.trans ?_, code, phase'.trans ?_, head'.trans ?_, ring'.trans ?_, result'.trans ?_⟩ <;>
    exact Nat.mod_eq_of_lt (by omega)

end Sys2Proof.Machine
end

section
/-! PROOFS. Host port: what a report changes (R563 to R577). -/
namespace Sys2Proof.Machine

/-- The fields that a report writes: those of the log, the capture and alarm fields, and the state of event rings. -/
def reportField (f : Fld) : Bool :=
  logField f || f.desc.reg == .errCapture || f.desc.reg == .errAlarm || f.desc.reg == .errEvtState

/-- From s to t nothing has changed but the crier, the free values taken, what goes toward the host and into event rings, and the
fields that a report writes. -/
def OnlyReports (s t : State) : Prop :=
  ∃ regs crier fresh hall hostMem msix dmaWait,
    t = { s with regs := regs, crier := crier, fresh := fresh, hall := hall, hostMem := hostMem, msix := msix, dmaWait := dmaWait }
    ∧ ∀ f i, reportField f = false → rd t f i = rd s f i

section
variable {s t u : State}

theorem OnlyReports.refl (s : State) : OnlyReports s s :=
  ⟨s.regs, s.crier, s.fresh, s.hall, s.hostMem, s.msix, s.dmaWait, rfl, fun _ _ _ => rfl⟩

theorem OnlyReports.trans (h : OnlyReports s t) (k : OnlyReports t u) : OnlyReports s u := by
  obtain ⟨_, _, _, _, _, _, _, rfl, hr⟩ := h
  obtain ⟨regs, crier, fresh, hall, hostMem, msix, dmaWait, rfl, kr⟩ := k
  exact ⟨regs, crier, fresh, hall, hostMem, msix, dmaWait, rfl, fun f i e => (kr f i e).trans (hr f i e)⟩

theorem OnlyLogs.onlyReports (h : OnlyLogs s t) : OnlyReports s t := by
  obtain ⟨regs, crier, fresh, rfl, hr⟩ := h
  refine ⟨regs, crier, fresh, s.hall, s.hostMem, s.msix, s.dmaWait, rfl, fun f i e => hr f i ?_⟩
  simp only [reportField, Bool.or_eq_false_iff] at e
  obtain ⟨⟨⟨log, -⟩, -⟩, -⟩ := e
  exact log

theorem OnlyReports.of_wr (h : OnlyReports s t) {f : Fld} {i v : Nat} (hf : reportField f = true) : OnlyReports s (wr f i v t) := by
  refine h.trans ⟨_, _, _, _, _, _, _, rfl, fun g j hg => rd_wr_ne t f g i j v (.inl fun e => ?_)⟩
  rw [e, hg] at hf
  contradiction

theorem OnlyReports.of_bump (h : OnlyReports s t) {f : Fld} {i n : Nat} (hf : reportField f = true) :
    OnlyReports s (bump f i n t) := h.of_wr hf

theorem OnlyReports.of_freshen (h : OnlyReports s t) : OnlyReports s (freshen t) :=
  h.trans ⟨t.regs, t.crier, t.fresh + 1, t.hall, t.hostMem, t.msix, t.dmaWait, rfl, fun _ _ _ => rfl⟩

theorem OnlyReports.of_crier (h : OnlyReports s t) (c : Crier) : OnlyReports s { t with crier := c } :=
  h.trans ⟨t.regs, c, t.fresh, t.hall, t.hostMem, t.msix, t.dmaWait, rfl, fun _ _ _ => rfl⟩

theorem OnlyReports.of_hall (h : OnlyReports s t) (m : Memory) : OnlyReports s { t with hall := m } :=
  h.trans ⟨t.regs, t.crier, t.fresh, m, t.hostMem, t.msix, t.dmaWait, rfl, fun _ _ _ => rfl⟩

theorem OnlyReports.of_dmaWait (h : OnlyReports s t) (l : List (Nat × DmaOut)) : OnlyReports s { t with dmaWait := l } :=
  h.trans ⟨t.regs, t.crier, t.fresh, t.hall, t.hostMem, t.msix, l, rfl, fun _ _ _ => rfl⟩

theorem OnlyReports.of_dmaPut (h : OnlyReports s t) (fn : Nat) (d : DmaOut) : OnlyReports s (dmaPut fn d t) := by
  cases d with
  | write a bs => exact h.trans ⟨t.regs, t.crier, t.fresh, t.hall, _, t.msix, t.dmaWait, rfl, fun _ _ _ => rfl⟩
  | msix v => exact h.trans ⟨t.regs, t.crier, t.fresh, t.hall, t.hostMem, _, t.dmaWait, rfl, fun _ _ _ => rfl⟩

theorem OnlyReports.of_dmaOut (h : OnlyReports s t) (fn : Nat) (d : DmaOut) : OnlyReports s (dmaOut fn d t) := by
  unfold dmaOut
  split
  · exact h
  · split
    · exact h.of_dmaWait _
    · exact h.of_dmaPut fn d

theorem OnlyReports.of_fire (h : OnlyReports s t) (fn v : Nat) : OnlyReports s (fire fn v t) := by
  unfold fire
  split
  · exact h.of_dmaOut fn _
  · exact h

theorem OnlyReports.of_fireAlarm (h : OnlyReports s t) : OnlyReports s (fireAlarm t) := by
  unfold fireAlarm
  extract_lets v
  split
  · exact h
  · split
    · exact h.of_dmaWait _
    · exact h.of_dmaPut 0 _

theorem OnlyReports.of_logWrite (h : OnlyReports s t) (e : LogEntry) : OnlyReports s (logWrite e t).2 :=
  h.trans ((OnlyLogs.refl t).of_logWrite e).onlyReports

theorem OnlyReports.of_capture (h : OnlyReports s t) (src sev code : Nat) (p : Option Nat) (d0 d1 : Nat) :
    OnlyReports s (capture src sev code p d0 d1 t) := by
  unfold capture
  extract_lets fill
  have filled (above : Nat) {v : State} (k : OnlyReports s v) : OnlyReports s (fill above v) :=
    (((((((((k.of_wr rfl).of_wr rfl).of_wr rfl).of_wr rfl).of_wr rfl).of_wr rfl).of_wr rfl).of_wr rfl).of_wr rfl).of_wr rfl
  split
  · exact filled 0 (h.of_wr rfl)
  · split
    · exact filled 1 h
    · exact h.of_bump rfl

theorem OnlyReports.of_alarms (h : OnlyReports s t) (sev : Nat) (c : Cond) : OnlyReports s (alarms sev c t) := by
  unfold alarms
  split
  · exact h
  · have alert : OnlyReports s (wr .errAlarmAlert 0 1 t) := h.of_wr rfl
    extract_lets u
    split
    · exact alert
    · split
      · exact (alert.of_wr rfl).of_fireAlarm
      · exact alert.of_fireAlarm

theorem OnlyReports.of_budget (h : OnlyReports s t) (src sev : Nat) : OnlyReports s (budget src sev t).2 := by
  unfold budget
  extract_lets now b
  split
  · exact h
  · exact h.of_crier _

theorem OnlyReports.of_postEvent (h : OnlyReports s t) (fn code source : Nat) (data : Bytes) :
    OnlyReports s (postEvent fn code source data t) := by
  unfold postEvent
  extract_lets size tail phase lost entry
  split
  · exact h
  · split
    · rename_i inHall base there
      extract_lets u c v w
      have stored : OnlyReports s u := by
        show OnlyReports s (if _ then _ else _)
        split
        · exact h.of_hall _
        · exact h.of_dmaOut fn _
      have counted : OnlyReports s v := stored.of_crier _
      have moved : OnlyReports s w := by
        show OnlyReports s (if _ then _ else _)
        split
        · exact (counted.of_wr rfl).of_wr rfl
        · exact counted.of_wr rfl
      exact moved.of_fire fn _
    · exact (h.of_bump rfl).of_crier _

theorem OnlyReports.of_postTo (h : OnlyReports s t) (fns : List Nat) (code source : Nat) (data : Bytes) :
    OnlyReports s (postTo fns code source data t) :=
  each_invariant (OnlyReports s) _ fns t h fun fn _ _ k => k.of_postEvent fn code source data

theorem OnlyReports.of_errorEvent (h : OnlyReports s t) (src sev code : Nat) (p place : Option Nat) :
    OnlyReports s (errorEvent src sev code p place t) := by
  unfold errorEvent
  split
  · exact h.of_postTo ..
  · exact h

theorem OnlyReports.of_reportWith (h : OnlyReports s t) (src : Nat) (c : Cond) (sev : Nat) (p : Option Nat) (d0 d1 : Nat) :
    OnlyReports s (reportWith src c sev p d0 d1 t) := by
  unfold reportWith
  extract_lets e0 e1 u v e
  have said : OnlyReports s v := (h.of_freshen.of_capture ..).of_alarms sev c
  split
  · exact said.of_logWrite e
  · have spent := said.of_budget src sev
    split <;> rename_i w kept <;> rw [kept] at spent
    · exact spent.of_bump rfl
    · exact (spent.of_logWrite e).of_errorEvent ..

theorem OnlyReports.of_report (h : OnlyReports s t) (src : Nat) (c : Cond) (sev : Nat) (p : Option Nat) :
    OnlyReports s (report src c sev p t) := h.of_freshen.of_freshen.of_reportWith ..

end

end Sys2Proof.Machine
end

section
/-! PROOFS. Host port: doorbells, ring switches, ring and DMA errors, and the coalescing timer (R421 to R432, R457). -/
namespace Sys2Proof.Machine

open Sys2Proof.Claims

/-! Enabling a ring (R424). -/

/-- A ring as ENABLE sets it, before the CONFIG check: pointers at 0, phase 1, nothing accepted, unread or held. -/
def freshRing (r : Nat) (s : State) : State :=
  wr .pciRingStateHead r 0 (wr .pciRingStateTail r 0 (wr .pciRingStateCompTail r 0 (wr .pciRingStatePhase r 1
    (wr .pciRingStateCause r 0 (wr .pciRingStateState r 1 (putRing { Ring.fresh r with gen := (ringOf s r).gen + 1 } s))))))

theorem enableRing_eq (r fn : Nat) (s : State) : enableRing r fn s =
    if ringConfigOk (freshRing r s) r fn then freshRing r s else ringError r 4 (freshRing r s) := rfl

theorem ringOf_num (s : State) (r : Nat) : (ringOf s r).num = r := by
  unfold ringOf
  cases h : s.rings.find? (fun x => x.num == r) with
  | none => rfl
  | some x => simpa using List.find?_some h

theorem ringOf_freshRing (r : Nat) (s : State) : ringOf (freshRing r s) r = { Ring.fresh r with gen := (ringOf s r).gen + 1 } := by
  have put := ringOf_onRing r (fun x => { Ring.fresh x.num with gen := x.gen + 1 }) s fun _ => rfl
  simp only [onRing, ringOf_num] at put
  simpa only [ringOf, freshRing, wr_rings] using put

theorem freshRing_empty (r : Nat) (s : State) :
    let t := freshRing r s
    rd t .pciRingStateHead r = 0 ∧ rd t .pciRingStateTail r = 0 ∧ rd t .pciRingStateCompTail r = 0
      ∧ rd t .pciRingStatePhase r = 1 ∧ rd t .pciRingStateCause r = 0 ∧ (ringOf t r).accepted = [] ∧ (ringOf t r).unread = 0
      ∧ (ringOf t r).heldComps = [] := by
  intro t
  refine ⟨?_, ?_, ?_, ?_, ?_, by rw [ringOf_freshRing]; rfl, by rw [ringOf_freshRing]; rfl, by rw [ringOf_freshRing]; rfl⟩
  · simp [t, freshRing]
  · simp [t, freshRing, rd_wr_ne]
  · simp [t, freshRing, rd_wr_ne]
  · simp [t, freshRing, rd_wr_ne, Fld.desc]
  · simp [t, freshRing, rd_wr_ne]

/-- A ring in error is not running (R432). -/
theorem ringError_state {r cause fn : Nat} {s : State} (ring : ringFn s r = some fn) :
    rd (ringError r cause s) .pciRingStateState r = 2 := by
  let v := wr .pciRingStateCause r cause (wr .pciRingStateState r 2 (stopRing r s))
  have said : OnlyReports v (ringError r cause s) := by
    simp only [ringError, ring]
    exact ((OnlyReports.refl v).of_report ..).of_postEvent ..
  obtain ⟨_, _, _, _, _, _, _, _, kept⟩ := said
  rw [kept _ _ rfl, rd_wr_ne _ _ _ _ _ _ (.inl (by decide)), rd_wr]
  rfl

/-- Settles O29: a ring whose CONFIG check fails is in error, and one that runs is as ENABLE has set it. -/
theorem enabledRingStartsEmpty : Obligations.EnabledRingStartsEmpty := by
  intro r fn s t runs
  have fresh : t = freshRing r s := by
    rcases hc : ringConfigOk (freshRing r s) r fn with _ | _
    · have failed : t = ringError r 4 (freshRing r s) := by simp [t, enableRing_eq, hc]
      cases ring : ringFn (freshRing r s) r with
      | none => simp [failed, ringError, ring]
      | some g => rw [failed, ringError_state ring] at runs; contradiction
    · simp [t, enableRing_eq, hc]
  rw [fresh]
  exact freshRing_empty r s

/-! Doorbells (R427, R428, R430 to R432). -/

section
variable {fn r v : Nat} {s : State} (ring : ringFn s r = some fn) (host : fabricRing s r = false) (runs : ringRunning s r = true)
include ring host runs

theorem subTail_checks : subTail fn r v s =
    if bits v 14 18 ≠ 0 ∨ ringSize s r ≤ v then ringError r 1 (startWake s)
    else if v = rd s .pciRingStateTail r then s
    else if ringRoom s r < (slotsFrom (ringSize s r) (rd s .pciRingStateTail r) v).length then ringError r 1 (startWake s)
    else acceptTo r v (startWake s) :=
  if_neg (by simp [ring, host, runs])

theorem compHeadTo_releases (range : v < ringSize s r) :
    let x := ringOf s r
    let step := (v + ringSize s r - compHead s r) % ringSize s r
    let n := if step = 0 ∧ x.unread = ringSize s r then ringSize s r else step
    n ≤ x.unread → compHeadTo fn r v s = settleChits (postHeld r x.heldComps.length
      (putRing { x with unread := x.unread - n, coalCount := x.coalCount - (n - (x.unread - x.coalCount)) } s)) := by
  intro x step n unread
  refine if_neg fun bad => ?_
  rcases bad with h | h | h | h | h
  · exact h ring
  · simp [host] at h
  · simp [runs] at h
  · omega
  · exact Nat.not_lt.mpr unread h

end

theorem ringPointersComplete : RingPointersComplete := by
  refine ⟨?_, ?_⟩
  · intro fn r v s up fnThere ok ring host runs new
    have row {u : State} (effect : subTail fn r v s = u) : Works (.subTailWrite fn r v) s u :=
      works_work rfl up (Bool.and_eq_true_iff.mpr ⟨fnThere, ok⟩) effect
    have checks := subTail_checks (v := v) ring host runs
    refine ⟨fun low high new_ room => row ?_, fun low high new_ full => row ?_, fun low high same => row ?_, fun bad => row ?_⟩
    · rw [checks, if_neg (by omega), if_neg new_, if_neg (Nat.not_lt.mpr room)]
    · rw [checks, if_neg (by omega), if_neg new_, if_pos full]
    · rw [checks, if_neg (by omega), if_pos same]
    · rw [checks, if_pos bad]
  · intro fn r v s up fnThere ok ring host runs range x step n unread
    exact works_work rfl up (Bool.and_eq_true_iff.mpr ⟨fnThere, ok⟩) (compHeadTo_releases ring host runs range unread)

/-! ENABLE, and a failed fetch (R424, R432, R457). -/

theorem bit_withBit0 (b : Bool) (v : Nat) : bit (withBit0 (b2n b) v) 0 = b := by
  simpa [bit0] using bit0_withBit0 b v

theorem ringCfgWrite_writable {fn r : Nat} {s : State} (b : Bool) (v : Nat) (ring : ringFn s r = some fn) (may : writable s fn = true) :
    ringCfgWrite fn r (withBit0 (b2n b) v) s =
      if on s .pciRingCfgEnable r then (if b then s else disableRing r (storeRingCfg r (withBit0 (b2n b) v) s))
      else if b then enableRing r fn (storeRingCfg r (withBit0 (b2n b) v) s)
      else storeRingCfg r (withBit0 (b2n b) v) s := by
  simp [ringCfgWrite, ring, may, bit_withBit0]

theorem ringSwitchingCompletes : RingSwitchingCompletes := by
  refine ⟨fun fn r v s up fnThere ok ring may => ?_, fun r s up ok runs => ?_⟩
  · have enables {u : State} (effect : ringCfgWrite fn r (withBit0 1 v) s = u) : Works (.ringEnable fn r v) s u :=
      works_work rfl up (Bool.and_eq_true_iff.mpr ⟨fnThere, ok⟩) effect
    have disables {u : State} (effect : ringCfgWrite fn r (withBit0 0 v) s = u) : Works (.ringDisable fn r v) s u :=
      works_work rfl up (Bool.and_eq_true_iff.mpr ⟨fnThere, ok⟩) effect
    have one := ringCfgWrite_writable true v ring may
    have zero := ringCfgWrite_writable false v ring may
    exact ⟨fun off => enables (one.trans (by simp [off, b2n])), fun isOn => enables (one.trans (by simp [isOn])),
      fun isOn => disables (zero.trans (by simp [isOn, b2n])), fun off => disables (zero.trans (by simp [off, b2n]))⟩
  · exact works_work rfl up ok (if_pos runs)

/-! Failed DMA, and the coalescing timer (R421, R422, R431). -/

theorem wedge_once {fn : Nat} {s : State} (free : on s .pciFnStatusWedged fn = false) :
    wedge fn s = report srcHost .wedged sevDegraded (if fn = 0 then none else some (fn - 1))
      { wr .pciFnStatusWedged fn 1 s with dmaWait := drop (fun x => x.1 == fn) s.dmaWait } :=
  if_neg (by simp [free])

theorem wedge_again {fn : Nat} {s : State} (wedged : on s .pciFnStatusWedged fn = true) : wedge fn s = s := if_pos wedged

theorem dmaTimesOut_eq (fn : Nat) (s : State) :
    dmaTimesOut fn s = wedge fn (((dmaWaits fn s).map (fun t => reach (t + 50000000) s)).getD s) := by
  unfold dmaTimesOut
  cases dmaWaits fn s <;> rfl

theorem dmaAndTimersComplete : DmaAndTimersComplete := by
  refine ⟨?_, ?_⟩
  · intro fn s up fnThere pitch wedged due
    have flag : on due .pciFnStatusWedged fn = on s .pciFnStatusWedged fn := by
      show on (((dmaWaits fn s).map (fun t => reach (t + 50000000) s)).getD s) _ _ = _
      cases dmaWaits fn s <;> rfl
    refine ⟨fun free => ?_, fun free => ?_, fun again => ?_, fun again => ?_⟩
    · exact gives_due rfl up fnThere ((dmaTimesOut_eq fn s).trans (wedge_once (flag.trans free)))
    · exact gives_due rfl up fnThere (wedge_once free)
    · exact gives_due rfl up fnThere ((dmaTimesOut_eq fn s).trans (wedge_again (flag.trans again)))
    · exact gives_due rfl up fnThere (wedge_again again)
  · intro r s up ok counted timed
    exact gives_due rfl up ok (if_neg (by simp [counted, timed]))

/-- Settles O30: doorbells, switches, errors and timers, each by the equation of its effect. -/
theorem ringRegistersComplete : Obligations.RingRegistersComplete :=
  ⟨ringPointersComplete, ringSwitchingCompletes, dmaAndTimersComplete⟩

end Sys2Proof.Machine
end

section
/-! PROOFS. Host port: accesses of a function to the chit pages of BAR2 (R446, R621, R626). -/
namespace Sys2Proof.Machine

open Sys2Proof.Claims

/-- What arrives may end a power state, and changes nothing else. -/
theorem startWake_power (s : State) : ∃ p, startWake s = { s with power := p } := by
  unfold startWake
  split
  · exact ⟨s.power, rfl⟩
  · exact ⟨_, rfl⟩

@[simp] theorem startWake_answers (s : State) : (startWake s).answers = s.answers := by
  obtain ⟨p, woken⟩ := startWake_power s
  rw [woken]

@[simp] theorem startWake_chits (s : State) : (startWake s).chits = s.chits := by
  obtain ⟨p, woken⟩ := startWake_power s
  rw [woken]

@[simp] theorem startWake_rd (s : State) (f : Fld) (i : Nat) : rd (startWake s) f i = rd s f i := by
  obtain ⟨p, woken⟩ := startWake_power s
  rw [woken]
  rfl

theorem startWake_chitOwned (s : State) (fn c : Nat) : chitOwned (startWake s) fn c = chitOwned s fn c := by
  simp only [chitOwned, startWake_rd]

/-! An access to BAR2 (R621, R626). -/

theorem wakeFor_bar2 {off : Nat} (s : State) (high : bar2 ≤ off) : wakeFor off s = startWake s := by
  rw [bar2] at high
  exact if_neg (by omega)

theorem mayAnswer_bar2 {off : Nat} (s : State) (high : bar2 ≤ off) : mayAnswer s off = awake s := by
  have beyond : ¬ (off < 0x700000) := by rw [bar2] at high; omega
  simp [mayAnswer, beyond, high]

/-- A read of BAR2 is answered while the device is awake, and held while it wakes. -/
theorem registerRead_bar2 {fn off size : Nat} {s : State} (host : hostAnswers s = true) (high : bar2 ≤ off) (short : size ≤ 64) :
    registerRead (.fn fn) off size s =
      if awake (startWake s) then completeRead fn off size (startWake s)
      else { startWake s with readsHeld := (startWake s).readsHeld ++ [(fn, off, size)] } := by
  have whole : min size accessMax = size := Nat.min_eq_left short
  rw [registerRead_fn host, wakeFor_bar2 s high, mayAnswer_bar2 _ high, whole]

/-- The answer to a read of a function, beside which the state is as the read leaves it. -/
def answered (fn off v : Nat) (s : State) : State :=
  { freshen (freshen (freshen s)) with answers := s.answers ++ [(.fn fn, off, v)] }

theorem completeRead_chitPages {fn a size v : Nat} {s t : State} (page : a < 0x20000)
    (read : readChit fn (0x400000 + a) size s = (v, t)) :
    completeRead fn (bar2 + 0x400000 + a) size s = answered fn (bar2 + 0x400000 + a) v t := by
  have chits : readBar2 fn (bar2 + 0x400000 + a - bar2) size s = (v, t) := by
    rw [Nat.add_assoc, Nat.add_sub_cancel_left, ← read]
    exact (if_neg (by omega)).trans (if_pos (by omega))
  rw [completeRead_bar2 (by omega), chits, answered]

theorem exec_registerRead {fn off size : Nat} {s t : State} (fnThere : fnOk fn = true) (effect : registerRead (.fn fn) off size s = t) :
    exec (.registerRead (.fn fn) off size) s = .next (keepQueue s t) := by
  rw [← effect]
  exact always_ok fnThere

/-- A row whose read is answered. -/
theorem exec_registerRead_answered {fn off size v : Nat} {s t : State} (fnThere : fnOk fn = true)
    (effect : registerRead (.fn fn) off size s = answered fn off v t) :
    ∃ u, exec (.registerRead (.fn fn) off size) s = .next (keepQueue s u)
      ∧ u.answers = t.answers ++ [(.fn fn, off, v)] ∧ u.chits = t.chits ∧ u.crier = t.crier :=
  ⟨answered fn off v t, exec_registerRead fnThere effect, rfl, rfl, rfl⟩

theorem readChit_own {fn c : Nat} {s : State} (owned : chitOwned s fn c = true) :
    readChit fn (0x400000 + 8 * c) 8 s = (chitVal s c, s) := by
  have chit : (0x400000 + 8 * c - 0x400000) / 8 = c := by omega
  exact (if_pos ⟨rfl, by omega, chit.symm ▸ owned⟩).trans (by rw [chit])

theorem readChit_refused {fn a size : Nat} {s : State} (other : size ≠ 8 ∨ a % 8 ≠ 0 ∨ chitOwned s fn (a / 8) = false) :
    readChit fn (0x400000 + a) size s = (0, refuseAccess (.fn fn) s) := by
  refine if_neg fun own => ?_
  obtain ⟨eight, aligned, owned⟩ := own
  rw [Nat.add_sub_cancel_left] at owned
  have aligned' : a % 8 = 0 := by omega
  simp [eight, aligned', owned] at other

/-- A refused access writes no chit and answers nothing by itself. -/
theorem refuseAccess_keeps (who : Requester) (s : State) :
    (refuseAccess who s).answers = s.answers ∧ (refuseAccess who s).chits = s.chits := by
  have said : OnlyReports s (refuseAccess who s) := (OnlyReports.refl s).of_report ..
  obtain ⟨_, _, _, _, _, _, _, left, _⟩ := said
  rw [left]
  exact ⟨rfl, rfl⟩

/-- A refused access names the pitch of its function. -/
theorem refuseAccess_fn (fn : Nat) (s : State) :
    refuseAccess (.fn fn) s = report srcHost .refusedAccess sevContained (if fn = 0 then none else some (fn - 1)) s := by
  cases fn <;> rfl

/-- A read of a chit page, while the device is awake and while it wakes. -/
theorem exec_registerRead_chitPages {fn a size v : Nat} {s t : State} (fnThere : fnOk fn = true) (host : hostAnswers s = true)
    (page : a < 0x20000) (short : size ≤ 64) (read : readChit fn (0x400000 + a) size (startWake s) = (v, t)) :
    let u := startWake s
    (awake u = true → ∃ w, exec (.registerRead (.fn fn) (bar2 + 0x400000 + a) size) s = .next (keepQueue s w)
      ∧ w.answers = t.answers ++ [(.fn fn, bar2 + 0x400000 + a, v)] ∧ w.chits = t.chits ∧ w.crier = t.crier)
    ∧ (awake u = false → exec (.registerRead (.fn fn) (bar2 + 0x400000 + a) size) s
        = .next (keepQueue s { u with readsHeld := u.readsHeld ++ [(fn, bar2 + 0x400000 + a, size)] })) := by
  intro u
  have reads := registerRead_bar2 (fn := fn) (off := bar2 + 0x400000 + a) host (by omega) short
  refine ⟨fun up => ?_, fun wakes => ?_⟩
  · exact exec_registerRead_answered fnThere ((reads.trans (if_pos up)).trans (completeRead_chitPages page read))
  · exact exec_registerRead fnThere (reads.trans (if_neg (Bool.eq_false_iff.mp wakes)))

/-- Settles O47: a read is answered by what its page gives or held while the device wakes, a write as O31 says. -/
theorem chitPages : Obligations.ChitPages := by
  refine ⟨?_, ?_, ?_, ?_⟩
  · intro fn c s fnThere host page owned u
    have own : readChit fn (0x400000 + 8 * c) 8 u = (chitVal s c, u) := by
      rw [readChit_own ((startWake_chitOwned ..).trans owned), chitVal, startWake_chits, chitVal]
    obtain ⟨now, later⟩ := exec_registerRead_chitPages fnThere host (by omega) (by decide) own
    refine ⟨fun up => ?_, later⟩
    obtain ⟨w, answer, answers, chits, -⟩ := now up
    exact ⟨w, answer, answers.trans (by rw [startWake_answers]), chits.trans (startWake_chits s)⟩
  · intro fn a size s fnThere host page short other u
    have refused : readChit fn (0x400000 + a) size u = (0, refuseAccess (.fn fn) u) :=
      readChit_refused (by rwa [startWake_chitOwned])
    obtain ⟨now, later⟩ := exec_registerRead_chitPages fnThere host page short refused
    refine ⟨fun up => ?_, later⟩
    obtain ⟨w, answer, answers, chits, crier⟩ := now up
    obtain ⟨answers', chits'⟩ := refuseAccess_keeps (.fn fn) u
    exact ⟨w, answer, answers.trans (by rw [answers', startWake_answers]), chits.trans (chits'.trans (startWake_chits s)), crier⟩
  · intro fn c v s up fnThere page owned
    exact works_work rfl up fnThere (chitPageWrite_own page owned)
  · intro fn a size v s up fnThere page other
    have aligned : (0x400000 + a) % 8 = a % 8 := by omega
    rw [refuseAccess_fn]
    exact works_work rfl up fnThere (chitPageWrite_refused (by omega) (by omega) (by rwa [aligned, Nat.add_sub_cancel_left]))

end Sys2Proof.Machine
end

section
/-! PROOFS. Host port: the links, Bus Master Enable, and the CXL window (R417, R418, R422, R448 to R454, R550). -/
namespace Sys2Proof.Machine

open Sys2Proof.Claims

/-! Links (R417, R418, R422, R453, R454). -/

section
variable {h : Nat} {s : State}

theorem linkUp_trains {rate width cxl : Nat} (half : h = 1 → on s .pciLinkBif 0 = true)
    (marked : cxl = 0 ∨ bit s.power.straps (1 + h) = true) (narrow : on s .pciLinkBif 0 = true → width ≤ 8) :
    linkUp h rate width cxl s =
      dmaFlush (wr .pciLinkUp h 1 (wr .pciLinkRate h rate (wr .pciLinkWidth h width (wr .pciLinkCxl h cxl
        { s with dmaSince := drop (fun x => halfOf s x.1 == h) s.dmaSince })))) := by
  refine if_neg fun bad => ?_
  rcases bad with ⟨one, single⟩ | ⟨some_, unmarked⟩ | ⟨two, wide⟩
  · simp [half one] at single
  · simp [some_, unmarked] at marked
  · exact Nat.not_lt.mpr (narrow two) wide

theorem surpriseDown_up (up : on s .pciLinkUp h = true) :
    let u := bump .pciLinkDowns h 1 (linkDown h s)
    surpriseDown h s = if rd s .pciLinkCxl h = 0 then u else hostGone h (wr .pciLinkCxl h 0 u) := by
  refine (if_neg (by simp [up])).trans ?_
  by_cases plain : rd s .pciLinkCxl h = 0
  · exact (if_neg (by simp [plain])).trans (if_pos plain).symm
  · exact (if_pos (by simpa using plain)).trans (if_neg plain).symm

end

theorem busMaster_set {fn : Nat} {s : State} (host : hostAnswers s = true) :
    busMaster fn true s = dmaFlush (wr .pciFnStatusBmeOff fn 0 s) := if_neg (by simp [host])

theorem busMaster_clear {fn : Nat} {s : State} (host : hostAnswers s = true) :
    busMaster fn false s = wr .pciFnStatusBmeOff fn 1 s := if_neg (by simp [host])

theorem linksComplete : LinksComplete := by
  refine ⟨?_, ?_, ?_, ?_, ?_⟩
  · intro h rate width cxl s ok tile perst half marked narrow u
    exact works_workAlways rfl ok ((if_pos (by simp [tile, perst])).trans (linkUp_trains half marked narrow))
  · intro h s ok up u
    exact works_workAlways rfl ok (surpriseDown_up up)
  · intro h s ok up
    rw [Gives, ← show hotReset h s = _ from if_pos up]
    exact always_ok ok
  · intro fn s fnThere host
    exact ⟨works_workAlways rfl fnThere (busMaster_set host), works_workAlways rfl fnThere (busMaster_clear host)⟩
  · intro fn b s fnThere down
    exact works_workAlways rfl fnThere (if_pos down)

/-! The CXL window (R448 to R451). -/

section
variable {a : CxlAccess} {s : State} {p : Nat} {g : CxlSeg}

/-- An access in a segment of the window that the half shows. -/
theorem cxlAccess_shown (shown : windowShown s a.half = true) (seg : segmentAt s a.half a.addr = some (p, g)) :
    cxlAccess a s = if trackWaits a g s then makeTrackRoom { startWake s with cxlWaiting := s.cxlWaiting ++ [a] }
      else if a.isWrite then cxlWrite a p g (startWake s) else cxlRead a p g (startWake s) := by
  simp [cxlAccess, shown, seg]

/-- Only CXL 3 tracks lines. -/
theorem trackWaits_old (old : rd s .pciLinkCxl a.half ≠ 3) : trackWaits a g s = false := by simp [trackWaits, old]

theorem cxlRead_data {d : Nat} (data : g.data = some d) (old : rd s .pciLinkCxl a.half ≠ 3) :
    let off := a.addr / 64 * 64 - g.base
    cxlRead a p g s = { s with cxlOut := s.cxlOut ++ [(a.half, a.addr / 64 * 64,
      if poisoned s p (d + off) 64 then none else some (Memory.readN s.dram (dramKey p (d + off)) 64))] } := by
  intro off
  simp only [cxlRead, data]
  exact if_pos old

theorem cxlWrite_data {d : Nat} (data : g.data = some d) (old : rd s .pciLinkCxl a.half ≠ 3) :
    cxlWrite a p g s = writeDram p (d + a.addr - g.base) a.data s := by
  simp only [cxlWrite, data]
  exact if_pos old

end

section
variable {h l : Nat} {s : State}

theorem snoopTimeout_lost {x : CxlLine} (snooped : s.cxlLines.find? (fun x => x.half == h && x.line == l && x.snooped) = some x) :
    snoopTimeout h l s = hostGone h (reach (x.snoopAt + 1000000) s) := by
  simp only [snoopTimeout, snooped]

theorem snoopAnswered_eq {x : CxlLine} (snooped : s.cxlLines.find? (fun x => x.half == h && x.line == l && x.snooped) = some x)
    (data : Option Bytes) :
    snoopAnswered h l data s = cxlRetry (match data, lineData s h l with
      | some bs, some (p, off) => writeDram p off (bs.take 64) (forgetLine h l s)
      | _, _ => forgetLine h l s) := by
  have asked := List.find?_some snooped
  have there : s.cxlLines.any (fun x => x.half == h && x.line == l && x.snooped) = true :=
    List.any_eq_true.mpr ⟨x, List.mem_of_find?_eq_some snooped, asked⟩
  exact if_neg (by simp only [there]; decide)

end

theorem cxlComplete : CxlComplete := by
  refine ⟨?_, ?_, ?_, ?_, ?_⟩
  · intro a s p g up ok shown seg
    have row {u : State} (effect : cxlAccess a s = u) : Works (.cxlMemAccess a) s u := works_work rfl up ok effect
    have access := cxlAccess_shown shown seg
    refine ⟨fun waits => row ?_, fun free read => row ?_, fun free write => row ?_⟩
    · rw [access, if_pos waits]
    · rw [access, if_neg (by simp [free]), if_neg (by simp [read])]
    · rw [access, if_neg (by simp [free]), if_pos write]
  · intro a s p g d up ok shown seg data read old off u
    have access := cxlAccess_shown shown seg
    rw [if_neg (by simp [trackWaits_old old]), if_neg (by simp [read]), cxlRead_data data (by rwa [startWake_rd])] at access
    obtain ⟨power, woken⟩ := startWake_power s
    refine works_work rfl up ok (access.trans ?_)
    rw [show u = _ from woken, woken]
    rfl
  · intro a s p g d up ok shown seg data write old
    have access := cxlAccess_shown shown seg
    rw [if_neg (by simp [trackWaits_old old]), if_pos write, cxlWrite_data data (by rwa [startWake_rd])] at access
    exact works_work rfl up ok access
  · intro h l s x up ok snooped
    have row {data : Option Bytes} {u : State} (effect : snoopAnswered h l data s = u) : Works (.cxlBisnpResponse h l data) s u :=
      works_work rfl up ok effect
    refine ⟨works_work rfl up ok (snoopTimeout_lost snooped), row ?_, fun bs none_ => row ?_, fun bs p off line => row ?_⟩
    · rw [snoopAnswered_eq snooped]
    · rw [snoopAnswered_eq snooped, none_]
    · rw [snoopAnswered_eq snooped, line]
  · intro h s up ok live cxl
    exact works_work rfl up ok (if_pos (by simp [live, cxl]))

/-- Settles O32: the rows of the links, and those of the CXL window. -/
theorem hostLinksComplete : Obligations.HostLinksComplete := ⟨linksComplete, cxlComplete⟩

end Sys2Proof.Machine
end

section
/-! PROOFS. Host port: the management endpoint (R452, R515, R522, R523, R550). -/
namespace Sys2Proof.Machine

open Sys2Proof.Claims

section
variable {s : State} (vaux : s.power.vauxOk = true)
include vaux

theorem platformRequest_reading {n v : Nat} (reads : sensorReading s n = some v) :
    platformRequest n s = answerSideband (.reading n v) (freshen s) := by
  simp [platformRequest, vaux, reads]

theorem platformRequest_other {n : Nat} (none_ : sensorReading s n = none) :
    platformRequest n s = answerSideband (.other (freeBytes s (Config.length s.fresh % 256))) (freshen s) := by
  simp [platformRequest, vaux, none_]

theorem pldmAnswer_other : pldmAnswer s = answerSideband (.other (freeBytes s (Config.length s.fresh % 256))) (freshen s) :=
  if_neg (by simp [vaux])

/-- A component of a kind that the device has goes to its kind's staging slot, where it verifies and fits (R522). -/
theorem fwComponent_kind {im : Image} (low : 1 ≤ im.kind) (high : im.kind ≤ 3) :
    let k := im.kind - 1
    let ok := imageValid s im && decide (imageSize im ≤ (slotSpan k (stagingSlot s k)).2)
    let u := putImage k (stagingSlot s k) (if ok then some im else none) s
    let v := { u with stagedOk := u.stagedOk.erase k ++ (if ok then [k] else []) }
    fwComponent im s = answerSideband (.verified ok) (wr .secImageStaged k (b2n ok)
      (wr .secImageStagedVersion k (if ok then im.version else 0) (wr .secImageStagedSvn k (if ok then im.svn else 0) v))) :=
  (if_neg (by simp [vaux])).trans (if_neg (by omega))

theorem fwComponent_unknown {im : Image} (kind : im.kind = 0 ∨ 3 < im.kind) :
    fwComponent im s = answerSideband (.verified false) s := (if_neg (by simp [vaux])).trans (if_pos kind)

theorem activateFirmware_reset {selfContained : Bool} (reset : selfContained = false ∨ s.phase = .stopped) :
    activateFirmware selfContained s = fullReset causePldm s :=
  (if_neg (by simp [vaux])).trans (if_neg (by rcases reset with h | h <;> simp [h]))

theorem activateFirmware_live {im : Image} (up : Up s) (idle : s.live.active = false) (image : liveImage s = some im) :
    activateFirmware true s = wr .secFwCtrlActState 0 1 (wr .secFwCtrlActCore 0 0
      { s with live := { s.live with active := true, copied := false, turn := 3, oldImage := s.fwRunning } }) := by
  have phase : s.phase = .running := beq_iff_eq.mp up
  refine (if_neg (by simp [vaux])).trans ((if_pos ⟨rfl, by simp [phase]⟩).trans ((if_pos up).trans (if_neg ?_)))
  simp [idle, image]

end

/-- Settles O34: each request by the equation of its answer. -/
theorem pldmCompletes : Obligations.PldmCompletes := by
  refine ⟨fun n s vaux => ⟨fun v reads => ?_, fun none_ => ?_⟩, fun k s vaux => ?_, fun im s vaux low high => ?_,
    fun im s vaux kind => ?_, fun s vaux => ⟨?_, fun stopped => ?_⟩, fun s im vaux up idle image => ?_⟩
  · exact gives_always rfl (platformRequest_reading vaux reads)
  · exact ⟨_, gives_always rfl (platformRequest_other vaux none_)⟩
  · exact ⟨⟨_, gives_always rfl (pldmAnswer_other vaux)⟩, ⟨_, gives_always rfl (pldmAnswer_other vaux)⟩⟩
  · exact gives_always rfl (fwComponent_kind vaux low high)
  · exact gives_always rfl (fwComponent_unknown vaux kind)
  · exact gives_always rfl (activateFirmware_reset vaux (.inl rfl))
  · exact gives_always rfl (activateFirmware_reset vaux (.inr stopped))
  · exact gives_always rfl (activateFirmware_live vaux up idle image)

end Sys2Proof.Machine
end

section
/-! PROOFS. Host port: power pins, boot and clock losses (R418, R453, R511 to R515, R530, R531, R550, R599, R606). -/
namespace Sys2Proof.Machine

open Sys2Proof.Claims

/-! Power pins (R418, R453, R530, R531, R550). -/

theorem powerPinsComplete : PowerPinsComplete := by
  refine ⟨?_, ?_, ?_, ?_, ?_, ?_, ?_⟩
  · intro s there
    exact gives_always rfl (if_pos there)
  · intro s absent u
    exact gives_always rfl (if_neg (by simp [absent]))
  · intro s there cool
    exact gives_always rfl (if_pos ⟨there, cool⟩)
  · exact fun s => gives_always rfl rfl
  · exact fun s => gives_always rfl rfl
  · intro n s high
    exact gives_always rfl (if_pos (by simp [high]))
  · intro n s low
    exact gives_always rfl (if_neg (by simp [low]))

/-! The boot (R511, R513 to R515, R522). -/

theorem bootRecord_onlyLogs (c : Cond) (sev d0 : Nat) (s : State) : OnlyLogs s (bootRecord c sev d0 s) :=
  (OnlyLogs.refl s).of_freshen.of_logWrite _

theorem bootRecord_phase (c : Cond) (sev d0 : Nat) (s : State) : (bootRecord c sev d0 s).phase = s.phase := by
  obtain ⟨_, _, _, left, _⟩ := bootRecord_onlyLogs c sev d0 s
  rw [left]

theorem bootStop_phase (step code : Nat) (s : State) : (bootStop step code s).phase = .stopped := by
  unfold bootStop
  extract_lets c d0 s1 s2
  rw [wr_phase, wr_phase]
  exact bootRecord_phase c sevFatal d0 { s1 with phase := .stopped, bootStep := step }

theorem bootLeave_phase (env : BootEnv) (s : State) : (bootLeave env s).phase = .running := by
  unfold bootLeave
  extract_lets ms s1 s2 s3 s4 s5 s6
  exact (bootRecord_phase ..).trans rfl

section
variable (env : BootEnv)

/-- What follows the choice of a stall plan: s has its image shown, t has it loaded. It is checked, and the stacks train. -/
def bootStacks (s t : State) : State :=
  match planCheck t with
  | some code => bootStop 4 code s
  | none =>
    if (assignedStacks t).all (fun k => bit env.stacksTrained k) then bootLeave env (bootTrain env t) else bootStop 5 0x30 t

/-- The stall plan is chosen and loaded. -/
def bootPlan (h : BootHdr) (s : State) : State :=
  match chooseImage s h 2 with
  | none => bootStop 3 0x12 s
  | some pl =>
    let s := { showImage h 2 pl s with planImage := some pl.2.1 }
    bootStacks env s { s with plan := loadPlan ((pl.2.1.plan).getD Plan.empty) }

theorem bootPlan_chosen {h : BootHdr} {s : State} {pl : Nat × Image × Bool} (plan : chooseImage s h 2 = some pl) :
    let u := { showImage h 2 pl s with planImage := some pl.2.1 }
    bootPlan env h s = bootStacks env u { u with plan := loadPlan ((pl.2.1.plan).getD Plan.empty) } := by
  simp only [bootPlan, plan]

/-- The stallholders' firmware is chosen, and then the plan. -/
def bootFirmware (h : BootHdr) (s : State) : State :=
  match chooseImage s h 1 with
  | none => bootStop 3 0x11 s
  | some fw => bootPlan env h { showImage h 1 fw s with fwRunning := some fw.2.1 }

theorem bootFirmware_chosen {h : BootHdr} {s : State} {fw : Nat × Image × Bool} (firmware : chooseImage s h 1 = some fw) :
    bootFirmware env h s = bootPlan env h { showImage h 1 fw s with fwRunning := some fw.2.1 } := by
  simp only [bootFirmware, firmware]

/-- The Abtoser's own image is chosen, and then the firmware. -/
def bootRoot (h : BootHdr) (s : State) : State :=
  match chooseImage s h 0 with
  | none => bootStop 1 0x10 s
  | some rot => bootFirmware env h { showImage h 0 rot s with rotRunning := some rot.2.1 }

theorem bootRoot_chosen {h : BootHdr} {s : State} {rot : Nat × Image × Bool} (root : chooseImage s h 0 = some rot) :
    bootRoot env h s = bootFirmware env h { showImage h 0 rot s with rotRunning := some rot.2.1 } := by
  simp only [bootRoot, root]

/-- The boot header is read and its trials counted, and then the images are chosen. -/
def bootHeader (s : State) : State :=
  match hdrOf s.xspi with
  | none => bootStop 1 0x01 s
  | some h =>
    let h' := [0, 1, 2].foldl countTrial h
    bootRoot env h' (if h' = h then s else writeHdr h' s)

theorem bootHeader_found {s : State} {h : BootHdr} (header : hdrOf s.xspi = some h) :
    let h' := [0, 1, 2].foldl countTrial h
    bootHeader env s = bootRoot env h' (if h' = h then s else writeHdr h' s) := by
  simp only [bootHeader, header]

section
variable {env} {s t : State}

theorem bootStacks_fails {code : Nat} (fails : planCheck t = some code) : bootStacks env s t = bootStop 4 code s := by
  simp only [bootStacks, fails]

theorem bootStacks_untrained (passes : planCheck t = none)
    (untrained : (assignedStacks t).all (fun k => bit env.stacksTrained k) = false) : bootStacks env s t = bootStop 5 0x30 t := by
  simp only [bootStacks, passes, untrained, Bool.false_eq_true, if_false]

theorem bootStacks_trained (passes : planCheck t = none)
    (trained : (assignedStacks t).all (fun k => bit env.stacksTrained k) = true) :
    bootStacks env s t = bootLeave env (bootTrain env t) := by
  simp only [bootStacks, passes, trained, if_true]

end

theorem boot_released {s : State} (free : released s = true) :
    boot env s = bootHeader env (wr .errAlarmFatal 0 0 (activateStaged { s with plan := Plan.empty })) :=
  if_neg (by simp [free])

end

theorem bootCompletes : BootCompletes := by
  intro env s free s1
  have row {u : State} (effect : bootHeader env s1 = u) : Works (.boot env) s u :=
    works_workAlways rfl rfl ((boot_released env free).trans effect)
  refine ⟨fun none_ => ⟨row (by simp only [bootHeader, none_]), bootStop_phase ..⟩, ?_⟩
  intro h header h' s2
  have header' : bootHeader env s1 = bootRoot env h' s2 := bootHeader_found env header
  refine ⟨fun none_ => row (header'.trans (by simp only [bootRoot, none_])), ?_⟩
  intro rot root s3
  have root' : bootRoot env h' s2 = bootFirmware env h' s3 := bootRoot_chosen env root
  refine ⟨fun none_ => row (header'.trans (root'.trans (by simp only [bootFirmware, none_]))), ?_⟩
  intro fw firmware s4
  have firmware' : bootFirmware env h' s3 = bootPlan env h' s4 := bootFirmware_chosen env firmware
  have images {u : State} (effect : bootPlan env h' s4 = u) : Works (.boot env) s u :=
    row (header'.trans (root'.trans (firmware'.trans effect)))
  refine ⟨fun none_ => images (by simp only [bootPlan, none_]), ?_⟩
  intro pl plan s5 s6
  have plan' : bootPlan env h' s4 = bootStacks env s5 s6 := bootPlan_chosen env plan
  exact ⟨fun code fails => images (plan'.trans (bootStacks_fails fails)),
    fun passes untrained => images (plan'.trans (bootStacks_untrained passes untrained)),
    fun passes trained => ⟨images (plan'.trans (bootStacks_trained passes trained)), bootLeave_phase ..⟩⟩

/-! Clock losses (R599, R606). -/

theorem clockLossesComplete : ClockLossesComplete := by
  refine ⟨?_, ?_, ?_, ?_, ?_, ?_, ?_⟩
  · exact fun s up => works_work rfl up rfl rfl
  · exact fun s host => works_inHold rfl host rfl
  · exact fun s => works_workAlways rfl rfl (show hrefLost 0 s = _ from if_neg (by simp))
  · exact fun s two => works_workAlways rfl rfl (show hrefLost 1 s = _ from if_neg (by simp [two]))
  · exact fun s single => works_workAlways rfl rfl (show hrefLost 1 s = _ from if_pos ⟨rfl, single⟩)
  · exact fun s host powered => works_inHold rfl host (show onfiOvercurrent s = _ from if_neg (by simp [powered]))
  · exact fun s host off => works_inHold rfl host (show onfiOvercurrent s = _ from if_pos off)

/-- Settles O40: the pins and the clocks by the equations of their effects, and the boot by its steps in their order. -/
theorem resetRowsComplete : Obligations.ResetRowsComplete := ⟨powerPinsComplete, bootCompletes, clockLossesComplete⟩

end Sys2Proof.Machine
end

section
/-! PROOFS. Security: pitches bound and released (R467 to R469, R477, R481, R483, R484). -/
namespace Sys2Proof.Machine

open Sys2Proof.Claims

/-! PITCH_BIND and PITCH_RELEASE (R468, R469, R481, R483). -/

/-- A PITCH_BIND of a laid-out pitch that is CLEAN passes its checks. -/
theorem opPitchBind_ok {c : Cmd} {s : State} :
    let p := fieldOf c.entry 0x10 1
    p ≤ 15 → laidOut s p = true → zeroAt c.entry 0x11 7 = true → zeroAt c.entry 0x38 8 = true → pitchState s p = 0 →
    opPitchBind c s = complete c.id .ok 0 (enterPitchState p 1 (wr .secPitchTenantTenantId p (fieldOf c.entry 0x18 32)
      (wr .secPitchStateEpoch p (rd s .secPitchStateEpoch p + 1) s))) := by
  intro p low laid zero₁ zero₂ clean
  have checks : ¬ (15 < p ∨ (!(laidOut s p)) = true ∨ (!(zeroAt c.entry 0x11 7)) = true ∨ (!(zeroAt c.entry 0x38 8)) = true) := by
    simp [low, laid, zero₁, zero₂]
  exact (if_neg checks).trans (if_neg (not_not_intro clean))

/-- A PITCH_RELEASE of a laid-out pitch that is not CLEAN passes its checks; it joins a release that runs, or starts one. -/
theorem opPitchRelease_checked {c : Cmd} {s : State} :
    let p := fieldOf c.entry 0x10 1
    let u := startedCmd c.id s
    let x : Release :=
      { pitch := p, startAt := u.localTime, startOrder := u.order, drained := false, scrubbed := false, waiters := [c.id] }
    let join := fun (y : Release) => { y with waiters := y.waiters ++ [c.id] }
    p ≤ 15 → laidOut s p = true → zeroAt c.entry 0x11 47 = true → pitchState s p ≠ 0 →
    opPitchRelease c s = if (releaseOf s p).isSome then { u with releases := upd (fun y => y.pitch == p) join u.releases }
      else recallPitch p (cancelFlash p (closePitch p (wr .secPitchStateUntrusted p 0 { u with releases := u.releases ++ [x] }))) := by
  intro p u x join low laid zero bound
  have checks : ¬ (15 < p ∨ (!(laidOut s p)) = true ∨ (!(zeroAt c.entry 0x11 47)) = true) := by simp [low, laid, zero]
  exact (if_neg checks).trans (if_neg bound)

theorem pitchCommandsRun : PitchCommandsRun := by
  refine ⟨?_, ?_, ?_⟩
  · intro r e s c t starts p low laid zero₁ zero₂ clean
    exact works_of_runOp starts (.trans (by rw [runOp, (started_cmd starts).1]) (opPitchBind_ok low laid zero₁ zero₂ clean))
  · intro r e s c t starts p low laid zero bound idle x
    exact works_of_runOp starts (.trans (by rw [runOp, (started_cmd starts).1])
      ((opPitchRelease_checked low laid zero bound).trans (if_neg (by simp [p, idle]))))
  · intro r e s c t x starts p low laid zero bound runs join
    exact works_of_runOp starts (.trans (by rw [runOp, (started_cmd starts).1])
      ((opPitchRelease_checked low laid zero bound).trans (if_pos (by simp [p, runs]))))

/-! What a change of a pitch's state and its crypto-erase come to (R467, R476, R477). -/

/-- Writing one field leaves every other, whatever the two indices. -/
theorem rd_wr_other {f g : Fld} (other : f ≠ g) (i j v : Nat) (s : State) : rd (wr f i v s) g j = rd s g j :=
  rd_wr_ne s f g i j v (.inl other)

@[simp] theorem rd_enterPitchState (p st : Nat) (s : State) : rd (enterPitchState p st s) .secPitchStateState p = st % 8 :=
  rd_wr s .secPitchStateState p st

theorem rd_enterPitchState_ne {f : Fld} (other : f ≠ .secPitchStateState) (p st i : Nat) (s : State) :
    rd (enterPitchState p st s) f i = rd s f i := rd_wr_other other.symm p i st s

@[simp] theorem enterPitchState_flashKeys (p st : Nat) (s : State) : (enterPitchState p st s).flashKeys = s.flashKeys := rfl
@[simp] theorem enterPitchState_crates (p st : Nat) (s : State) : (enterPitchState p st s).crates = s.crates := rfl

/-- Nothing that a table has dropped is left in it. -/
theorem any_drop {α : Type} (f : α → Bool) (l : List α) : (drop f l).any f = false := by
  simp [drop, List.any_eq_false]

theorem cryptoErase_keys (p : Nat) (s : State) : (cryptoErase p s).flashKeys.any (fun k => k.1 == p) = false :=
  any_drop (fun k : Nat × Nat => k.1 == p) s.flashKeys

/-- No crate of the pitch has a flash copy. -/
theorem cryptoErase_crates (p : Nat) (s : State) :
    (cryptoErase p s).crates.any (fun c => c.pitch == p && c.flash.isSome) = false := by
  refine List.any_eq_false.mpr (List.forall_mem_map.mpr fun c _ => ?_)
  by_cases mine : c.pitch = p <;> simp [mine]

theorem releaseDrained_steps {p : Nat} {s : State} {x : Release} (runs : releaseOf s p = some x) (undrained : x.drained = false) :
    let u := each (pitchConns s p) refuseHeld s
    let v := each ((u.windows.filter (fun w => w.pitch == p && w.revoking)).map (fun w => w.index)) closeWindow u
    releaseDrained p s = wr .secPitchStateStep p 5 (enterPitchState p 4 (cryptoErase p
      { v with releases := upd (fun r => r.pitch == p) (fun r => { r with drained := true }) v.releases })) := by
  simp only [releaseDrained, runs, undrained, Bool.false_eq_true, if_false]

/-! A crate that the scrub loses leaves every sequence its pitch (R41, R271, R319). -/

theorem OnlyReports.seqs {s t : State} (h : OnlyReports s t) : t.seqs = s.seqs := by
  obtain ⟨_, _, _, _, _, _, _, rfl, -⟩ := h
  rfl

theorem report_seqs (src : Nat) (c : Cond) (sev : Nat) (p : Option Nat) (s : State) : (report src c sev p s).seqs = s.seqs :=
  ((OnlyReports.refl s).of_report src c sev p).seqs

theorem pushReplica_seqs (e : StockEntry) (s : State) : (pushReplica e s).seqs = s.seqs := by
  unfold pushReplica
  split
  · rfl
  · split
    · rfl
    · exact each_keeps State.seqs _ _ s fun q _ u => tell_seqs q (.replica e) u

theorem putHome_seqs (e : StockEntry) (s : State) : (putHome e s).seqs = s.seqs := by
  unfold putHome
  extract_lets same u
  split
  · split
    · exact each_keeps State.seqs _ _ u fun q _ v => tell_seqs q (.withdraw e.scope e.key) v
    · rfl
  · split <;> exact pushReplica_seqs e _

theorem sendDrop_seqs (scope : Nat) (key : Bytes) (device pitch : Nat) (s : State) :
    (sendDrop scope key device pitch s).seqs = s.seqs := by
  unfold sendDrop
  split
  · rfl
  · split
    · unfold homeDrop
      split
      · rfl
      · exact putHome_seqs ..
    · split
      · exact tell_seqs ..
      · rfl

theorem pageDone_seqs (cmd : Option Nat) (page : Nat) (st : Status) (added dedup : Bool) (winner : Nat) (s : State) :
    (pageDone cmd page st added dedup winner s).seqs = s.seqs := by
  cases cmd <;> rfl

theorem releaseRecord_seqs (id : Nat) (s : State) : (releaseRecord id s).seqs = s.seqs := by
  unfold releaseRecord
  split
  · rfl
  · rw [sendDrop_seqs, pageDone_seqs]

/-- The pitches of the sequences, in the order of their table. -/
def seqPitches (s : State) : List Nat := s.seqs.map (fun q => q.pitch)

theorem seqPitches_of_seqs {s t : State} (h : t.seqs = s.seqs) : seqPitches t = seqPitches s := congrArg (List.map _) h

theorem damage_seqPitches (uid : Nat) (s : State) : seqPitches (damage uid s) = seqPitches s := by
  have same (q : Seq) : (if q.st = .active ∨ q.st = .parked then { q with st := .damaged } else q : Seq).pitch = q.pitch := by
    split <;> rfl
  refine List.map_map.trans (List.map_congr_left fun q _ => ?_)
  show (if q.uid == uid then _ else q : Seq).pitch = q.pitch
  split
  · exact same q
  · rfl

theorem copiesLost_seqPitches (id : Nat) (s : State) : seqPitches (copiesLost id s) = seqPitches s := by
  unfold copiesLost
  split
  · rfl
  · extract_lets reported damaged
    calc seqPitches (each _ releaseRecord damaged)
      _ = seqPitches damaged := each_keeps seqPitches _ _ _ fun r _ u => seqPitches_of_seqs (releaseRecord_seqs r u)
      _ = seqPitches reported := each_keeps seqPitches _ _ _ fun q _ u => damage_seqPitches q u
      _ = seqPitches s := seqPitches_of_seqs (report_seqs ..)

theorem dependantLost_seqPitches (id : Nat) (s : State) : seqPitches (dependantLost id s) = seqPitches s := by
  unfold dependantLost
  split
  · rfl
  · split
    · exact copiesLost_seqPitches ..
    · rfl

theorem crateLost_seqPitches (id : Nat) (s : State) : seqPitches (crateLost id s) = seqPitches s :=
  (each_keeps seqPitches _ _ _ fun d _ u => dependantLost_seqPitches d u).trans (copiesLost_seqPitches id s)

/-! A sweep adds nothing to the tables of sequences, crates and codes (R237, R298). -/

/-- A pitch that has nothing in a table has nothing in what is left of it. -/
theorem none_left {α β : Type} {f : α → Nat} {g : β → Nat} {l : List α} {m : List β} {p : Nat}
    (left : (l.map f).Sublist (m.map g)) (none_ : m.any (fun x => g x == p) = false) : l.any (fun x => f x == p) = false := by
  have absent : p ∉ m.map g := by simpa using none_
  simpa using fun mem => absent (left.subset mem)

theorem sweepHolds_keeps (s : State) :
    (sweepHolds s).seqs = s.seqs ∧ (sweepHolds s).crates = s.crates ∧ (sweepHolds s).tables = s.tables := by
  have kept : (fun u : State => (u.seqs, u.crates, u.tables)) (sweepHolds s) = (s.seqs, s.crates, s.tables) := by
    refine each_keeps (fun u : State => (u.seqs, u.crates, u.tables)) _ _ _ fun x _ u => ?_
    split <;> simp
  simpa using kept

theorem sweepCrates_pitches (s : State) :
    ((sweepCrates s).crates.map (fun c => c.pitch)).Sublist (s.crates.map (fun c => c.pitch)) := by
  unfold sweepCrates
  extract_lets keep
  have same : ∀ c : Crate, (if c.readers = 0 then { c with leaving := [], bad := [] } else c).pitch = c.pitch := fun c => by
    split <;> rfl
  simpa [Function.comp_def, same] using List.filter_sublist.map _

theorem sweepTables_pitches (s : State) :
    ((sweepTables s).tables.map (fun t => t.pitch)).Sublist (s.tables.map (fun t => t.pitch)) := by
  unfold sweepTables
  extract_lets held seen
  have seen_ : seen.map (fun t => t.pitch) = s.tables.map (fun t => t.pitch) := by simp [seen, Function.comp_def]
  exact seen_ ▸ List.filter_sublist.map _

theorem sweepAll_seqs (s : State) : (sweepAll s).seqs = s.seqs := (sweepHolds_keeps _).1

theorem sweepAll_crates (s : State) :
    ((sweepAll s).crates.map (fun c => c.pitch)).Sublist (s.crates.map (fun c => c.pitch)) := by
  show ((sweepHolds (sweepCrates (sweepCrates s))).crates.map (fun c => c.pitch)).Sublist _
  rw [(sweepHolds_keeps _).2.1]
  exact (sweepCrates_pitches _).trans (sweepCrates_pitches s)

theorem sweepAll_tables (s : State) :
    ((sweepAll s).tables.map (fun t => t.pitch)).Sublist (s.tables.map (fun t => t.pitch)) := by
  have kept : (sweepHolds (sweepCrates (sweepCrates s))).tables = s.tables := (sweepHolds_keeps _).2.2
  exact kept ▸ sweepTables_pitches _

/-! The scrub and the end of a release (R12, R482 to R484). -/

@[simp] theorem scrub_crates (p : Nat) (s : State) : (scrub p s).crates.any (fun c => c.pitch == p) = false :=
  none_left (sweepAll_crates _) (any_drop ..)

@[simp] theorem scrub_tables (p : Nat) (s : State) : (scrub p s).tables.any (fun t => t.pitch == p) = false :=
  none_left (sweepAll_tables _) (any_drop ..)

@[simp] theorem scrub_seqs (p : Nat) (s : State) : (scrub p s).seqs.any (fun q => q.pitch == p) = false := by
  unfold scrub
  extract_lets uids dropped lost h chits mine rest
  have kept : seqPitches (sweepAll rest) = seqPitches dropped :=
    (seqPitches_of_seqs (sweepAll_seqs rest)).trans (each_keeps seqPitches _ _ _ fun c _ u => crateLost_seqPitches c u)
  have left : (seqPitches (sweepAll rest)).Sublist (seqPitches dropped) := by rw [kept]
  exact none_left left (any_drop ..)

theorem scrubDone_steps {p : Nat} {s : State} {x : Release} (runs : releaseOf s p = some x) (drained : x.drained = true)
    (unscrubbed : x.scrubbed = false) :
    scrubDone p s = wr .secPitchStateStep p 6 (scrub p
      { s with releases := upd (fun r => r.pitch == p) (fun r => { r with scrubbed := true }) s.releases }) := by
  simp only [scrubDone, runs]
  exact if_neg (by simp [drained, unscrubbed])

theorem pitchCleaned_steps {p : Nat} {s : State} {x : Release} (runs : releaseOf s p = some x) (scrubbed : x.scrubbed = true)
    (ready : coreThere s 0 = true) (settled : s.leases.any (fun l => l.pitch == p) = false) :
    pitchCleaned p s = each x.waiters (fun id s => complete id .ok 0 s) (postEvent 0 0x0040 (srcCore 0)
      (leBytes 1 p ++ leBytes 3 0 ++ leBytes 4 ((rd s .secPitchStateEpoch p + 1) % 4294967296)) (cleanPitch p x s)) := by
  simp only [pitchCleaned, runs]
  exact if_neg (by simp [scrubbed, ready, settled])

/-- A pitch reset leaves the device's fields. -/
theorem rd_pitchReset {f : Fld} (device : f.desc.kind = .full) (p i : Nat) (s : State) : rd (pitchReset p s) f i = rd s f i :=
  rd_restore_unpicked s (by rw [device])

/-- The state with the pitch's fields of R497 and R498 as its release leaves them, all but the state field (R482, R483). -/
def freePitchFields (p : Nat) (x : Release) (s : State) : State :=
  wr .secPitchStateReleaseMs p (min 65535 ((s.localTime - x.startAt) / 1000000)) (wr .secPitchStateStep p 0
    (wr .secPitchStateEpoch p ((rd s .secPitchStateEpoch p + 1) % 4294967296)
    (wr .secPitchStateVolatile p 0 (wr .secPitchTenantTenantId p 0 s))))

theorem rd_cleanPitch {f : Fld} (device : f.desc.kind = .full) (other : f ≠ .secPitchStateState) (p : Nat) (x : Release)
    (s : State) :
    rd (cleanPitch p x s) f p = rd (freePitchFields p x s) f p :=
  (rd_enterPitchState_ne other p 0 p _).trans (rd_pitchReset device p p (freePitchFields p x s))

theorem cleanPitch_epoch (p : Nat) (x : Release) (s : State) :
    rd (cleanPitch p x s) .secPitchStateEpoch p = (rd s .secPitchStateEpoch p + 1) % 4294967296 := by
  rw [rd_cleanPitch rfl (by decide)]
  simp (disch := decide) only [freePitchFields, rd_wr_other, rd_wr]
  exact Nat.mod_mod _ _

theorem cleanPitch_volatile (p : Nat) (x : Release) (s : State) : rd (cleanPitch p x s) .secPitchStateVolatile p = 0 := by
  rw [rd_cleanPitch rfl (by decide)]
  simp (disch := decide) only [freePitchFields, rd_wr_other, rd_wr, Nat.zero_mod]

theorem cleanPitch_tenant (p : Nat) (x : Release) (s : State) : rd (cleanPitch p x s) .secPitchTenantTenantId p = 0 := by
  rw [rd_cleanPitch rfl (by decide)]
  simp (disch := decide) only [freePitchFields, rd_wr_other, rd_wr, Nat.zero_mod]

theorem cleanPitch_release (p : Nat) (x : Release) (s : State) : releaseOf (cleanPitch p x s) p = none := by
  have gone := any_drop (fun y : Release => y.pitch == p) s.releases
  exact List.find?_eq_none.mpr (List.any_eq_false.mp gone)

theorem releaseStepsFollow : ReleaseStepsFollow := by
  refine ⟨fun p s x up pitch runs undrained => ?_, fun p s x up pitch runs drained unscrubbed => ?_,
    fun p s x up pitch runs scrubbed ready settled => ?_⟩
  · intro u v w
    have state : rd w .secPitchStateState p = 4 :=
      (rd_wr_other (by decide) ..).trans (rd_enterPitchState p 4 _)
    exact ⟨works_work rfl up pitch (releaseDrained_steps runs undrained), state, rd_wr ..,
      by simp only [w, wr_flashKeys, enterPitchState_flashKeys, cryptoErase_keys],
      by simp only [w, wr_crates, enterPitchState_crates, cryptoErase_crates]⟩
  · intro u
    exact ⟨works_work rfl up pitch (scrubDone_steps runs drained unscrubbed), rd_wr ..,
      by simp only [u, wr_crates, scrub_crates], by simp only [u, wr_seqs, scrub_seqs], by simp only [u, wr_tables, scrub_tables]⟩
  · intro epoch u
    exact ⟨works_work rfl up pitch (pitchCleaned_steps runs scrubbed ready settled), rd_enterPitchState .., cleanPitch_epoch p x s,
      cleanPitch_tenant p x s, cleanPitch_volatile p x s, cleanPitch_release p x s⟩

/-- Settles O11: the commands pass their checks, and each step of a release is the equation of its effect. -/
theorem pitchesBoundAndReleased : Obligations.PitchesBoundAndReleased := ⟨pitchCommandsRun, releaseStepsFollow⟩

end Sys2Proof.Machine
end

section
/-! PROOFS. Boot and firmware: what leaves the device's phase as it is (R511, R520, R552). -/
namespace Sys2Proof.Machine

/-! Branches and repetitions, reports and DMA. -/

/-- A report does not change the phase. -/
theorem OnlyReports.phase {s t : State} (h : OnlyReports s t) : t.phase = s.phase := by
  obtain ⟨_, _, _, _, _, _, _, rfl, _⟩ := h
  rfl

/-- Nor does what a completion, or what it sends and fires, may change. -/
theorem phase_of_beside {s t : State} (h : besideAnswers s = besideAnswers t) : s.phase = t.phase :=
  show (besideAnswers s).phase = (besideAnswers t).phase from congrArg State.phase h

@[simp] theorem ite_phase (p : Prop) [Decidable p] (s t : State) :
    (if p then s else t).phase = if p then s.phase else t.phase := apply_ite State.phase p s t

@[simp] theorem each_phase {α : Type} (l : List α) (f : α → State → State) (s : State)
    (h : ∀ x u, (f x u).phase = u.phase) : (each l f s).phase = s.phase :=
  each_keeps State.phase f l s fun x _ u => h x u

@[simp] theorem foldl_phase {α : Type} (l : List α) (f : State → α → State) (s : State)
    (h : ∀ u x, (f u x).phase = u.phase) : (l.foldl f s).phase = s.phase :=
  each_phase l (fun x u => f u x) s fun x u => h u x

@[simp] theorem bump_phase (f : Fld) (i n : Nat) (s : State) : (bump f i n s).phase = s.phase := rfl
@[simp] theorem onRing_phase (r : Nat) (f : Ring → Ring) (s : State) : (onRing r f s).phase = s.phase := rfl
@[simp] theorem onConn_phase (c : Nat) (f : Conn → Conn) (s : State) : (onConn c f s).phase = s.phase := rfl

@[simp] theorem report_phase (src : Nat) (c : Cond) (sev : Nat) (p : Option Nat) (s : State) :
    (report src c sev p s).phase = s.phase := ((OnlyReports.refl s).of_report src c sev p).phase

@[simp] theorem postEvent_phase (fn code source : Nat) (data : Bytes) (s : State) :
    (postEvent fn code source data s).phase = s.phase := ((OnlyReports.refl s).of_postEvent fn code source data).phase

@[simp] theorem postTo_phase (fns : List Nat) (code source : Nat) (data : Bytes) (s : State) :
    (postTo fns code source data s).phase = s.phase := ((OnlyReports.refl s).of_postTo fns code source data).phase

@[simp] theorem dmaOut_phase (fn : Nat) (d : DmaOut) (s : State) : (dmaOut fn d s).phase = s.phase :=
  ((OnlyReports.refl s).of_dmaOut fn d).phase

@[simp] theorem dmaFlush_phase (s : State) : (dmaFlush s).phase = s.phase := by simp [dmaFlush]

@[simp] theorem refuseAccess_phase (who : Requester) (s : State) : (refuseAccess who s).phase = s.phase := report_phase ..

@[simp] theorem startWake_phase (s : State) : (startWake s).phase = s.phase := by simp [startWake]

/-! Rings and chits. -/

@[simp] theorem ringError_phase (r cause : Nat) (s : State) : (ringError r cause s).phase = s.phase := by
  unfold ringError
  split
  · rfl
  · simp [stopRing, cancelHeld]

@[simp] theorem acceptTo_phase (r tail : Nat) (s : State) : (acceptTo r tail s).phase = s.phase := by
  simp only [acceptTo, wr_phase]
  exact foldl_phase _ _ s fun _ _ => rfl

@[simp] theorem subTail_phase (fn r v : Nat) (s : State) : (subTail fn r v s).phase = s.phase := by simp [subTail]

@[simp] theorem postHeld_phase (r : Nat) : ∀ (n : Nat) (s : State), (postHeld r n s).phase = s.phase
  | 0, s => rfl
  | n + 1, s => by
    unfold postHeld
    split
    · rfl
    · simp [postHeld_phase r n, phase_of_beside (postHost_beside ..)]

@[simp] theorem settleChits_phase (s : State) : (settleChits s).phase = s.phase := phase_of_beside (drainChits_beside ..)

@[simp] theorem compHeadTo_phase (fn r v : Nat) (s : State) : (compHeadTo fn r v s).phase = s.phase := by simp [compHeadTo]

@[simp] theorem updateChit_phase (op : ChitOp) (s : State) : (updateChit op s).phase = s.phase := by simp [updateChit]

@[simp] theorem chitPageWrite_phase (fn off size v : Nat) (s : State) : (chitPageWrite fn off size v s).phase = s.phase := by
  simp [chitPageWrite]

@[simp] theorem storeBits_phase (f : Fld) (i lo n v : Nat) (s : State) : (storeBits f i lo n v s).phase = s.phase := by
  simp [storeBits]

@[simp] theorem storeFields_phase (r : Reg) (i lo n v : Nat) (s : State) : (storeFields r i lo n v s).phase = s.phase := by
  simp [storeFields]

@[simp] theorem enableRing_phase (r fn : Nat) (s : State) : (enableRing r fn s).phase = s.phase := by simp [enableRing]

@[simp] theorem disableRing_phase (r : Nat) (s : State) : (disableRing r s).phase = s.phase := rfl

@[simp] theorem ringCfgBits_phase (fn r lo n v : Nat) (s : State) : (ringCfgBits fn r lo n v s).phase = s.phase := by
  simp [ringCfgBits]

/-! Ports and connections. -/

@[simp] theorem pumpAll_phase (c : Nat) (s : State) : (pumpAll c s).phase = s.phase :=
  (phase_of_beside (pump_beside ..)).trans (phase_of_beside (resendHeld_beside ..))

@[simp] theorem resend_phase (c : Nat) (p : TxPkt) (s : State) : (resend c p s).phase = s.phase := phase_of_beside (resend_beside ..)

@[simp] theorem leavePort_phase (p : Nat) (s : State) : (leavePort p s).phase = s.phase := by simp [leavePort]

@[simp] theorem portDown_phase (p cause lane : Nat) (s : State) : (portDown p cause lane s).phase = s.phase := by simp [portDown]

@[simp] theorem portReset_phase (p : Nat) (s : State) : (portReset p s).phase = s.phase := by simp [portReset, restore]

@[simp] theorem idlePorts_phase (s : State) : (idlePorts s).phase = s.phase := by simp [idlePorts]

@[simp] theorem wakePorts_phase (s : State) : (wakePorts s).phase = s.phase := by simp [wakePorts]

/-! Links and the CXL window. -/

@[simp] theorem linkUp_phase (half rate width cxl : Nat) (s : State) : (linkUp half rate width cxl s).phase = s.phase := by
  simp [linkUp]

@[simp] theorem trackLine_phase (half line : Nat) (exclusive : Bool) (image : Bytes) (s : State) :
    (trackLine half line exclusive image s).phase = s.phase := rfl

@[simp] theorem makeTrackRoom_phase (s : State) : (makeTrackRoom s).phase = s.phase := by
  unfold makeTrackRoom
  split <;> rfl

@[simp] theorem cxlRead_phase (a : CxlAccess) (p : Nat) (g : CxlSeg) (s : State) : (cxlRead a p g s).phase = s.phase := by
  simp [cxlRead]

@[simp] theorem cxlWrite_phase (a : CxlAccess) (p : Nat) (g : CxlSeg) (s : State) : (cxlWrite a p g s).phase = s.phase := by
  unfold cxlWrite
  split
  · exact report_phase ..
  · simp [writeDram, forgetLine]

@[simp] theorem cxlAccess_phase (a : CxlAccess) (s : State) : (cxlAccess a s).phase = s.phase := by
  unfold cxlAccess
  split
  · rfl
  · split
    · rfl
    · simp

@[simp] theorem hostGone_phase (half : Nat) (s : State) : (hostGone half s).phase = s.phase := by simp [hostGone, cxlRetry]

@[simp] theorem surpriseDown_phase (half : Nat) (s : State) : (surpriseDown half s).phase = s.phase := by
  simp [surpriseDown, linkDown]

@[simp] theorem hrefLost_phase (half : Nat) (s : State) : (hrefLost half s).phase = s.phase := by simp [hrefLost]

@[simp] theorem busMaster_phase (fn : Nat) (enable : Bool) (s : State) : (busMaster fn enable s).phase = s.phase := by
  simp [busMaster]

/-! Supply, power and clocks. -/

@[simp] theorem sayStage_phase (c : Cond) (s : State) : (sayStage c s).phase = s.phase := by simp [sayStage]

@[simp] theorem shed_phase (g : Nat) (s : State) : (shed g s).phase = s.phase := by
  unfold shed
  split <;> simp

@[simp] theorem recallNewest_phase (p : Nat) (s : State) : (recallNewest p s).phase = s.phase := by
  unfold recallNewest
  split
  · rfl
  · simp

@[simp] theorem stageEnter_phase (g mv : Nat) (s : State) : (stageEnter g mv s).phase = s.phase := by
  simp [stageEnter, enterStage, recallOnStage]

@[simp] theorem pushReplica_phase (e : StockEntry) (s : State) : (pushReplica e s).phase = s.phase := by simp [pushReplica]

@[simp] theorem resumePushes_phase (s : State) : (resumePushes s).phase = s.phase := by
  unfold resumePushes
  split
  · rfl
  · refine each_phase _ _ _ fun k u => ?_
    split
    · exact pushReplica_phase ..
    · rfl

@[simp] theorem endStage_phase (g mv : Nat) (s : State) : (endStage g mv s).phase = s.phase := by simp [endStage, holdOrder]

@[simp] theorem powerCap_phase (m : PowerMeasure) (in100 in1s stall : Nat) (s : State) :
    (powerCap m in100 in1s stall s).phase = s.phase := by
  cases m <;> simp [powerCap, capStep]

@[simp] theorem capRelease_phase (s : State) : (capRelease s).phase = s.phase := by simp [capRelease]

@[simp] theorem thermalStep_phase (tj : Nat) (s : State) : (thermalStep tj s).phase = s.phase := by simp [thermalStep]

@[simp] theorem thermalRecover_phase (tj : Nat) (s : State) : (thermalRecover tj s).phase = s.phase := by
  unfold thermalRecover
  extract_lets u n v
  split
  · rfl
  · split <;> rfl

@[simp] theorem pwrCtrlWrite_phase (fn v : Nat) (s : State) : (pwrCtrlWrite fn v s).phase = s.phase := by simp [pwrCtrlWrite]

@[simp] theorem channelsFail_phase (s : State) : (channelsFail s).phase = s.phase := by simp [channelsFail]

@[simp] theorem auxLost_phase (s : State) : (auxLost s).phase = s.phase := by simp [auxLost]

@[simp] theorem onfiOvercurrent_phase (s : State) : (onfiOvercurrent s).phase = s.phase := by simp [onfiOvercurrent]

@[simp] theorem tileStart_phase (s : State) : (tileStart s).phase = s.phase := by simp [tileStart]

@[simp] theorem tripRelease_phase (s : State) : (tripRelease s).phase = s.phase := rfl

@[simp] theorem perstDeassert_phase (straps : Nat) (s : State) : (perstDeassert straps s).phase = s.phase := by simp [perstDeassert]

/-! Tills, event rings, captures, the log and telemetry. -/

@[simp] theorem snapClass_phase (p c : Nat) (s : State) : (snapClass p c s).phase = s.phase := by
  refine (each_phase _ _ _ fun _ _ => wr_phase ..).trans ?_
  simp

@[simp] theorem tillWrite_phase (fn p : Nat) (snap clear : Bool) (s : State) : (tillWrite fn p snap clear s).phase = s.phase := by
  simp [tillWrite, tillDo]

@[simp] theorem evtHead_phase (fn v : Nat) (s : State) : (evtHead fn v s).phase = s.phase := by simp [evtHead]

@[simp] theorem evtCfgBits_phase (fn lo n v : Nat) (s : State) : (evtCfgBits fn lo n v s).phase = s.phase := by
  simp [evtCfgBits, evtStart]

@[simp] theorem evtCfgWrite_phase (fn v : Nat) (s : State) : (evtCfgWrite fn v s).phase = s.phase := by simp [evtCfgWrite]

@[simp] theorem captureClear_phase (who : Requester) (n : Nat) (s : State) : (captureClear who n s).phase = s.phase := by
  unfold captureClear
  split
  · rfl
  · exact foldl_phase _ _ s fun _ _ => wr_phase ..

@[simp] theorem alertClear_phase (who : Requester) (s : State) : (alertClear who s).phase = s.phase := by simp [alertClear]

@[simp] theorem logReadTo_phase (who : Requester) (v : Nat) (s : State) : (logReadTo who v s).phase = s.phase := by simp [logReadTo]

@[simp] theorem budgetWindow_phase (s : State) : (budgetWindow s).phase = s.phase := rfl

@[simp] theorem telemetrySnapshot_phase (begun : Bool) (s : State) : (telemetrySnapshot begun s).phase = s.phase := by
  simp [telemetrySnapshot, writeCircular, hostWrite]

/-! Firmware. -/

@[simp] theorem ownerKeyOp_phase (signer : Nat) (op : OwnerKeyOp) (s : State) : (ownerKeyOp signer op s).phase = s.phase := by
  cases op with
  | burn slot digest =>
    simp only [ownerKeyOp]
    split <;> simp
  | revoke slot =>
    simp only [ownerKeyOp]
    split <;> simp

@[simp] theorem burnSvn_phase (k n : Nat) (s : State) : (burnSvn k n s).phase = s.phase := by simp [burnSvn]

@[simp] theorem confirmKind_phase (k : Nat) (s : State) : (confirmKind k s).phase = s.phase := by
  unfold confirmKind
  split
  · rfl
  · extract_lets u
    split
    · rfl
    · simp [u]

@[simp] theorem confirm_phase (s : State) : (confirm s).phase = s.phase := by simp [confirm, writeHdr]

@[simp] theorem startLive_phase (s : State) : (startLive s).phase = s.phase := by simp [startLive]

@[simp] theorem fwComponent_phase (im : Image) (s : State) : (fwComponent im s).phase = s.phase := by
  simp [fwComponent, answerSideband, putImage]

/-! Register accesses and the sideband. -/

@[simp] theorem wakeFor_phase (off : Nat) (s : State) : (wakeFor off s).phase = s.phase := by simp [wakeFor]

@[simp] theorem writeReg_phase (fn : Nat) (r : Reg) (i lo n v : Nat) (s : State) : (writeReg fn r i lo n v s).phase = s.phase := by
  unfold writeReg
  split <;> simp [fwConfirm, liveActivate]

@[simp] theorem writeBar0_phase (fn off size v : Nat) (s : State) : (writeBar0 fn off size v s).phase = s.phase := by
  unfold writeBar0
  split
  · rfl
  · simp

@[simp] theorem writeBar2_phase (fn off size v : Nat) (s : State) : (writeBar2 fn off size v s).phase = s.phase := by
  simp [writeBar2]

@[simp] theorem registerWrite_phase (fn off size v : Nat) (s : State) : (registerWrite fn off size v s).phase = s.phase := by
  simp [registerWrite]

@[simp] theorem latchRead_phase (who : Requester) (r : Reg) (i b : Nat) (s : State) : (latchRead who r i b s).2.phase = s.phase := by
  unfold latchRead
  extract_lets mine v
  split
  · rfl
  · split
    · rfl
    · split
      · split <;> rfl
      · rfl

@[simp] theorem readBar0_phase (who : Requester) (off size : Nat) (s : State) : (readBar0 who off size s).2.phase = s.phase := by
  unfold readBar0
  split
  · rfl
  · simp [apply_ite Prod.snd]

@[simp] theorem readBar2_phase (fn off size : Nat) (s : State) : (readBar2 fn off size s).2.phase = s.phase := by
  simp [readBar2, readChit, apply_ite Prod.snd]

@[simp] theorem completeRead_phase (fn off n : Nat) (s : State) : (completeRead fn off n s).phase = s.phase := by
  simp [completeRead, apply_ite Prod.snd]

@[simp] theorem registerRead_phase (who : Requester) (off size : Nat) (s : State) : (registerRead who off size s).phase = s.phase := by
  cases who <;> simp [registerRead]

@[simp] theorem answerSideband_phase (m : SidebandMsg) (s : State) : (answerSideband m s).phase = s.phase := rfl

@[simp] theorem sidebandWord_phase (off : Nat) (s : State) : (sidebandWord off s).2.phase = s.phase := by
  simp [sidebandWord, sidebandState, apply_ite Prod.snd]

@[simp] theorem sidebandWords_phase (off n : Nat) (s : State) : (sidebandWords off n s).2.phase = s.phase :=
  List.foldlRecOn _ _ (motive := fun (acc : Bytes × State) => acc.2.phase = s.phase) rfl
    fun _ kept _ _ => (sidebandWord_phase ..).trans kept

@[simp] theorem sidebandRead_phase (off len : Nat) (s : State) : (sidebandRead off len s).phase = s.phase := by
  unfold sidebandRead
  split
  · rfl
  · split
    · rfl
    · exact sidebandWords_phase off _ s

@[simp] theorem platformRequest_phase (sensor : Nat) (s : State) : (platformRequest sensor s).phase = s.phase := by
  unfold platformRequest
  split
  · rfl
  · split <;> rfl

@[simp] theorem pldmAnswer_phase (s : State) : (pldmAnswer s).phase = s.phase := by simp [pldmAnswer]

end Sys2Proof.Machine
end

section
/-! PROOFS. Boot and firmware: a device at rest ignores what acts only while it runs, and only a boot ends its rest (R511, R520, R552). -/
namespace Sys2Proof.Machine

open Sys2Proof.Claims

/-- A row after which the block settles is also one that is due while the device runs. -/
theorem due_of_work {c : Instr} {s : State} {f : State → State} (row : exec c s = work c.wf s f) : ∃ g, exec c s = due c.wf s g :=
  ⟨fun u => settle (f u), row⟩

/-- A row that does not act at rest goes through the wrapper of events that are due while the device runs. -/
theorem exec_due {c : Instr} (runs : actsAtRest c = false) (s : State) : ∃ f, exec c s = due c.wf s f := by
  cases c with
  | pcieLinkUp | pcieSurpriseDown | pcieHotReset | busMasterEnableWrite | evtRingEnable | evtRingDisable | tillSnap | tillClear
  | registerWrite | registerRead | sidebandRegisterRead | captureClear | alertClear | logReadAdvance | logBudgetWindow
  | telemetrySnapshot | pldmBaseRequest | pldmPlatformRequest | pldmFruRequest | boot | fatalHoldExpiry | pldmFwComponent
  | pldmActivateFirmware | powerOn | tileStart | vauxFail | perstAssert | perstDeassert | supplyStageEnter | supplyStageEnd
  | supplyReset | powerCapAction | powerCapRelease | thermalStep | thermalRecover | thermalTrip | thermalTripRelease | pwrCtrlWrite
  | auxclkLoss | hrefclkLoss | onfiVccqOvercurrent => exact absurd runs Bool.true_eq_false.mp
  | macControlFrame | delayedAck | silenceProbe | unreachableProbe | avoidHoldExpiry | baseRttInterval | egressFrameStart
  | rekeyStart | rekeyExchangeDone | rxInstalled | oldKeyRetire | rekeyTimeout | rekeyRetry | portLinkRetry | serdesEqSettled
  | dmaTimeout | dmaCompleterAbort | coalTimer | stockProbe | replicaPush | replicaHitReport | popHalving | tableFetchRequest
  | replicaWithdraw | sessionKeyExpiry | trialConfirmTimer | fwConfirm | liveActivate | abtoserFault | deviceQuiet
  | quietIdleTimer | powerStateEntryDone | knownEventWake | p3PollWake | p3PollHoldEnd => exact ⟨_, rfl⟩
  | _ => exact due_of_work rfl

/-- Settles O53: the wrapper of the rows that act only while the device runs leaves a device at rest as it is. -/
theorem restingDeviceIgnores : Obligations.RestingDeviceIgnores := by
  intro c s down wf runs
  obtain ⟨f, row⟩ := exec_due runs s
  rw [row, due_down down wf]

/-! Resets: their phase is that of a reset, from which only a boot leads out. -/

theorem fullReset_phase (cause : Nat) (s : State) : (fullReset cause s).phase = .reset := by
  by_cases h : s.phase = .reset
  · rw [fullReset_inReset cause s h, h]
  · exact (fullReset_discards cause s h).1

/-- An effect that does not start a device at rest. -/
def LeavesAtRest (f : State → State) : Prop := ∀ s, running s = false → running (f s) = false

/-- An effect that keeps the phase starts nothing. -/
theorem LeavesAtRest.of_phase {f : State → State} (keeps : ∀ s, (f s).phase = s.phase) : LeavesAtRest f := by
  intro s down
  rwa [running, keeps]

theorem running_of_reset {s : State} (reset : s.phase = .reset) : running s = false := by simp [running, reset]

theorem fullReset_leavesAtRest (cause : Nat) : LeavesAtRest (fullReset cause) := fun s _ => running_of_reset (fullReset_phase cause s)

theorem fullResetTileOff_phase (cause : Nat) (s : State) : (fullResetTileOff cause s).phase = .reset := fullReset_phase cause s

theorem hotReset_leavesAtRest (half : Nat) : LeavesAtRest (hotReset half) := by
  intro s down
  unfold hotReset
  split
  · exact fullReset_leavesAtRest _ s down
  · exact down

theorem holdExpires_leavesAtRest : LeavesAtRest holdExpires := by
  intro s down
  unfold holdExpires
  split
  · exact down
  · exact running_of_reset (fullReset_phase ..)

theorem activateFirmware_leavesAtRest (selfContained : Bool) : LeavesAtRest (activateFirmware selfContained) := by
  intro s down
  unfold activateFirmware
  split
  · exact down
  · split
    · rwa [if_neg (by simp [down])]
    · exact fullReset_leavesAtRest _ s down

theorem powerOnReset_phase (s : State) : (powerOnReset s).phase = .reset := rfl

theorem powerOn_leavesAtRest : LeavesAtRest powerOn := by
  intro s down
  unfold powerOn
  split
  · exact down
  · exact running_of_reset (powerOnReset_phase s)

theorem vauxFail_leavesAtRest : LeavesAtRest vauxFail := fun s _ => running_of_reset (powerOnReset_phase s)

theorem perstAssert_leavesAtRest : LeavesAtRest perstAssert := fullReset_leavesAtRest causePerst

theorem supplyReset_leavesAtRest (high : Bool) : LeavesAtRest (supplyReset high) := by
  intro s down
  unfold supplyReset
  split
  · exact down
  · exact running_of_reset (fullResetTileOff_phase ..)

theorem thermalTrip_leavesAtRest (tj : Nat) : LeavesAtRest (thermalTrip tj) := by
  intro s down
  unfold thermalTrip
  extract_lets u t
  have reset : t.phase = .reset := fullResetTileOff_phase causeTrip u
  clear_value t
  split
  · exact down
  · exact running_of_reset reset

/-! Rows: what they come to on a device at rest. -/

/-- An outcome whose next state, where there is one, does not run. -/
def EndsAtRest (o : Out State) : Prop := ∀ t, o = .next t → running t = false

section
variable {c : Instr} {s : State} {f : State → State} (down : running s = false)
include down

theorem due_endsAtRest (row : exec c s = due c.wf s f) : EndsAtRest (exec c s) := by
  intro t answer
  rw [row] at answer
  cases wf : c.wf with
  | false =>
    rw [wf] at answer
    cases answer
  | true =>
    rw [due_down down wf] at answer
    cases answer
    exact down

theorem always_endsAtRest (leaves : LeavesAtRest f) (row : exec c s = always c.wf s f) : EndsAtRest (exec c s) := by
  intro t answer
  rw [row] at answer
  cases wf : c.wf with
  | false =>
    rw [wf] at answer
    cases answer
  | true =>
    rw [always_ok wf] at answer
    cases answer
    exact leaves s down

theorem workAlways_endsAtRest (leaves : LeavesAtRest f) (row : exec c s = workAlways c.wf s f) : EndsAtRest (exec c s) :=
  always_endsAtRest down (fun u h => by rw [settle_down (leaves u h), leaves u h]) row

theorem inHold_endsAtRest (leaves : LeavesAtRest f) (row : exec c s = inHold c.wf s f) : EndsAtRest (exec c s) := by
  refine always_endsAtRest down (fun u h => ?_) row
  split
  · rw [settle_down (leaves u h), leaves u h]
  · exact h

/-- Row by row, no row but BOOT starts a device at rest. -/
theorem exec_endsAtRest {c : Instr} (notBoot : ∀ env, c ≠ .boot env) : EndsAtRest (exec c s) := by
  cases rest : actsAtRest c with
  | false =>
    obtain ⟨f, row⟩ := exec_due rest s
    exact due_endsAtRest down row
  | true =>
    cases c with
    | boot env => exact absurd rfl (notBoot env)
    | pcieLinkUp half rate width cxl => 
      exact workAlways_endsAtRest (f := fun u => if u.power.tileOn && !u.power.perst then linkUp half rate width cxl u else u) down
        (.of_phase fun u => by simp) rfl
    | pcieSurpriseDown half => exact workAlways_endsAtRest down (.of_phase (surpriseDown_phase half)) rfl
    | pcieHotReset half => exact always_endsAtRest down (hotReset_leavesAtRest half) rfl
    | busMasterEnableWrite fn enable => exact workAlways_endsAtRest down (.of_phase (busMaster_phase fn enable)) rfl
    | evtRingEnable fn v => exact always_endsAtRest down (.of_phase (evtCfgWrite_phase fn (withBit0 1 v))) rfl
    | evtRingDisable fn v => exact always_endsAtRest down (.of_phase (evtCfgWrite_phase fn (withBit0 0 v))) rfl
    | tillSnap fn p => exact inHold_endsAtRest down (.of_phase (tillWrite_phase fn p true false)) rfl
    | tillClear fn p snap => exact inHold_endsAtRest down (.of_phase (tillWrite_phase fn p snap true)) rfl
    | registerWrite fn off size v => exact workAlways_endsAtRest down (.of_phase (registerWrite_phase fn off size v)) rfl
    | registerRead who off size => exact always_endsAtRest down (.of_phase (registerRead_phase who off size)) rfl
    | sidebandRegisterRead off len => exact always_endsAtRest down (.of_phase (sidebandRead_phase off len)) rfl
    | captureClear who n => exact always_endsAtRest down (.of_phase (captureClear_phase who n)) rfl
    | alertClear who => exact always_endsAtRest down (.of_phase (alertClear_phase who)) rfl
    | logReadAdvance who v => exact always_endsAtRest down (.of_phase (logReadTo_phase who v)) rfl
    | logBudgetWindow => exact always_endsAtRest down (.of_phase budgetWindow_phase) rfl
    | telemetrySnapshot begun => exact inHold_endsAtRest down (.of_phase (telemetrySnapshot_phase begun)) rfl
    | pldmBaseRequest | pldmFruRequest => exact always_endsAtRest down (.of_phase pldmAnswer_phase) rfl
    | pldmPlatformRequest sensor => exact always_endsAtRest down (.of_phase (platformRequest_phase sensor)) rfl
    | fatalHoldExpiry => exact always_endsAtRest down holdExpires_leavesAtRest rfl
    | pldmFwComponent im => exact always_endsAtRest down (.of_phase (fwComponent_phase im)) rfl
    | pldmActivateFirmware b => exact always_endsAtRest down (activateFirmware_leavesAtRest b) rfl
    | powerOn => exact always_endsAtRest down powerOn_leavesAtRest rfl
    | tileStart => exact always_endsAtRest down (.of_phase tileStart_phase) rfl
    | vauxFail => exact always_endsAtRest down vauxFail_leavesAtRest rfl
    | perstAssert => exact always_endsAtRest down perstAssert_leavesAtRest rfl
    | perstDeassert straps => exact always_endsAtRest down (.of_phase (perstDeassert_phase straps)) rfl
    | supplyStageEnter g mv => exact inHold_endsAtRest down (.of_phase (stageEnter_phase g mv)) rfl
    | supplyStageEnd g mv => exact inHold_endsAtRest down (.of_phase fun _ => (resumePushes_phase _).trans (endStage_phase g mv _)) rfl
    | supplyReset high => exact always_endsAtRest down (supplyReset_leavesAtRest high) rfl
    | powerCapAction m in100 in1s stall => exact inHold_endsAtRest down (.of_phase (powerCap_phase m in100 in1s stall)) rfl
    | powerCapRelease => exact inHold_endsAtRest down (.of_phase capRelease_phase) rfl
    | thermalStep tj => exact inHold_endsAtRest down (.of_phase (thermalStep_phase tj)) rfl
    | thermalRecover tj => exact inHold_endsAtRest down (.of_phase (thermalRecover_phase tj)) rfl
    | thermalTrip tj => exact always_endsAtRest down (thermalTrip_leavesAtRest tj) rfl
    | thermalTripRelease => exact always_endsAtRest down (.of_phase tripRelease_phase) rfl
    | pwrCtrlWrite fn v => exact inHold_endsAtRest down (.of_phase (pwrCtrlWrite_phase fn v)) rfl
    | auxclkLoss => exact inHold_endsAtRest down (.of_phase auxLost_phase) rfl
    | hrefclkLoss half => exact workAlways_endsAtRest down (.of_phase (hrefLost_phase half)) rfl
    | onfiVccqOvercurrent => exact inHold_endsAtRest down (.of_phase onfiOvercurrent_phase) rfl
    | _ => exact absurd rest Bool.false_ne_true

/-- A BOOT whose reset is not released does nothing. -/
theorem boot_held_endsAtRest {env : BootEnv} (held : released s = false) : EndsAtRest (exec (.boot env) s) := by
  have same : boot env s = s := if_pos held
  have row : exec (.boot env) s = workAlways true s (boot env) := rfl
  intro t answer
  rw [row, workAlways_ok rfl, same, settle_down down] at answer
  cases answer
  exact down

end

/-- Settles O54: every row but BOOT leaves a device at rest, and so does BOOT while the reset is not released. -/
theorem onlyBootStartsTheDevice : Obligations.OnlyBootStartsTheDevice := by
  intro c s t down answer up
  by_cases isBoot : ∃ env, c = .boot env
  · obtain ⟨env, rfl⟩ := isBoot
    refine ⟨env, rfl, ?_⟩
    by_contra held
    exact absurd up (by simp [boot_held_endsAtRest down (by simpa using held) t answer])
  · exact absurd up (by simp [exec_endsAtRest down (fun env h => isBoot ⟨env, h⟩) t answer])

end Sys2Proof.Machine
end

section
/-! PROOFS. Boot and firmware: stallholders that fail and restart, trials and live activation (R507, R517, R518, R520 to R527). -/
namespace Sys2Proof.Machine

open Sys2Proof.Claims

/-! A stallholder that fails (R517, R520, R521, R523). -/

/-- The moment of a failure: a watchdog expires 10 ms after READY or the end of the boot, at the soonest. -/
def failedAt (k cause : Nat) (s : State) : State :=
  if cause = 1 ∧ rd s .hallCoreState k = 0 then reach (max s.bootedAt (coreAt s k).readyAt + 10000000) s else s

/-- The restarts within the last second, with the one that starts now. -/
def recentRestarts (s : State) : List Nat := s.restarts.filter (fun t => decide (s.localTime ≤ t + 1000000000)) ++ [s.localTime]

/-- The core restarts from the bank it ran from, and the restart is counted. -/
def restarted (k cause : Nat) (s : State) : State :=
  restartCore k cause (coreAt s k).newBank { s with restarts := recentRestarts s }

theorem coreFails_eq (k cause : Nat) (s : State) : coreFails k cause s =
    let u := failedAt k cause s
    if inTurnCore u k then activationFails k u else if wentBack u k then escalate (srcCore k) u
    else if 3 ≤ (recentRestarts u).length then escalate (srcCore k) (restarted k cause u) else restarted k cause u := rfl

section
variable {k cause : Nat} {s u : State} (failed : failedAt k cause s = u)
include failed

theorem coreFails_inTurn (turn : inTurnCore u k = true) : coreFails k cause s = activationFails k u := by
  rw [coreFails_eq, failed, if_pos turn]

theorem coreFails_wentBack (turn : inTurnCore u k = false) (back : wentBack u k = true) :
    coreFails k cause s = escalate (srcCore k) u := by
  simp only [coreFails_eq, failed, turn, back, Bool.false_eq_true, if_false, if_true]

theorem coreFails_restarts (turn : inTurnCore u k = false) (back : wentBack u k = false) : coreFails k cause s =
    if 3 ≤ (recentRestarts u).length then escalate (srcCore k) (restarted k cause u) else restarted k cause u := by
  simp only [coreFails_eq, failed, turn, back, Bool.false_eq_true, if_false]

end

/-- The row of a failure's cause. -/
def failureRow (k cause : Nat) : Instr :=
  if cause = 1 then .coreWatchdog k else if cause = 2 then .coreException k else .coreSramError k

theorem exec_failureRow {k cause : Nat} (s : State) (known : cause = 1 ∨ cause = 2 ∨ cause = 3) :
    exec (failureRow k cause) s = work (coreOk k) s (coreFails k cause) := by
  rcases known with rfl | rfl | rfl <;> rfl

/-! A stallholder that restarts (R517, R518, R520, R523). -/

/-- A restarting core is READY: it is counted, and resumes what it does before its rings. -/
def readyAgain (k : Nat) (s : State) : State :=
  resumeCore k (wr .hallCoreState k 0 (wr .hallCoreLastUs k (min 65535 ((s.localTime - (coreAt s k).restartAt) / 1000))
    (onCore k (fun x => { x with readyAt := s.localTime }) s)))

section
variable {k : Nat} {s : State} (restarting : rd s .hallCoreState k ≠ 0)
include restarting

theorem coreReady_restarting : coreReady k s =
    let u := readyAgain k s
    if inTurnCore s k = false then u else if k = 0 then activationDone u
    else restartCore (k - 1) 4 true { u with live := { u.live with turn := k - 1 } } := if_neg restarting

theorem coreReady_alone (turn : inTurnCore s k = false) : coreReady k s = readyAgain k s :=
  (coreReady_restarting restarting).trans (if_pos turn)

theorem coreReady_last (turn : inTurnCore s k = true) (last : k = 0) : coreReady k s = activationDone (readyAgain k s) :=
  (coreReady_restarting restarting).trans ((if_neg (by simp [turn])).trans (if_pos last))

theorem coreReady_next (turn : inTurnCore s k = true) (more : k ≠ 0) : coreReady k s =
    restartCore (k - 1) 4 true { readyAgain k s with live := { (readyAgain k s).live with turn := k - 1 } } :=
  (coreReady_restarting restarting).trans ((if_neg (by simp [turn])).trans (if_neg more))

end

theorem coreEventsComplete : CoreEventsComplete := by
  refine ⟨fun k cause s up core known => ?_, fun k s up core restarting => ?_, fun k s up core restarting => ?_,
    fun s up => gives_due rfl up rfl rfl, fun s hold => gives_always rfl (if_neg (by simp [hold]))⟩
  · intro row u recent v
    have fails {t : State} (effect : coreFails k cause s = t) : Works row s t := works_work (exec_failureRow s known) up core effect
    have failed : failedAt k cause s = u := rfl
    refine ⟨fun turn => fails (coreFails_inTurn failed turn), fun turn back => fails (coreFails_wentBack failed turn back),
      fun turn back few => fails ?_, fun turn back many => fails ?_⟩
    · exact (coreFails_restarts failed turn back).trans (if_neg (Nat.not_le.mpr few))
    · exact (coreFails_restarts failed turn back).trans (if_pos many)
  · intro us u
    exact ⟨fun turn => works_work rfl up core (coreReady_alone restarting turn),
      fun turn last => works_work rfl up core (coreReady_last restarting turn last),
      fun turn more => works_work rfl up core (coreReady_next restarting turn more)⟩
  · exact works_work rfl up core (if_neg restarting)

/-! Trials and live activation (R507, R522, R523, R526). -/

/-- Some kind of image is on trial. -/
def trialRuns (s : State) : Bool := (List.range 3).any (fun k => on s .secImageTrial k)

theorem noTrial_eq (s : State) : (List.range 3).all (fun k => !(on s .secImageTrial k)) = !(trialRuns s) := by
  simp [trialRuns, List.all_eq_not_any_not]

theorem confirm_rests {s : State} (none_ : trialRuns s = false) : confirm s = s :=
  if_pos (by rw [noTrial_eq, none_]; rfl)

theorem trialTimer_rests {s : State} (none_ : trialRuns s = false) : trialTimer s = s :=
  if_pos (by rw [noTrial_eq, none_]; rfl)

/-- The header in which the trials of a state have ended. -/
def trialsEnded (s : State) : BootHdr :=
  (List.range 3).foldl (fun h k => if on s .secImageTrial k then h.name k (h.slot k) false else h) ((hdrOf s.xspi).getD BootHdr.first)

theorem confirm_trial {s : State} (trial : trialRuns s = true) :
    confirm s = each (List.range 3) confirmKind (writeHdr (trialsEnded s) s) :=
  if_neg (by rw [noTrial_eq, trial]; simp)

theorem trialTimer_trial {s : State} (trial : trialRuns s = true) : trialTimer s = confirm (reach (s.bootedAt + 60000000000) s) :=
  if_neg (by rw [noTrial_eq, trial]; simp)

theorem startLive_starts {s : State} {im : Image} (idle : s.live.active = false) (image : liveImage s = some im) :
    startLive s = wr .secFwCtrlActState 0 1 (wr .secFwCtrlActCore 0 0
      { s with live := { s.live with active := true, copied := false, turn := 3, oldImage := s.fwRunning } }) :=
  if_neg (by simp [idle, image])

section
variable {s : State} (active : s.live.active = true) (copies : s.live.copied = false)
include active copies

theorem liveCopied_verified {im : Image} (image : liveImage s = some im) :
    liveCopied true s = restartCore 3 4 true (wr .secFwCtrlActState 0 2
      { s with live := { s.live with copied := true, turn := 3 }, fwRunning := some im }) := by
  simp [liveCopied, active, copies, image]

theorem liveCopied_fails {v : Bool} (fails : v = false ∨ liveImage s = none) :
    liveCopied v s = wr .secFwCtrlActState 0 4 { s with live := { s.live with active := false, oldImage := none } } := by
  rcases fails with rfl | none_
  · simp [liveCopied, active, copies]
  · simp [liveCopied, active, copies, none_]

end

theorem firmwareEventsComplete : FirmwareEventsComplete := by
  refine ⟨fun s up trial => ?_, fun s up none_ => ?_, fun s fn up fnThere other => ?_, fun s im up idle image => ?_,
    fun s im up active copies image => ?_, fun v s up active copies fails => ?_, fun k s up core turn => ?_⟩
  · exact ⟨gives_due rfl up rfl ((trialTimer_trial trial).trans (confirm_trial trial)), gives_due rfl up rfl (confirm_trial trial)⟩
  · exact ⟨gives_due rfl up rfl (trialTimer_rests none_), gives_due rfl up rfl (confirm_rests none_)⟩
  · exact ⟨gives_due rfl up fnThere (if_neg other), gives_due rfl up fnThere (if_neg other)⟩
  · exact gives_due rfl up rfl (startLive_starts idle image)
  · exact works_work rfl up rfl (liveCopied_verified active copies image)
  · exact works_work rfl up rfl (liveCopied_fails active copies fails)
  · exact works_work rfl up core (if_pos turn)

/-- Settles O36: the rows of the stallholders, and those of trials and live activation. -/
theorem coreRowsComplete : Obligations.CoreRowsComplete := ⟨coreEventsComplete, firmwareEventsComplete⟩

end Sys2Proof.Machine
end

section
/-! PROOFS. Power and reset: memories in canonical form, and the state after reset (R530, R552, R554). -/
namespace Sys2Proof.Machine

/-! Memories in canonical form. -/

theorem memory_readN_succ (m : Memory) (a n : Nat) :
    Memory.readN m a (n + 1) = Memory.read m a :: Memory.readN m (a + 1) n := by
  simp [Memory.readN, List.range_succ_eq_map, Nat.add_assoc, Nat.add_comm 1]

/-- A byte string reads back: each byte stands once the later ones are stored above it. -/
theorem memory_readN_writeN (bs : Bytes) : ∀ (m : Memory) (a : Nat), Memory.wf m = true →
    Memory.readN (Memory.writeN m a bs) a bs.length = bs := by
  induction bs with
  | nil => exact fun m a _ => rfl
  | cons b t ih =>
    intro m a h
    have wf := memory_write_wf m a b h
    have first : Memory.read (Memory.writeN (Memory.write m a b) (a + 1) t) a = b := by
      rw [memory_read_writeN t _ _ _ wf (.inl (Nat.lt_succ_self a)), memory_read_write m a b a h, if_pos rfl]
    rw [Memory.writeN, List.length_cons, memory_readN_succ, first, ih _ _ wf]

/-- A read after some cells are left out, which needs no canonical form: all cells of an address are kept or none. -/
theorem memory_read_filter (m : Memory) (keep : Nat → Bool) (a : Nat) :
    Memory.read (m.filter (fun c => keep c.1)) a = if keep a then Memory.read m a else 0 := by
  induction m with
  | nil => simp [Memory.read]
  | cons c t ih =>
    rw [List.filter_cons]
    by_cases own : a = c.1
    · subst own
      by_cases kept : keep c.1 <;> simp [Memory.read, kept, ih]
    · by_cases kept : keep c.1 <;> simp [Memory.read, own, kept, ih]

/-- A range set to 0 reads 0, and the rest what stood there. -/
theorem memory_read_zero (m : Memory) (lo n a : Nat) :
    Memory.read (Memory.zero m lo n) a = if lo ≤ a ∧ a < lo + n then 0 else Memory.read m a := by
  refine (memory_read_filter m (fun k => !(lo ≤ k && k < lo + n)) a).trans ?_
  by_cases inside : lo ≤ a ∧ a < lo + n <;> simp [inside]

/-- The first address listed reads other than 0. -/
theorem memory_read_head {c : Host.Cell} {m : Memory} (h : Memory.wf (c :: m) = true) : Memory.read (c :: m) c.1 ≠ 0 := by
  obtain ⟨value, -, -⟩ := (memory_wf_cons c m).mp h
  simpa [Memory.read] using value

/-- What follows the first cell lists no address at or below it. -/
theorem memory_read_tail {c : Host.Cell} {m : Memory} (h : Memory.wf (c :: m) = true) {a : Nat} (below : a ≤ c.1) :
    Memory.read m a = 0 := by
  obtain ⟨-, rises, -⟩ := (memory_wf_cons c m).mp h
  exact memory_read_absent m a fun d hd => (Nat.lt_of_le_of_lt below (rises d hd)).ne'

/-- Of two memories that read alike neither begins at a lower address: the other would read 0 there. -/
theorem memory_head_le {c d : Host.Cell} {m n : Memory} (hm : Memory.wf (c :: m) = true) (hn : Memory.wf (d :: n) = true)
    (alike : ∀ a, Memory.read (c :: m) a = Memory.read (d :: n) a) : d.1 ≤ c.1 := by
  by_contra lower
  have absent : Memory.read (d :: n) c.1 = 0 := by
    have other : c.1 ≠ d.1 := by omega
    simpa only [Memory.read, if_neg other] using memory_read_tail hn (by omega)
  exact memory_read_head hm ((alike c.1).trans absent)

/-- Canonical memories that read alike are equal, cell by cell. -/
theorem memory_ext : ∀ (m n : Memory), Memory.wf m = true → Memory.wf n = true → (∀ a, Memory.read m a = Memory.read n a) → m = n
  | [], [], _, _, _ => rfl
  | [], d :: _, _, hn, alike => absurd (alike d.1).symm (memory_read_head hn)
  | c :: _, [], hm, _, alike => absurd (alike c.1) (memory_read_head hm)
  | c :: m, d :: n, hm, hn, alike => by
    have place : c.1 = d.1 := Nat.le_antisymm (memory_head_le hn hm fun a => (alike a).symm) (memory_head_le hm hn alike)
    have value : c.2 = d.2 := by simpa [Memory.read, place] using alike c.1
    have rest : m = n := by
      obtain ⟨-, -, wfM⟩ := (memory_wf_cons c m).mp hm
      obtain ⟨-, -, wfN⟩ := (memory_wf_cons d n).mp hn
      refine memory_ext m n wfM wfN fun a => ?_
      by_cases own : a = c.1
      · rw [memory_read_tail hm own.le, memory_read_tail hn (own.trans place).le]
      · simpa only [Memory.read, if_neg own, if_neg (place ▸ own)] using alike a
    rw [Prod.ext place value, rest]

/-- Settles O55: writes and zeroed ranges by what they read, and equality by the first cell of each memory. -/
theorem memoriesAreCanonical : Obligations.MemoriesAreCanonical := by
  refine ⟨fun m a b c wf => ⟨memory_write_wf m a b wf, memory_read_write m a b c wf⟩,
    fun m a bs wf => ⟨?_, ?_, fun c apart => ?_⟩,
    fun m lo n c wf => ⟨memory_zero_wf m lo n wf, memory_read_zero m lo n c⟩, memory_ext⟩
  · exact memory_writeN_wf bs m a wf
  · exact memory_readN_writeN bs m a wf
  · exact memory_read_writeN bs m a c wf apart

/-! After reset. -/

/-- Settles O4: no command waits after reset. -/
theorem resetQueueOk : Obligations.ResetQueueOk := ⟨fun _ waits => absurd waits List.not_mem_nil, rfl⟩

/-- A field that the register file does not list holds its reset value. -/
theorem rd_unlisted {s : State} {f : Fld} {i : Nat} (h : RegFile.get s.regs ⟨f, i⟩ = none) : rd s f i = resetValue s f i := by
  rw [rd, h, Option.getD_none]

/-- Settles O52: after reset every table is empty, and so are the register file and the memories. -/
theorem resetState : Obligations.ResetState := by
  refine ⟨running_of_reset rfl, rfl, rfl, rfl, rfl, fun f i => rd_unlisted rfl, fun a => ⟨?_, ?_, ?_⟩, reset_memories_wf⟩
  · exact memory_read_absent State.reset.dram a (by simp [State.reset])
  · exact memory_read_absent State.reset.hall a (by simp [State.reset])
  · exact memory_read_absent State.reset.hostMem a (by simp [State.reset])

end Sys2Proof.Machine
end

section
/-! PROOFS. Power and reset: supply stages, and the reset of a supply out of range (R534 to R538). -/
namespace Sys2Proof.Machine

open Sys2Proof.Claims

/-- What a row with operands answers that acts while the host is answered. -/
theorem works_inHold_named {c : Instr} {s u : State} {ok : Bool} {f : State → State} (row : exec c s = inHold ok s f)
    (host : hostAnswers s = true) (named : ok = true) (effect : f s = u) : Works c s u :=
  works_inHold (row.trans (congrArg (inHold · s f) named)) host effect

/-- The stages from the lightest not in effect up to g, with what each sheds (R534, R535). -/
def stagesEntered (g : Nat) (s : State) : State :=
  each ((List.range (g - rd s .pwrStageStage 0)).map (fun i => rd s .pwrStageStage 0 + 1 + i))
    (fun k s => sayStage .stageEntered (shed k (wr .pwrStageStage 0 k s))) s

theorem enterStage_enters {g mv : Nat} {s : State} (low : mv ≤ stageMv g) (new : rd (wr .pwrSupplyVinMv 0 mv s) .pwrStageStage 0 < g) :
    enterStage g mv s = stagesEntered g (wr .pwrSupplyVinMv 0 mv s) :=
  if_neg (not_or.mpr ⟨Nat.not_lt.mpr low, Nat.not_le.mpr new⟩)

theorem enterStage_rests {g mv : Nat} {s : State} (rests : stageMv g < mv ∨ g ≤ rd (wr .pwrSupplyVinMv 0 mv s) .pwrStageStage 0) :
    enterStage g mv s = wr .pwrSupplyVinMv 0 mv s := if_pos rests

/-- Stages entered across stage B in P0 recall what lenders lent (R266, R535). -/
theorem stageEnter_enters {g mv : Nat} {s : State} (low : mv ≤ stageMv g) (new : rd (wr .pwrSupplyVinMv 0 mv s) .pwrStageStage 0 < g) :
    let v := stagesEntered g (wr .pwrSupplyVinMv 0 mv s)
    stageEnter g mv s
      = if rd s .pwrStageStage 0 < 2 ∧ 2 ≤ rd v .pwrStageStage 0 ∧ rd v .pwrStateState 0 = 0 then recallOnStage v else v := by
  rw [stageEnter, enterStage_enters low new]

/-- No stage is entered, so that none crosses stage B. -/
theorem stageEnter_rests {g mv : Nat} {s : State} (rests : stageMv g < mv ∨ g ≤ rd (wr .pwrSupplyVinMv 0 mv s) .pwrStageStage 0) :
    stageEnter g mv s = wr .pwrSupplyVinMv 0 mv s := by
  have kept : rd (wr .pwrSupplyVinMv 0 mv s) .pwrStageStage 0 = rd s .pwrStageStage 0 := rd_wr_ne _ _ _ _ _ _ (.inl (by decide))
  rw [stageEnter, enterStage_rests rests, kept]
  exact if_neg fun crossed => by omega

theorem endStage_ends {g mv : Nat} {s : State} (high : stageMv g + 1000 ≤ mv)
    (heaviest : rd (wr .pwrSupplyVinMv 0 mv s) .pwrStageStage 0 = g) :
    let v := wr .pwrStageStage 0 (g - 1) (wr .pwrSupplyVinMv 0 mv s)
    endStage g mv s = sayStage .stageEnded
      (if g = 1 then wr .errTelemCtrlShed 0 0 v else if g = 3 then wakePorts v
        else if g = 2 then { v with flashHeld := v.flashQueue } else v) :=
  if_neg (not_or.mpr ⟨Nat.not_lt.mpr high, not_not.mpr heaviest.symm⟩)

theorem endStage_rests {g mv : Nat} {s : State}
    (rests : mv < stageMv g + 1000 ∨ rd (wr .pwrSupplyVinMv 0 mv s) .pwrStageStage 0 ≠ g) :
    endStage g mv s = wr .pwrSupplyVinMv 0 mv s := if_pos (rests.imp_right Ne.symm)

theorem supplyReset_tileOn (high : Bool) {s : State} (tile : s.power.tileOn = true) :
    supplyReset high s
      = fullResetTileOff (if high then causeVinHigh else causeVinLow) (bump .pwrResetCauseSupplyResets 0 1 s) :=
  if_neg (by simp [tile])

/-- Settles O37: the rows of the supply, each by the equation of its effect. -/
theorem supplyEventsComplete : Obligations.SupplyEventsComplete := by
  have row {g mv : Nat} {s u : State} (host : hostAnswers s = true) (stage : stageOk g = true) (effect : endStage g mv s = u) :
      Works (.supplyStageEnd g mv) s (resumePushes u) :=
    works_inHold_named (f := fun s => resumePushes (endStage g mv s)) rfl host stage (congrArg resumePushes effect)
  refine ⟨fun g mv s host stage => ⟨fun low new => ?_, fun _ rests => ?_⟩,
    fun g mv s host stage => ⟨fun high heaviest => ?_, fun rests => ?_⟩,
    fun high s tile => ?_⟩
  · exact works_inHold_named rfl host stage (stageEnter_enters low new)
  · exact works_inHold_named rfl host stage (stageEnter_rests rests)
  · exact row host stage (endStage_ends high heaviest)
  · exact row host stage (endStage_rests rests)
  · exact gives_always rfl (supplyReset_tileOn high tile)

end Sys2Proof.Machine
end

section
/-! PROOFS. Power and reset: power states (R542 to R549, R554, R559, R561). -/
namespace Sys2Proof.Machine

open Sys2Proof.Claims

/-! Quiet, and the entry into a state (R542, R546). -/

section
variable {s : State} (quiet : isQuiet s = true) (awake : rd s .pwrStateState 0 = 0) (still : s.power.move = .none)
  (free : s.power.holdUntil ≤ s.localTime)
include quiet awake still free

theorem deviceQuiet_unknown (unknown : nextEvent s = none) :
    deviceQuiet s = { s with power := { s.power with move := .quiet, quietAt := s.localTime, event := none } } := by
  refine (if_neg (by simp [quiet, awake, still, free])).trans ?_
  rw [unknown]

theorem deviceQuiet_known {e : Nat} (known : nextEvent s = some e) :
    deviceQuiet s = enterPower (deepest s (rd s .pwrCtrlMaxState 0)
      (fun n => decide (10 * (entryCost n + wakeLatency n) ≤ 9 * (e - s.localTime)))) (some e) s := by
  refine (if_neg (by simp [quiet, awake, still, free])).trans ?_
  rw [known]

end

theorem quietTimer_quiet {s : State} (waits : s.power.move = .quiet) (quiet : isQuiet s = true) :
    let u := reach (s.power.quietAt + 1000000) s
    quietTimer s = enterPower (deepest u (min (rd u .pwrCtrlDeepIdle 0) (rd u .pwrCtrlMaxState 0)) (fun _ => true)) none u :=
  (if_neg (not_not.mpr waits)).trans (if_neg (by simp [quiet]))

theorem quietTimer_disturbed {s : State} (waits : s.power.move = .quiet) (disturbed : isQuiet s = false) :
    quietTimer s = { s with power := { s.power with move := .none } } :=
  (if_neg (not_not.mpr waits)).trans (if_pos (by simp [disturbed]))

/-! Wakes (R546 to R549). -/

theorem eventWake_known {s : State} {e : Nat} (known : nextEvent s = some e) (rests : resting s = true) :
    let u := reach (e - wakeLatency (rd s .pwrStateState 0)) s
    let hold := if rd s .pwrStateState 0 = 3 ∧ e = s.power.pollAt then e + 20000000 else s.power.holdUntil
    eventWake s = { u with power := { u.power with move := .waking, event := some e, holdUntil := hold } } := by
  unfold eventWake
  rw [known]
  exact if_neg (by simp [rests])

theorem pollWake_rests {s : State} (p3 : rd s .pwrStateState 0 = 3) (rests : resting s = true) :
    let u := reach s.power.pollAt s
    pollWake s = { u with power := { u.power with move := .waking, event := none, holdUntil := u.localTime + wakeLatency 3 + 20000000 } } :=
  if_neg (by simp [p3, rests])

theorem pollHoldEnds_held {s : State} (held : s.power.holdUntil ≠ 0) :
    let u := reach s.power.holdUntil s
    pollHoldEnds s = { u with power := { u.power with holdUntil := 0 } } := if_neg held

/-- Settles O39: the rows of power states, each by the equation of its effect. -/
theorem powerStatesComplete : Obligations.PowerStatesComplete := by
  refine ⟨fun s up quiet awake still free => ⟨fun unknown => ?_, fun e known => ?_⟩,
    fun s up waits => ⟨fun quiet => ?_, fun disturbed => ?_⟩,
    fun s n up enters _ _ => ?_, fun s e up known rests => ?_, fun s up p3 rests => ?_, fun s up held => ?_, fun s up => ?_,
    fun s up wakes => ?_, fun v s host => ?_, fun fn v s host fnThere other => ?_⟩
  · exact gives_due rfl up rfl (deviceQuiet_unknown quiet awake still free unknown)
  · exact gives_due rfl up rfl (deviceQuiet_known quiet awake still free known)
  · exact gives_due rfl up rfl (quietTimer_quiet waits quiet)
  · exact gives_due rfl up rfl (quietTimer_disturbed waits disturbed)
  · refine gives_due rfl up rfl ?_
    unfold entryDone
    rw [enters]
  · exact gives_due rfl up rfl (eventWake_known known rests)
  · exact gives_due rfl up rfl (pollWake_rests p3 rests)
  · exact gives_due rfl up rfl (pollHoldEnds_held held)
  · have row (a : Arrival) {u : State} (named : a.wf = true) (effect : wakeArrival a s = u) : Works (.wakeArrival a) s u :=
      works_work rfl up named effect
    exact ⟨row .doorbell rfl rfl, row .registerAccess rfl rfl, row .cxlAccess rfl rfl, row .alarm rfl rfl, row .sidebandRequest rfl rfl,
      fun p port => row (.controlPacket p) port rfl, fun f port => row (.dataFrame f) port (arrives_eq f s)⟩
  · intro n late s1 s2 s3 s4 s5 s6 s7
    refine works_work rfl up rfl ?_
    rw [wakeDone, if_neg (not_not.mpr wakes)]
    extract_lets wasLate
    have same : wasLate = late := by
      cases event : s.power.event <;> simp only [wasLate, late, event] <;> rfl
    clear_value wasLate late
    subst same
    rfl
  · exact works_inHold_named rfl host rfl rfl
  · exact works_inHold_named rfl host fnThere (if_pos other)

end Sys2Proof.Machine
end

section
/-! PROOFS. Errors and telemetry: captures, ALERT, the log and telemetry snapshots (R567 to R573, R578, R580, R581, R583, R584). -/
namespace Sys2Proof.Machine

open Sys2Proof.Claims

/-- What a row with operands answers that acts in every phase and after which nothing settles. -/
theorem gives_always_named {c : Instr} {s u : State} {ok : Bool} {f : State → State} (row : exec c s = always ok s f)
    (named : ok = true) (effect : f s = u) : Gives c s u :=
  gives_always (row.trans (congrArg (always · s f) named)) effect

/-! Captures (R569, R584). -/

/-- The fields of a capture record. -/
def captureFields : List Fld :=
  [.errCaptureValid, .errCaptureSeverity, .errCaptureOverwrote, .errCaptureCode, .errCapturePitch, .errCapturePitchValid,
   .errCaptureMore, .errCaptureBoot, .errCaptureTime, .errCaptureDetail0, .errCaptureDetail1]

/-- Fields of one register set to 0, one after the other. -/
def clearFields (l : List Fld) (n : Nat) (s : State) : State := l.foldl (fun s f => wr f n 0 s) s

theorem clearFields_crier (l : List Fld) (n : Nat) (s : State) : (clearFields l n s).crier = s.crier :=
  List.foldlRecOn (motive := fun t : State => t.crier = s.crier) l _ rfl fun _ kept _ _ => kept

/-- A field that reads 0 does so whatever further fields are set to 0. -/
theorem rd_clearFields_zero {f : Fld} {n : Nat} (l : List Fld) {s : State} (zero : rd s f n = 0) : rd (clearFields l n s) f n = 0 := by
  refine List.foldlRecOn (motive := fun t => rd t f n = 0) l _ zero fun t kept g _ => ?_
  by_cases own : g = f
  · rw [own, rd_wr, Nat.zero_mod]
  · rw [rd_wr_ne _ _ _ _ _ _ (.inl own), kept]

theorem rd_clearFields {f : Fld} {n : Nat} {l : List Fld} {s : State} (listed : f ∈ l) : rd (clearFields l n s) f n = 0 := by
  induction l generalizing s with
  | nil => contradiction
  | cons g l ih =>
    show rd (clearFields l n (wr g n 0 s)) f n = 0
    rcases List.mem_cons.mp listed with rfl | later
    · exact rd_clearFields_zero l (by rw [rd_wr, Nat.zero_mod])
    · exact ih later

theorem captureClear_operator {who : Requester} {n : Nat} {s : State} (may : alwaysOnWrite who = true) (unit : sourceNamed n = true) :
    captureClear who n s = clearFields captureFields n s := if_neg (by simp [may, unit])

theorem captureClear_ignored {who : Requester} {n : Nat} {s : State} (ignored : (alwaysOnWrite who && sourceNamed n) = false) :
    captureClear who n s = s := if_pos ((Bool.and_eq_false_iff ..).mp ignored)

/-! ALERT and the log (R567, R572, R583). -/

theorem alertClear_operator {who : Requester} {s : State} (may : alwaysOnWrite who = true) (boots : s.phase ≠ .stopped) :
    alertClear who s = wr .errAlarmAlert 0 0 s := if_neg (by simp [may, boots])

theorem alertClear_ignored {who : Requester} {s : State} (ignored : alwaysOnWrite who = false ∨ s.phase = .stopped) :
    alertClear who s = s := if_pos ignored

theorem logReadTo_unread {who : Requester} {v : Nat} {s : State} (may : alwaysOnWrite who = true)
    (unread : (v % 2048 + 2048 - rd s .errLogPtrRead 0) % 2048 ≤ logUnread s) :
    logReadTo who v s = wr .errLogPtrRead 0 (v % 2048) s :=
  (if_neg (by simp [may])).trans (if_neg (Nat.not_lt.mpr unread))

theorem logReadTo_past {who : Requester} {v : Nat} {s : State} (may : alwaysOnWrite who = true)
    (past : logUnread s < (v % 2048 + 2048 - rd s .errLogPtrRead 0) % 2048) :
    logReadTo who v s = report srcReset .refusedAccess sevContained none s :=
  (if_neg (by simp [may])).trans (if_pos past)

theorem logReadTo_ignored {who : Requester} {v : Nat} {s : State} (ignored : alwaysOnWrite who = false) : logReadTo who v s = s :=
  if_pos ignored

/-- The rows of captures, ALERT and the log, each by the equation of its effect. -/
theorem crierCommandsComplete : CrierCommandsComplete := by
  refine ⟨fun w n s who source => ⟨fun may unit => ⟨?_, ?_, ?_⟩, fun ignored => ?_⟩,
    fun w s who => ⟨fun may boots => ?_, fun ignored => ?_⟩,
    fun w n s who => ⟨fun may unread => ?_, fun may past => ?_, fun ignored => ?_⟩,
    fun s => gives_always rfl rfl⟩
  · exact gives_always_named rfl (Bool.and_eq_true_iff.mpr ⟨who, source⟩) (captureClear_operator may unit)
  · exact List.all_eq_true.mpr fun f listed => beq_iff_eq.mpr (rd_clearFields (l := captureFields) listed)
  · exact clearFields_crier captureFields n s
  · exact gives_always_named rfl (Bool.and_eq_true_iff.mpr ⟨who, source⟩) (captureClear_ignored ignored)
  · exact gives_always_named rfl who (alertClear_operator may boots)
  · exact gives_always_named rfl who (alertClear_ignored ignored)
  · exact gives_always_named rfl who (logReadTo_unread may unread)
  · exact gives_always_named rfl who (logReadTo_past may past)
  · exact gives_always_named rfl who (logReadTo_ignored ignored)

/-! Telemetry (R578, R580, R581). -/

/-- The number of a snapshot is taken. -/
def snapshotCounted (s : State) : State :=
  { s with crier := { s.crier with snapshots := (s.crier.snapshots + 1) % 4294967296 } }

section
variable {s : State} (level : telemLevel s ≠ 0) (runs : telemRuns s = true)
include level runs

theorem telemetrySnapshot_missed : telemetrySnapshot false s = bump .errTelemCtrlMissed 0 1 s :=
  (if_neg (by simp [level, runs])).trans (if_pos rfl)

theorem telemetrySnapshot_counted (nowhere : rd s .errTelemAddrTelemAddr 0 = 0) : telemetrySnapshot true s = snapshotCounted s :=
  (if_neg (by simp [level, runs])).trans ((if_neg (by decide)).trans (if_pos nowhere))

theorem telemetrySnapshot_written (somewhere : rd s .errTelemAddrTelemAddr 0 ≠ 0) :
    let u := snapshotCounted s
    let bs := (List.range 64).map (fun i => Config.byte u.fresh i) ++ snapshotBytes u (telemLevel s)
    let size := 2 ^ (16 + rd u .errTelemCtrlTelemSizeLog2 0)
    let pos := u.crier.telemPos % size
    let v := writeCircular (rd s .errTelemAddrTelemAddr 0) size pos bs (freshen (freshen (freshen u)))
    telemetrySnapshot true s = { v with crier := { v.crier with telemPos := (pos + bs.length) % size } } :=
  (if_neg (by simp [level, runs])).trans ((if_neg (by decide)).trans (if_neg somewhere))

end

/-- A snapshot is missed, counted, or counted and written. -/
theorem telemetryCompletes : TelemetryCompletes := by
  intro s host level runs
  refine ⟨?_, fun nowhere => ?_, fun somewhere => ?_⟩
  · exact works_inHold rfl host (telemetrySnapshot_missed level runs)
  · exact works_inHold rfl host (telemetrySnapshot_counted level runs nowhere)
  · exact works_inHold rfl host (telemetrySnapshot_written level runs somewhere)

/-- Settles O35: the operator's rows of the crier, and the telemetry snapshots. -/
theorem crierRowsComplete : Obligations.CrierRowsComplete := ⟨crierCommandsComplete, telemetryCompletes⟩

end Sys2Proof.Machine
end
